-- ==== Sys2Proof/Word.lean ====
section
/-! DEFINITION. The word types of the K12 and the plainest helpers over them. -/
namespace Sys2Proof

/-- A scalar register word, 64 bits (R47). -/
abbrev Word := BitVec 64
/-- One byte of storage. -/
abbrev Byte := BitVec 8
/-- One lane of a vector register, 32 bits (R47). -/
abbrev LaneBits := BitVec 32
/-- A slot word or header word of a bundle, 32 bits (R117). -/
abbrev Insn := BitVec 32

/-- Physical tile number (R23): die × 96 + cluster × 8 + tile. -/
abbrev TileNo := Fin 1152
/-- Compute die number (R22). -/
abbrev DieNo := Fin 12
/-- Partition number (R440, R397). -/
abbrev PartNo := Fin 16

/-- A fixed-length table read by a natural index; out of range it reads the default. -/
def vget {α : Type} [Inhabited α] {n : Nat} (v : Vector α n) (i : Nat) : α :=
  v.toArray.toList.getD i default

/-- A fixed-length table with entry `i` replaced; out of range it is unchanged. -/
def vset {α : Type} {n : Nat} (v : Vector α n) (i : Nat) (x : α) : Vector α n :=
  ⟨⟨v.toArray.toList.set i x⟩, by simp⟩

/-- The table of the values `f 0` to `f (n-1)`. -/
def vmk {α : Type} (n : Nat) (f : Nat → α) : Vector α n :=
  ⟨⟨(List.range n).map f⟩, by simp⟩

/-- A table with every entry `x`. -/
def vrep {α : Type} (n : Nat) (x : α) : Vector α n :=
  ⟨⟨List.replicate n x⟩, by simp⟩

/-- The entries of a table in index order. -/
def vlist {α : Type} {n : Nat} (v : Vector α n) : List α := v.toArray.toList

/-- Bits `hi` down to `lo` of `w`, as a number. -/
def bitsNat {n : Nat} (w : BitVec n) (hi lo : Nat) : Nat := (w.toNat >>> lo) % 2 ^ (hi + 1 - lo)

/-- Whether bit `i` of `w` is one. -/
def bitAt {n : Nat} (w : BitVec n) (i : Nat) : Bool := w.toNat.testBit i

/-- One bit as a number. -/
def b2n (b : Bool) : Nat := if b then 1 else 0

end Sys2Proof
end

