-- ==== Sys2Proof/Machine/Num.lean ====
section
/-! DEFINITION. Numbers (chapter 03): the floating formats, exact extended values, rounding, the exact
arithmetic that instruction descriptions use, UE8M1 scales, and integer helpers. -/
namespace Sys2Proof.Machine

/-! ## Integers (R80, R81) -/

/-- The clamp to a range. -/
def clampInt (lo hi x : Int) : Int := if x < lo then lo else if hi < x then hi else x
/-- `sat_sN` (R100). -/
def satS (n : Nat) (x : Int) : Int := clampInt (-(2 ^ (n - 1) : Nat)) ((2 ^ (n - 1) : Nat) - 1) x
/-- `sat_zN` (R100). -/
def satZ (n : Nat) (x : Int) : Int := clampInt 0 ((2 ^ n : Nat) - 1) x
/-- `sext(b, w)` of the low `w` bits of a number (R100). -/
def sextN (b w : Nat) : Int :=
  let l := b % 2 ^ w
  if l < 2 ^ (w - 1) then (l : Int) else (l : Int) - (2 ^ w : Nat)
/-- The number of bits that are one in the low `w` bits. -/
def popN (b w : Nat) : Nat := ((List.range w).filter (fun k => b.testBit k)).length
/-- Floor of the square root of a number below 4 ^ `bits`, one bit at a time from the top. -/
def isqrtBits (bits n : Nat) : Nat :=
  (List.range bits).reverse.foldl (fun r k => if (r + 2 ^ k) * (r + 2 ^ k) ≤ n then r + 2 ^ k else r) 0

/-! ## Formats (R82, R84, R104) -/

/-- A floating format (03 Table 3.2). `maxCode` encodes max finite, `nanCode` the canonical NaN. -/
structure Fmt where
  E : Nat
  M : Nat
  bias : Nat
  hasInf : Bool
  hasNan : Bool
  maxCode : Nat
  nanCode : Nat
  deriving DecidableEq, Repr, Inhabited

def Fmt.f32 : Fmt := { E := 8, M := 23, bias := 127, hasInf := true, hasNan := true, maxCode := 0x7F7FFFFF, nanCode := 0x7FC00000 }
def Fmt.bf16 : Fmt := { E := 8, M := 7, bias := 127, hasInf := true, hasNan := true, maxCode := 0x7F7F, nanCode := 0x7FC0 }
def Fmt.f16 : Fmt := { E := 5, M := 10, bias := 15, hasInf := true, hasNan := true, maxCode := 0x7BFF, nanCode := 0x7E00 }
def Fmt.e5m2 : Fmt := { E := 5, M := 2, bias := 15, hasInf := true, hasNan := true, maxCode := 0x7B, nanCode := 0x7E }
def Fmt.e4m3 : Fmt := { E := 4, M := 3, bias := 7, hasInf := false, hasNan := true, maxCode := 0x7E, nanCode := 0x7F }
def Fmt.e3m2 : Fmt := { E := 3, M := 2, bias := 3, hasInf := false, hasNan := false, maxCode := 0x1F, nanCode := 0 }
def Fmt.e2m3 : Fmt := { E := 2, M := 3, bias := 1, hasInf := false, hasNan := false, maxCode := 0x1F, nanCode := 0 }
def Fmt.e2m1 : Fmt := { E := 2, M := 1, bias := 1, hasInf := false, hasNan := false, maxCode := 0x07, nanCode := 0 }

/-- The width of an element of a format. -/
def Fmt.width (f : Fmt) : Nat := 1 + f.E + f.M

/-- Element kinds: a floating format, or a signed or zero-extended integer type of a width (04 Table 4.2). -/
inductive ElemFmt where
  | flt (f : Fmt) | sint (w : Nat) | zint (w : Nat)
  deriving DecidableEq, Repr, Inhabited

/-- The format that a code of 04 Table 4.2 names; codes 0xE and 0xF are reserved (R104). -/
def elemFmt (code : Nat) : Option ElemFmt :=
  match code with
  | 0x0 => some (.flt .f32) | 0x1 => some (.flt .bf16) | 0x2 => some (.flt .f16) | 0x3 => some (.flt .e5m2)
  | 0x4 => some (.flt .e4m3) | 0x5 => some (.flt .e3m2) | 0x6 => some (.flt .e2m3) | 0x7 => some (.flt .e2m1)
  | 0x8 => some (.sint 8) | 0x9 => some (.zint 8) | 0xA => some (.sint 16) | 0xB => some (.zint 16)
  | 0xC => some (.sint 32) | 0xD => some (.zint 32) | _ => none

/-- The width of an element. -/
def ElemFmt.width : ElemFmt → Nat
  | .flt f => f.width | .sint w => w | .zint w => w

/-- The width of the format a code names, 8 for a reserved code. -/
def fmtWidth (code : Nat) : Nat := ((elemFmt code).map ElemFmt.width).getD 8

/-! ## Extended values (R100) -/

/-- An extended value: NaN, an infinity or a zero with its sign, or a non-zero rational as sign, numerator and
denominator (both positive). -/
inductive Ext where
  | nan
  | inf (neg : Bool)
  | zero (neg : Bool)
  | fin (neg : Bool) (num den : Nat)
  deriving DecidableEq, Repr, Inhabited

/-- A power of two with an integer exponent, as numerator and denominator. -/
def pow2 (e : Int) : Nat × Nat :=
  match e with
  | .ofNat k => (2 ^ k, 1)
  | .negSucc k => (1, 2 ^ (k + 1))

/-- `n × 2^e` with the given sign. -/
def Ext.scaled (neg : Bool) (n : Nat) (e : Int) : Ext :=
  if n = 0 then .zero neg else let p := pow2 e; .fin neg (n * p.1) p.2

/-- A rational from an integer numerator; zero is +0. -/
def Ext.ofRat (n : Int) (d : Nat) : Ext :=
  match n with
  | .ofNat 0 => .zero false
  | .ofNat k => .fin false k d
  | .negSucc k => .fin true (k + 1) d

/-- The exact value of an integer; zero is +0 (R94). -/
def Ext.ofInt (n : Int) : Ext := Ext.ofRat n 1

/-- The signed numerator of a finite value over its denominator. -/
def Ext.rat : Ext → Int × Nat
  | .fin neg n d => (if neg then -(n : Int) else n, d)
  | _ => (0, 1)

/-- Negation. -/
def Ext.neg : Ext → Ext
  | .nan => .nan | .inf s => .inf !s | .zero s => .zero !s | .fin s n d => .fin (!s) n d

/-- Whether a value is a zero. -/
def Ext.isZero : Ext → Bool | .zero _ => true | _ => false
/-- Whether a value is NaN. -/
def Ext.isNan : Ext → Bool | .nan => true | _ => false

/-- Exact addition, with the zero signs and special values of R92 in mode rne. -/
def Ext.add : Ext → Ext → Ext
  | .nan, _ | _, .nan => .nan
  | .inf a, .inf b => if a = b then .inf a else .nan
  | .inf a, _ => .inf a
  | _, .inf b => .inf b
  | .zero a, .zero b => if a = b then .zero a else .zero false
  | .zero _, y => y
  | x, .zero _ => x
  | .fin s n d, .fin s' n' d' =>
    let a : Int := if s then -(n : Int) else n
    let b : Int := if s' then -(n' : Int) else n'
    if d' % d = 0 then Ext.ofRat (a * (d' / d : Nat) + b) d'
    else if d % d' = 0 then Ext.ofRat (a + b * (d / d' : Nat)) d
    else Ext.ofRat (a * d' + b * d) (d * d')

/-- Exact subtraction (R92). -/
def Ext.sub (a b : Ext) : Ext := a.add b.neg

/-- Exact multiplication (R92). -/
def Ext.mul : Ext → Ext → Ext
  | .nan, _ | _, .nan => .nan
  | .inf _, .zero _ | .zero _, .inf _ => .nan
  | .inf a, .inf b => .inf (a ^^ b)
  | .inf a, .fin b _ _ => .inf (a ^^ b)
  | .fin a _ _, .inf b => .inf (a ^^ b)
  | .zero a, .zero b => .zero (a ^^ b)
  | .zero a, .fin b _ _ => .zero (a ^^ b)
  | .fin a _ _, .zero b => .zero (a ^^ b)
  | .fin a n d, .fin b n' d' => .fin (a ^^ b) (n * n') (d * d')

/-- Division by a positive number of elements. -/
def Ext.divNat (x : Ext) (k : Nat) : Ext :=
  match x with
  | .fin s n d => .fin s n (d * k)
  | y => y

/-- The reciprocal of a finite value. -/
def Ext.recip : Ext → Ext
  | .fin s n d => .fin s d n
  | .zero s => .inf s
  | .inf s => .zero s
  | .nan => .nan

/-- The order of two values that are not NaN, zeros equal (R93). -/
def Ext.cmp : Ext → Ext → Ordering
  | .inf true, .inf true => .eq
  | .inf true, _ => .lt
  | _, .inf true => .gt
  | .inf false, .inf false => .eq
  | .inf false, _ => .gt
  | _, .inf false => .lt
  | x, y => let a := x.rat; let b := y.rat; compare (a.1 * b.2) (b.1 * a.2)

/-- Floor of log2 of a positive rational. -/
def floorLog2 (n d : Nat) : Int :=
  let e : Int := (Nat.log2 n : Int) - (Nat.log2 d : Int)
  let p := pow2 e
  if n * p.2 < d * p.1 then e - 1 else e

/-- Rounding modes (03 Table 3.3). -/
inductive RMode where
  | rne | rtz | rdn | rup
  deriving DecidableEq, Repr, Inhabited

/-- The mode of a 2-bit code (03 Table 3.3). -/
def RMode.ofCode (c : Nat) : RMode := match c with | 0 => .rne | 1 => .rtz | 2 => .rdn | _ => .rup

/-- The magnitude `num / den` rounded to an integer by a mode, for a value of the given sign. -/
def roundMag (mode : RMode) (neg : Bool) (num den : Nat) : Nat :=
  let q := num / den
  let r := num % den
  let up := match mode with
    | .rne => decide (den < 2 * r) || (decide (2 * r = den) && decide (q % 2 = 1))
    | .rtz => false
    | .rdn => neg && decide (r ≠ 0)
    | .rup => !neg && decide (r ≠ 0)
  if up then q + 1 else q

/-- `decode_fmt` (R100). -/
def decodeFmt (f : Fmt) (b : Nat) : Ext :=
  let s := b.testBit (f.E + f.M)
  let e := (b >>> f.M) % 2 ^ f.E
  let m := b % 2 ^ f.M
  let top := 2 ^ f.E - 1
  if f.hasNan ∧ (if f.hasInf then e = top ∧ m ≠ 0 else e = top ∧ m = 2 ^ f.M - 1) then .nan
  else if f.hasInf ∧ e = top ∧ m = 0 then .inf s
  else if e = 0 then Ext.scaled s m (1 - (f.bias : Int) - f.M)
  else Ext.scaled s (2 ^ f.M + m) ((e : Int) - f.bias - f.M)

/-- The sign bit of a format, as a number to add. -/
def Fmt.signBit (f : Fmt) (neg : Bool) : Nat := if neg then 2 ^ (f.E + f.M) else 0

/-- Max finite of a format with a sign. -/
def Fmt.maxf (f : Fmt) (neg : Bool) : Ext := decodeFmt f (f.maxCode + f.signBit neg)

/-- `round_fmt` (R88 to R90, R100; 03 Table 3.4). -/
def roundFmt (f : Fmt) (mode : RMode) (sat0 : Bool) (x : Ext) : Ext :=
  let sat := sat0 || !f.hasInf
  match x with
  | .nan => if f.hasNan then .nan else .zero false
  | .inf s => if f.hasInf && !sat then .inf s else f.maxf s
  | .zero s => .zero s
  | .fin s n d =>
    let emin : Int := 1 - (f.bias : Int)
    let ex := let l := floorLog2 n d; if l < emin then emin else l
    let u := pow2 (ex - f.M)
    let q := roundMag mode s (n * u.2) (d * u.1)
    if q = 0 then .zero s
    else
      let m := (f.maxf false).rat
      if m.1 * u.2 < (q * u.1 * m.2 : Nat) then
        if sat then f.maxf s
        else match mode with
          | .rne => .inf s
          | .rtz => f.maxf s
          | .rdn => if s then .inf s else f.maxf s
          | .rup => if s then f.maxf s else .inf s
      else .fin s (q * u.1) u.2

/-- `encode_fmt` of a value that the format represents (R100). -/
def encodeFmt (f : Fmt) (x : Ext) : Nat :=
  match x with
  | .nan => f.nanCode
  | .inf s => (2 ^ f.E - 1) * 2 ^ f.M + f.signBit s
  | .zero s => f.signBit s
  | .fin s n d =>
    let emin : Int := 1 - (f.bias : Int)
    let l := floorLog2 n d
    if l < emin then
      let u := pow2 (emin - f.M)
      n * u.2 / (d * u.1) + f.signBit s
    else
      let u := pow2 (l - f.M)
      (l + f.bias).toNat * 2 ^ f.M + (n * u.2 / (d * u.1) - 2 ^ f.M) + f.signBit s

/-- Round by rne without saturation beyond what the format always has, and encode (R90, R102). -/
def rneCode (f : Fmt) (x : Ext) : Nat := encodeFmt f (roundFmt f .rne false x)

/-- `scale_ue8m1` of a 16-bit container (R86, R87): none for NaN. -/
def scaleUe8m1 (c : Nat) : Option (Nat × Nat) :=
  if c / 512 % 128 ≠ 0 ∨ c / 2 % 256 = 0xFF then none
  else
    let p := pow2 (((c / 2 % 256 : Nat) : Int) - 127)
    some (p.1 * (2 + c % 2), p.2 * 2)

/-- Multiplication by a positive rational. -/
def Ext.scaleBy (x : Ext) (p : Nat × Nat) : Ext :=
  match x with
  | .fin s n d => .fin s (n * p.1) (d * p.2)
  | y => y

/-- The value of an element code as an extended value; integers exactly. -/
def elemValue (ef : ElemFmt) (c : Nat) : Ext :=
  match ef with
  | .flt f => decodeFmt f (c % 2 ^ f.width)
  | .sint w => Ext.ofInt (sextN c w)
  | .zint w => Ext.ofInt ((c % 2 ^ w : Nat) : Int)

/-- A rational rounded to an integer by a mode (03 Table 3.5). -/
def roundInt (mode : RMode) : Ext → Int
  | .fin s n d => let q := roundMag mode s n d; if s then -(q : Int) else q
  | _ => 0

/-- Floating to integer (03 Table 3.5): NaN gives 0, infinities the range's ends. -/
def extToInt (mode : RMode) (lo hi : Int) : Ext → Int
  | .nan => 0
  | .inf true => lo
  | .inf false => hi
  | x => clampInt lo hi (roundInt mode x)

/-- Floating minimum (R93). -/
def Ext.min (a b : Ext) : Ext :=
  if a.isNan || b.isNan then .nan
  else match a, b with
    | .zero s, .zero t => .zero (s || t)
    | _, _ => if a.cmp b = .gt then b else a

/-- Floating maximum (R93). -/
def Ext.max (a b : Ext) : Ext :=
  if a.isNan || b.isNan then .nan
  else match a, b with
    | .zero s, .zero t => .zero (s && t)
    | _, _ => if a.cmp b = .lt then b else a

/-- The six conditions of R135 applied to an order. -/
def condHolds (cond : Nat) (o : Ordering) : Bool :=
  match cond with
  | 0 => o = .eq | 1 => o ≠ .eq | 2 => o = .lt | 3 => o ≠ .gt | 4 => o = .gt | _ => o ≠ .lt

/-- A floating compare (R93). -/
def extCompare (cond : Nat) (a b : Ext) : Bool :=
  if a.isNan || b.isNan then decide (cond = 1) else condHolds cond (a.cmp b)

/-- `trunc12` (R233): twelve significant bits, toward zero. -/
def trunc12 : Ext → Ext
  | .fin s n d =>
    let u := pow2 (floorLog2 n d - 11)
    .fin s (n * u.2 / (d * u.1) * u.1) u.2
  | x => x

/-- The reciprocal seed of vrcp.f32 (R233), as an f32 code. -/
def rcpSeed (c : Nat) : Nat :=
  match decodeFmt .f32 c with
  | .fin s n d => encodeFmt .f32 (roundFmt .f32 .rtz false (trunc12 (.fin s d n)))
  | x => encodeFmt .f32 x.recip

/-- The reciprocal square root of a positive rational, truncated to twelve significant bits (R233): y = sqrt(d/n),
`floor(y / 2^(e-11))` being the integer square root of `floor(d / (n × 4^(e-11)))`. -/
def rsqTrunc (n d : Nat) : Ext :=
  let k := Int.fdiv (floorLog2 d n) 2 - 11
  let u := pow2 (2 * k)
  Ext.scaled false (isqrtBits 13 (d * u.2 / (n * u.1))) k

/-- The reciprocal square-root seed of vrsq.f32 (R233), as an f32 code. -/
def rsqSeed (c : Nat) : Nat :=
  match decodeFmt .f32 c with
  | .nan => Fmt.f32.nanCode
  | .zero s => encodeFmt .f32 (.inf s)
  | .inf false => encodeFmt .f32 (.zero false)
  | .inf true => Fmt.f32.nanCode
  | .fin true _ _ => Fmt.f32.nanCode
  | .fin false n d => encodeFmt .f32 (roundFmt .f32 .rtz false (rsqTrunc n d))

/-! ## Matrix-engine summation (R96 to R98) -/

/-- The product of two elements when it contributes: neither element is a zero (R96). -/
def contributing (a b : Ext) : Option Ext :=
  if a.isZero || b.isZero then none else some (a.mul b)

/-- One block of a floating matrix operation applied to an accumulator code (R97). -/
def blockF (acc : Nat) (sA sB : Option (Nat × Nat)) (prods : List Ext) : Nat :=
  if prods.isEmpty then acc
  else
    let put := fun (v : Ext) => rneCode .f32 ((decodeFmt .f32 acc).add (roundFmt .f32 .rne false v))
    match sA, sB with
    | some a, some b =>
      if prods.any Ext.isNan then put .nan
      else match prods.contains (.inf false), prods.contains (.inf true) with
        | true, true => put .nan
        | true, false => put (.inf false)
        | false, true => put (.inf true)
        | false, false =>
          let v := ((prods.foldl Ext.add (.zero false)).scaleBy a).scaleBy b
          if v.isZero then acc else put v
    | _, _ => put .nan

/-- One block of an integer matrix operation applied to an accumulator entry (R98). -/
def blockI (acc : LaneBits) (prods : List Int) : LaneBits :=
  if prods.isEmpty then acc else BitVec.ofInt 32 (satS 32 (acc.toInt + prods.foldl (· + ·) 0))

/-! ## Bytes -/

/-- The number that bytes hold in little-endian order (R10). -/
def leNat : List Byte → Nat
  | [] => 0
  | b :: bs => b.toNat + 256 * leNat bs

/-- A number as `k` bytes in little-endian order (R10). -/
def leBytes : Nat → Nat → List Byte
  | 0, _ => []
  | k + 1, n => BitVec.ofNat 8 n :: leBytes k (n / 256)

/-- Element `k` of width `w` of a little-endian bit stream held in bytes (R85). -/
def elemAt (bs : List Byte) (w k : Nat) : Nat := (leNat bs >>> (w * k)) % 2 ^ w

/-- Elements of width `w` packed into a little-endian bit stream of whole bytes (R85). -/
def packElems (w : Nat) (es : List Nat) : List Byte :=
  let n := es.reverse.foldl (fun acc e => acc * 2 ^ w + e % 2 ^ w) 0
  leBytes ((w * es.length + 7) / 8) n

end Sys2Proof.Machine
end

