-- ==== Sys2Proof/Syntax.lean ====
section
/-! DEFINITION. The instructions of the K12: one constructor for every row of the opcode table, a slot
operation with the fields of its format (05 Table 5.4), an event with what it takes besides the acting tile of State (log 3): an event of a tile or of a die acts on that
tile or its die. -/
namespace Sys2Proof

/-- Format SA (R130): guard, K, destination, two sources; K makes B the IMM6 field (R133). -/
structure FormSA where
  g : BitVec 4
  k : Bool
  (d a b : BitVec 6)
  deriving DecidableEq, Repr, Inhabited

/-- Format SA of an operation that uses no B operand (R133). -/
structure FormSU where
  g : BitVec 4
  (d a : BitVec 6)
  deriving DecidableEq, Repr, Inhabited

/-- Format SC (R130): guard pair J beside destination and sources. -/
structure FormSC where
  g : BitVec 4
  j : BitVec 3
  (d a b : BitVec 6)
  deriving DecidableEq, Repr, Inhabited

/-- Format SP (R130): a scalar compare, condition and guard pair. -/
structure FormSP where
  g : BitVec 4
  k : Bool
  (cond pair : BitVec 3)
  (a b : BitVec 6)
  deriving DecidableEq, Repr, Inhabited

/-- Format SL (R130): guard logic; bit 4 of GA and GB inverts the guard (R135). -/
structure FormSL where
  g : BitVec 4
  pair : BitVec 3
  (ga gb : BitVec 5)
  deriving DecidableEq, Repr, Inhabited

/-- Format SA of lea, whose MINOR is the left shift of B (R140). -/
structure FormSLea where
  g : BitVec 4
  k : Bool
  sh : BitVec 2
  (d a b : BitVec 6)
  deriving DecidableEq, Repr, Inhabited

/-- Format SR (R130): a control-register read. -/
structure FormSR where
  g : BitVec 4
  d : BitVec 6
  cr : BitVec 12
  deriving DecidableEq, Repr, Inhabited

/-- Format SA of sxt and zxt, whose MINOR is the width code (R140). -/
structure FormSW where
  g : BitVec 4
  w : BitVec 2
  (d a : BitVec 6)
  deriving DecidableEq, Repr, Inhabited

/-- Format CB with K = 1: target-buffer entry and word offset (R140). -/
structure FormCBo where
  g : BitVec 4
  e : BitVec 2
  off : BitVec 18
  deriving DecidableEq, Repr, Inhabited

/-- Format CB with K = 0: target-buffer entry and target register (R140). -/
structure FormCBr where
  g : BitVec 4
  e : BitVec 2
  a : BitVec 6
  deriving DecidableEq, Repr, Inhabited

/-- Format CE (R130): target-buffer entry. -/
structure FormCE where
  g : BitVec 4
  e : BitVec 2
  deriving DecidableEq, Repr, Inhabited

/-- A format with no field but the guard (CZ, and xwait). -/
structure FormGZ where
  g : BitVec 4
  deriving DecidableEq, Repr, Inhabited

/-- Format CL (R130): loop count and last-bundle offset. -/
structure FormCL where
  g : BitVec 4
  k : Bool
  cnt : BitVec 6
  last : BitVec 12
  deriving DecidableEq, Repr, Inhabited

/-- Format CV (R130): loop level. -/
structure FormCV where
  g : BitVec 4
  lvl : BitVec 3
  deriving DecidableEq, Repr, Inhabited

/-- Format CW with K = 1: semaphore and immediate count (R203). -/
structure FormCWi where
  g : BitVec 4
  sem : BitVec 6
  n : BitVec 12
  deriving DecidableEq, Repr, Inhabited

/-- Format CW with K = 0: semaphore and count register (R203). -/
structure FormCWr where
  g : BitVec 4
  (sem b : BitVec 6)
  deriving DecidableEq, Repr, Inhabited

/-- Format CA (R130): one source in bits 5 to 0. -/
structure FormCA where
  g : BitVec 4
  a : BitVec 6
  deriving DecidableEq, Repr, Inhabited

/-- Format CI (R130): IMM16. -/
structure FormCI where
  g : BitVec 4
  imm : BitVec 16
  deriving DecidableEq, Repr, Inhabited

/-- Format CI of chkctl: COMPARE bit (R193). -/
structure FormCK where
  g : BitVec 4
  cmp : Bool
  deriving DecidableEq, Repr, Inhabited

/-- Two sources, no destination (CC, and X and Q forms whose D or SEL is unused). -/
structure FormGAB where
  g : BitVec 4
  (a b : BitVec 6)
  deriving DecidableEq, Repr, Inhabited

/-- Format CX (R130): control-register number and source. -/
structure FormCX where
  g : BitVec 4
  cr : BitVec 12
  a : BitVec 6
  deriving DecidableEq, Repr, Inhabited

/-- Format M of a scratchpad access: BMODE and P in MINOR (R136). -/
structure FormMA where
  g : BitVec 4
  bm : BitVec 2
  p : Bool
  (d a b : BitVec 6)
  deriving DecidableEq, Repr, Inhabited

/-- Formats M and Q with MINOR zero: destination and two sources. -/
structure FormDAB where
  g : BitVec 4
  (d a b : BitVec 6)
  deriving DecidableEq, Repr, Inhabited

/-- Formats M and VS with a 3-bit register name (shape, or the return stream of acas) beside D, A and B. -/
structure FormHDAB where
  g : BitVec 4
  h : BitVec 3
  (d a b : BitVec 6)
  deriving DecidableEq, Repr, Inhabited

/-- Formats M and Q with a 3-bit register name and source A. -/
structure FormHA where
  g : BitVec 4
  h : BitVec 3
  a : BitVec 6
  deriving DecidableEq, Repr, Inhabited

/-- Formats M and Q with a 3-bit register name only. -/
structure FormH0 where
  g : BitVec 4
  h : BitVec 3
  deriving DecidableEq, Repr, Inhabited

/-- Format VA (R130): guard, mask, destination, two sources. -/
structure FormVA where
  g : BitVec 4
  m : BitVec 3
  (d a b : BitVec 6)
  deriving DecidableEq, Repr, Inhabited

/-- Format VA of an operation that uses no B operand. -/
structure FormVU where
  g : BitVec 4
  m : BitVec 3
  (d a : BitVec 6)
  deriving DecidableEq, Repr, Inhabited

/-- Format VA of vchk, which has no destination. -/
structure FormVK where
  g : BitVec 4
  m : BitVec 3
  (a b : BitVec 6)
  deriving DecidableEq, Repr, Inhabited

/-- Format VA of vcvt: rounding mode in OP[1:0], pair and SAT in B (R137). -/
structure FormVT where
  r : BitVec 2
  g : BitVec 4
  m : BitVec 3
  (d a : BitVec 6)
  pair : BitVec 5
  sat : Bool
  deriving DecidableEq, Repr, Inhabited

/-- Format VA of the floating block: type in OP[1:0] (R139). -/
structure FormVF where
  t : BitVec 2
  g : BitVec 4
  m : BitVec 3
  (d a b : BitVec 6)
  deriving DecidableEq, Repr, Inhabited

/-- Format VA of an integer vector compare: COND and mask pair in D (R135). -/
structure FormVC where
  g : BitVec 4
  (m cond : BitVec 3)
  j : BitVec 2
  (a b : BitVec 6)
  deriving DecidableEq, Repr, Inhabited

/-- Format VA of a floating vector compare (R135, R139). -/
structure FormVFC where
  t : BitVec 2
  g : BitVec 4
  (m cond : BitVec 3)
  j : BitVec 2
  (a b : BitVec 6)
  deriving DecidableEq, Repr, Inhabited

/-- Format X of xnest: level, field, value (R245). -/
structure FormXN where
  g : BitVec 4
  f : BitVec 3
  (sel a : BitVec 6)
  deriving DecidableEq, Repr, Inhabited

/-- Format X of xbase and xbmp: field, value (R245, R246). -/
structure FormXB where
  g : BitVec 4
  (sel a : BitVec 6)
  deriving DecidableEq, Repr, Inhabited

/-- Formats X and Q with source A only. -/
structure FormXA where
  g : BitVec 4
  a : BitVec 6
  deriving DecidableEq, Repr, Inhabited

/-- Format X with SEL only (xsrc, xstat). -/
structure FormXS where
  g : BitVec 4
  sel : BitVec 6
  deriving DecidableEq, Repr, Inhabited

/-- Format X with F and SEL (xsdiag, xgo). -/
structure FormXF where
  g : BitVec 4
  f : BitVec 3
  sel : BitVec 6
  deriving DecidableEq, Repr, Inhabited

/-- Format Q of ssig: MINOR[2:1] beside target and count (R266). -/
structure FormSG where
  g : BitVec 4
  hi : BitVec 2
  (a b : BitVec 6)
  deriving DecidableEq, Repr, Inhabited

/-- Who writes a register that stands both in the privileged space and in the partition window
(R403, R448): the handler of a tile, or the host through a window. -/
inductive Origin where
  | handler (t : TileNo)
  | window (p : PartNo)
  deriving DecidableEq, Repr, Inhabited

/-- The windows of 21 Table 21.1. -/
inductive Window where
  | package
  | partition (p : PartNo)
  deriving DecidableEq, Repr, Inhabited

/-- The unit that a hard error of classes 9 and 10 names (R414). -/
inductive EngineUnit where
  | tileEngines (t : TileNo)
  | atomicEngine (d : DieNo) (cluster : Fin 12)
  deriving DecidableEq, Repr, Inhabited

/-- Where a contribution to a collective group comes from (R442): one of this package's rsends in
flight, by its number, or another package over UALink, with the place and SEQ of its gating reference (R317). -/
inductive ContribSource where
  | flight (n : Nat)
  | peer (pkg : BitVec 5) (place group : BitVec 16) (dst : Word) (rfmt : BitVec 4) (redop : BitVec 2) (data : List Byte)
      (gate : Option (BitVec 16 × BitVec 32))
  deriving DecidableEq, Repr, Inhabited

/-- A service command (R472): the device serial and counter it names, and its action. -/
inductive ServiceAction where
  | raiseSvn (kind : Fin 3) (svn : BitVec 32)
  | returnTile (t : TileNo)
  deriving DecidableEq, Repr, Inhabited

/-- A service command as it arrives at the management interface (R472). -/
structure ServiceCommand where
  serial : Word
  counter : Nat
  action : ServiceAction
  sig : BitVec 768
  deriving DecidableEq, Repr, Inhabited

/-- What the wall-time discipline receives (R445): the grandmaster's time, or its loss. -/
inductive TimingMessage where
  | grandmaster (ns : Nat)
  | lost
  deriving DecidableEq, Repr, Inhabited

/-- The instructions: one constructor for every row of the opcode table, those with fields first. -/
inductive Instr where
  | streamElementFill (t : TileNo) (serial : Nat)
  | streamElementDrain (t : TileNo) (serial : Nat)
  | globalRequestPerform (t : TileNo) (id : Nat)
  | transferCompletion (t : TileNo) (id : Nat)
  | semaphoreSignalArrival (n : Nat)
  | globalAtomicPerform (t : TileNo) (id : Nat)
  | translationMiss (t : TileNo) (copyEngine : Bool)
  | translationWalkComplete (t : TileNo) (copyEngine : Bool)
  | walkFill (o : Origin) (v : Word)
  | engineFault (t : TileNo) (id : Nat)
  | efResume (o : Origin) (v : Word)
  | xlShoot (o : Origin) (v : Word)
  | xlShootDone (p : PartNo)
  | homeDieRequest (t : TileNo) (id : Nat)
  | migCmd (o : Origin) (v : Word)
  | migDecayHalving (p : PartNo) (d : DieNo)
  | frameSet (d : DieNo) (v : Word)
  | freePush (d : DieNo) (v : Word)
  | resumeWrite (t : TileNo) (v : Word)
  | qtail (p : PartNo) (q : Fin 64) (v : Word)
  | launchCompletion (id : Nat)
  | gateSig (p : PartNo) (v : Word)
  | gateInit (p : PartNo) (v : Word)
  | preempt (p : PartNo) (v : Word)
  | kill (p : PartNo) (v : Word)
  | modeSet (p : PartNo) (v : Word)
  | hset (p : PartNo) (v : Word)
  | quarantine (d : DieNo) (v : Word)
  | governorThresholds (d : DieNo) (budget : Bool) (v : Word)
  | resetCmd (v : Word)
  | linkFailure (l : Fin 28) (width : BitVec 2)
  | rsendContribution (c : ContribSource)
  | groupCfg (v : Word)
  | hsumpDone (d : DieNo) (v : Word)
  | hostMemWrite (off : Nat) (data : List Byte)
  | hostMemRead (off : Nat) (len : Nat)
  | windowRegisterWrite (w : Window) (off : BitVec 17) (v : Word)
  | ringTail (t : TileNo) (v : Word)
  | errTail (p : PartNo) (v : Word)
  | dbgStopTile (p : PartNo) (t : TileNo)
  | dbgReleaseTile (p : PartNo) (t : TileNo)
  | dbgSingleIssue (p : PartNo) (t : TileNo)
  | dbgHaltDie (p : PartNo) (d : DieNo)
  | dbgReleaseDie (p : PartNo) (d : DieNo)
  | dbgDump (p : PartNo) (t : TileNo)
  | dbgPatch (p : PartNo) (t : TileNo)
  | divergenceHash (id : Nat)
  | divergedClear (o : Origin)
  | serviceCommand (c : ServiceCommand)
  | attestationRequest (nonce : BitVec 256)
  | powerCap (watts : Nat)
  | mov (f : FormSU)
  | add (f : FormSA)
  | sub (f : FormSA)
  | addo (f : FormSC)
  | addc (f : FormSC)
  | subo (f : FormSC)
  | subc (f : FormSC)
  | mul (f : FormSA)
  | mulhS64 (f : FormSA)
  | mulhZ64 (f : FormSA)
  | divS64 (f : FormSA)
  | divZ64 (f : FormSA)
  | remS64 (f : FormSA)
  | remZ64 (f : FormSA)
  | minS64 (f : FormSA)
  | minZ64 (f : FormSA)
  | maxS64 (f : FormSA)
  | maxZ64 (f : FormSA)
  | andOp (f : FormSA)
  | orOp (f : FormSA)
  | xorOp (f : FormSA)
  | andn (f : FormSA)
  | shl (f : FormSA)
  | shrZ64 (f : FormSA)
  | shrS64 (f : FormSA)
  | rotl (f : FormSA)
  | rotr (f : FormSA)
  | clz (f : FormSU)
  | ctz (f : FormSU)
  | popc (f : FormSU)
  | brev (f : FormSU)
  | bswap (f : FormSU)
  | bfextS64 (f : FormSA)
  | bfextZ64 (f : FormSA)
  | bfins (f : FormSA)
  | clmul (f : FormSA)
  | clmulh (f : FormSA)
  | cmpS64 (f : FormSP)
  | cmpZ64 (f : FormSP)
  | gdand (f : FormSL)
  | gdor (f : FormSL)
  | gdxor (f : FormSL)
  | sel (f : FormSC)
  | lea (f : FormSLea)
  | tagof (f : FormSU)
  | dflt (f : FormSA)
  | rdctl (f : FormSR)
  | sxt (f : FormSW)
  | zxt (f : FormSW)
  | prepOffset (f : FormCBo)
  | prepRegister (f : FormCBr)
  | br (f : FormCE)
  | call (f : FormCE)
  | ret (f : FormGZ)
  | loop (f : FormCL)
  | lbrk (f : FormCV)
  | semwImmediate (f : FormCWi)
  | semwRegister (f : FormCWr)
  | waitw (f : FormCA)
  | stepMark (f : FormCI)
  | brk (f : FormCI)
  | trap (f : FormCI)
  | sys (f : FormCI)
  | endItem (f : FormGZ)
  | chkctl (f : FormCK)
  | dblctl (f : FormCI)
  | ctrap (f : FormGAB)
  | commit (f : FormGZ)
  | wrctl (f : FormCX)
  | setctl (f : FormCX)
  | clrctl (f : FormCX)
  | rft (f : FormGZ)
  | xlinv (f : FormCA)
  | ctxsave (f : FormCA)
  | ctxload (f : FormCA)
  | ldS8 (f : FormMA)
  | ldZ8 (f : FormMA)
  | ldS16 (f : FormMA)
  | ldZ16 (f : FormMA)
  | ldS32 (f : FormMA)
  | ldZ32 (f : FormMA)
  | ldZ64 (f : FormMA)
  | stZ8 (f : FormMA)
  | stZ16 (f : FormMA)
  | stZ32 (f : FormMA)
  | stZ64 (f : FormMA)
  | vld (f : FormMA)
  | vst (f : FormMA)
  | vlds (f : FormMA)
  | vsts (f : FormMA)
  | vldx (f : FormDAB)
  | vstx (f : FormDAB)
  | vldr (f : FormHDAB)
  | hbind (f : FormHA)
  | hunbind (f : FormH0)
  | ladd (f : FormDAB)
  | lminS64 (f : FormDAB)
  | lminZ64 (f : FormDAB)
  | lmaxS64 (f : FormDAB)
  | lmaxZ64 (f : FormDAB)
  | lxch (f : FormDAB)
  | lcas (f : FormDAB)
  | vmov (f : FormVU)
  | vsel (f : FormVA)
  | vchk (f : FormVK)
  | vcvt (f : FormVT)
  | vand (f : FormVA)
  | vor (f : FormVA)
  | vxor (f : FormVA)
  | vshl (f : FormVA)
  | vshrZ32 (f : FormVA)
  | vshrS32 (f : FormVA)
  | vperm (f : FormVA)
  | vbcast (f : FormVA)
  | vaddS32 (f : FormVA)
  | vsubS32 (f : FormVA)
  | vmulS32 (f : FormVA)
  | vaddsS32 (f : FormVA)
  | vminS32 (f : FormVA)
  | vminZ32 (f : FormVA)
  | vmaxS32 (f : FormVA)
  | vmaxZ32 (f : FormVA)
  | vcmpS32 (f : FormVC)
  | vcmpZ32 (f : FormVC)
  | vext (f : FormVA)
  | vins (f : FormVA)
  | vrcpF32 (f : FormVU)
  | vrsqF32 (f : FormVU)
  | vitpF32 (f : FormVA)
  | vitpBf16 (f : FormVA)
  | vaddF (f : FormVF)
  | vsubF (f : FormVF)
  | vmulF (f : FormVF)
  | vfma (f : FormVF)
  | vfnma (f : FormVF)
  | vminF (f : FormVF)
  | vmaxF (f : FormVF)
  | vcmpF (f : FormVFC)
  | vssum (f : FormHDAB)
  | vsmin (f : FormHDAB)
  | vsmax (f : FormHDAB)
  | vsscan (f : FormHDAB)
  | vsmean (f : FormHDAB)
  | vsvar (f : FormHDAB)
  | vssmx (f : FormHDAB)
  | xnest (f : FormXN)
  | xbase (f : FormXB)
  | xfmt (f : FormXA)
  | xsrc (f : FormXS)
  | xbmp (f : FormXB)
  | xsdiag (f : FormXF)
  | xzero (f : FormXA)
  | xgo (f : FormXF)
  | xdrain (f : FormGAB)
  | xwait (f : FormGZ)
  | xstat (f : FormXS)
  | sbind (f : FormHA)
  | sunbind (f : FormH0)
  | gpush (f : FormHA)
  | copy (f : FormGAB)
  | send (f : FormGAB)
  | rsend (f : FormXA)
  | ssig (f : FormSG)
  | ssigR (f : FormSG)
  | sinit (f : FormGAB)
  | sread (f : FormSU)
  | aadd (f : FormDAB)
  | aminS64 (f : FormDAB)
  | aminZ64 (f : FormDAB)
  | amaxS64 (f : FormDAB)
  | amaxZ64 (f : FormDAB)
  | aand (f : FormDAB)
  | aor (f : FormDAB)
  | axor (f : FormDAB)
  | axch (f : FormDAB)
  | acas (f : FormHDAB)
  | afaddF32 (f : FormDAB)
  | afaddBf16 (f : FormDAB)
  | fence (f : FormXA)
  | launch (f : FormXA)
  | pref (f : FormXA)
  | ectlBayout (f : FormGAB)
  | ectlBayin (f : FormGAB)
  | ectlSpout (f : FormGAB)
  | ectlSpin (f : FormGAB)
  | ectlAccout (f : FormGAB)
  | ectlAccin (f : FormGAB)
  | ectlKill (f : FormGAB)
  | engineHardError (u : EngineUnit)
  | partitionCreate (p : PartNo) (tiles : BitVec 1152)
  | junctionThrottle (d : DieNo) (hot : Bool)
  | wallTimeDiscipline (m : TimingMessage)
  | ualinkPortState (k : Fin 16) (up : Bool) (peer : BitVec 5)
  | bundleIssue
  | waitCycle
  | bubbleCycle
  | waitwDeadline
  | resultArrival
  | engineCommandPresentation
  | denseMatrixCycle
  | matrixBlockZero
  | drainRowWrite
  | sparseMatrixStart
  | sparseMatrixComplete
  | segmentEntry
  | segmentRewind
  | deciderVerdict
  | trapTaken
  | semaphoreWaitWatchdog
  | debugStop
  | walkData
  | migrationComplete
  | refuseLog
  | signalLog
  | launchAccept
  | sumpAdmit
  | launchEligible
  | gangPlacement
  | runResident
  | gangStart
  | workItemComplete
  | sliceExpiry
  | gangPreemption
  | contextSaveDone
  | ectlTransferComplete
  | gangRestore
  | marginMeasurement
  | resetDone
  | dieFailure
  | galleryDieLoss
  | thermalTrip
  | surveyReportWrite
  | powerOn
  | nop
  deriving DecidableEq, Repr, Inhabited

end Sys2Proof
end

