-- ==== Sys2Proof/Config.lean ====
section
/-! DEFINITION. What one K12 fixes once: the free values, for which nothing is assumed, and the sizes that
the manual gives the package. -/
namespace Sys2Proof.Config

/-- The values of kernel registers, queues and semaphores after a ctxsave (R357), which are not defined.
Applied to the counter `State.free` (log 8). -/
opaque freeWord : Nat → BitVec 64

/-- The frequency points of a tile's error-rate curve, in MHz (R411; log 9). -/
opaque curvePoints : Nat → List Nat

/-- The lowest voltage, in mV, of a tile's error-rate curve at a frequency point (R411; log 9). -/
opaque curveLowMv : Nat → Nat → Nat

/-- How far, in mV, the voltage of a tile's error-rate curve at a frequency point of each number lies above the one before it (R411; log 9). -/
opaque curveStepMv : Nat → Nat → Nat → Nat

/-- The replay rate, per 10^9 clk, at the voltage of each number of a frequency point of a tile's error-rate curve (R411; log 9). -/
opaque curveRate : Nat → Nat → Nat → Nat

/-- The voltage of each number at a frequency point: no two are the same. -/
def curveMvAt (tile mhz : Nat) : Nat → Nat
  | 0 => curveLowMv tile mhz
  | k + 1 => curveMvAt tile mhz k + 1 + curveStepMv tile mhz k

/-- The error-rate curve of a tile at shipment (R411): for each frequency point eight voltages, as clock in MHz, voltage in mV, replays per 10^9 clk. -/
def factoryCurve (tile : Nat) : List (Nat × Nat × Nat) :=
  (curvePoints tile).eraseDups.flatMap fun f => (List.range 8).map fun k => (f, curveMvAt tile f k, curveRate tile f k)

/-- Whether the variance of a segment of one element that is infinite or NaN is +0 (R115, R241); R240 says NaN (log 81). -/
opaque loneVarianceZero : Bool

/-- The voltage in mV that a tile's error-rate curve gives at a clock in MHz (R405): how the governor finds it is not stated (log 9). -/
opaque curveMv : List (Nat × Nat × Nat) → Nat → Nat

/-- The guard band of fixed mode, in mV (R405, 20 Table 20.1; log 9). -/
opaque guardBand : Nat

/-- The NV floor of a tile at shipment, in mV (R405; log 9). -/
opaque floorMv : Nat → Nat

/-- The voltage ceiling of a die, in mV (R409; log 9). -/
opaque ceilMv : Nat → Nat

/-- The tiles of a die that are excluded at shipment, by number within the die (R3, R412 STATE 1; log 9). -/
opaque shipmentList : Nat → List Nat

/-- Whether a tile is excluded at shipment: at most four of a die, so that at least 92 of each die, and 1104 in all, are enabled (R2, R3). -/
def excludedAtShipment (t : Nat) : Bool := ((shipmentList (t / 96)).take 4).contains (t % 96)

/-- Whether the signature of a service command verifies under the service key (R472): the manual does not
give the bytes that are signed (log 9). -/
opaque serviceSigned : ServiceCommand → Bool

/-- The device serial (R472; log 9). -/
opaque serial : BitVec 64

/-- The signature of the identity key over an attestation report (R471): the key is a fused secret (log 9). -/
opaque identitySign : List Byte → List Byte

/-- The firmware images in package flash at shipment (R470; log 9). -/
opaque flashImages : List (List Byte)

/-- The fused hash of the firmware root key (R470; log 9). -/
opaque rootHash : List Byte

/-- The fused SVN minima at shipment, for KIND 1 to 3 (R470; log 9). -/
opaque svnMin : Nat → BitVec 32

/-- The bytes of a die's NV tables, whose layout the manual does not give, from what they hold (R411, R471; log 9). -/
opaque nvBytes : List Nat → List Byte

/-- TRAP_VALUE of the privileged-register trap where the operation names no register (R343; log 26). -/
opaque noRegister : BitVec 64

/-- The clock in MHz to which the governor lowers a tile's clock while its die is too hot or a power cap stands (R473; log 17). -/
opaque loweredMhz : Nat → Nat → Nat

/-- Whether a pre-emption asked for by PREEMPT waits until the gang's tiles have spent 4096 sc: R378 and R384 say so, and the run of R463
is pre-empted at 564 (log 85). -/
opaque preemptWaits : Bool

/-- The byte that the hardware's own reads give at a virtual address that the partition does not map (log 34). -/
opaque absentByte : Nat → BitVec 8

/-- Tiles of a die. -/
def tilesPerDie : Nat := 96
/-- Scratchpad bytes of a tile, save bay included (R213, R350). -/
def spadBytes : Nat := 0x600000
/-- The first byte of the save bay (R350). -/
def saveBay : Nat := 0x5F0000
/-- Handler-store bytes (R338). -/
def storeBytes : Nat := 0x4000
/-- Populated HBM bytes of a die (R386). -/
def hbmBytes : Nat := 0x1800000000

end Sys2Proof.Config
end

