-- ==== Sys2Proof/Decode.lean ====
section
/-! DEFINITION. Slot words: the encoder and the decoder of every slot operation (05 Tables 5.4 to 5.9,
12.1, 17.7, 17.8), the roles of their fields (R131, R140), the word checks of 05 Table 5.10, and the bundle
header and its checks (R117 to R129). -/
namespace Sys2Proof

/-- Field `[lo + n - 1 : lo]` of a slot word. -/
def fld (w : Insn) (lo n : Nat) : BitVec n := BitVec.extractLsb' lo n w

/-- A value placed at bit `lo` of a slot word. -/
def place {n : Nat} (v : BitVec n) (lo : Nat) : Insn := v.setWidth 32 <<< lo

/-- One bit placed at bit `lo` of a slot word. -/
def placeB (v : Bool) (lo : Nat) : Insn := (BitVec.ofBool v).setWidth 32 <<< lo

/-- The word bits of the fields of `FormSA`. -/
def FormSA.bits (f : FormSA) : Insn :=
  place f.g 21 ||| placeB f.k 20 ||| place f.d 12 ||| place f.a 6 ||| place f.b 0

/-- The fields of `FormSA` as they stand in a word. -/
def FormSA.ofWord (w : Insn) : FormSA :=
  { g := fld w 21 4, k := w.getLsbD 20, d := fld w 12 6, a := fld w 6 6, b := fld w 0 6 }

/-- The word bits of the fields of `FormSU`. -/
def FormSU.bits (f : FormSU) : Insn :=
  place f.g 21 ||| place f.d 12 ||| place f.a 6

/-- The fields of `FormSU` as they stand in a word. -/
def FormSU.ofWord (w : Insn) : FormSU :=
  { g := fld w 21 4, d := fld w 12 6, a := fld w 6 6 }

/-- The word bits of the fields of `FormSC`. -/
def FormSC.bits (f : FormSC) : Insn :=
  place f.g 21 ||| place f.j 18 ||| place f.d 12 ||| place f.a 6 ||| place f.b 0

/-- The fields of `FormSC` as they stand in a word. -/
def FormSC.ofWord (w : Insn) : FormSC :=
  { g := fld w 21 4, j := fld w 18 3, d := fld w 12 6, a := fld w 6 6, b := fld w 0 6 }

/-- The word bits of the fields of `FormSP`. -/
def FormSP.bits (f : FormSP) : Insn :=
  place f.g 21 ||| placeB f.k 20 ||| place f.cond 15 ||| place f.pair 12 ||| place f.a 6 ||| place f.b 0

/-- The fields of `FormSP` as they stand in a word. -/
def FormSP.ofWord (w : Insn) : FormSP :=
  { g := fld w 21 4, k := w.getLsbD 20, cond := fld w 15 3, pair := fld w 12 3, a := fld w 6 6, b := fld w 0 6 }

/-- The word bits of the fields of `FormSL`. -/
def FormSL.bits (f : FormSL) : Insn :=
  place f.g 21 ||| place f.pair 12 ||| place f.ga 6 ||| place f.gb 0

/-- The fields of `FormSL` as they stand in a word. -/
def FormSL.ofWord (w : Insn) : FormSL :=
  { g := fld w 21 4, pair := fld w 12 3, ga := fld w 6 5, gb := fld w 0 5 }

/-- The word bits of the fields of `FormSLea`. -/
def FormSLea.bits (f : FormSLea) : Insn :=
  place f.g 21 ||| placeB f.k 20 ||| place f.sh 18 ||| place f.d 12 ||| place f.a 6 ||| place f.b 0

/-- The fields of `FormSLea` as they stand in a word. -/
def FormSLea.ofWord (w : Insn) : FormSLea :=
  { g := fld w 21 4, k := w.getLsbD 20, sh := fld w 18 2, d := fld w 12 6, a := fld w 6 6, b := fld w 0 6 }

/-- The word bits of the fields of `FormSR`. -/
def FormSR.bits (f : FormSR) : Insn :=
  place f.g 21 ||| place f.d 12 ||| place f.cr 0

/-- The fields of `FormSR` as they stand in a word. -/
def FormSR.ofWord (w : Insn) : FormSR :=
  { g := fld w 21 4, d := fld w 12 6, cr := fld w 0 12 }

/-- The word bits of the fields of `FormSW`. -/
def FormSW.bits (f : FormSW) : Insn :=
  place f.g 21 ||| place f.w 18 ||| place f.d 12 ||| place f.a 6

/-- The fields of `FormSW` as they stand in a word. -/
def FormSW.ofWord (w : Insn) : FormSW :=
  { g := fld w 21 4, w := fld w 18 2, d := fld w 12 6, a := fld w 6 6 }

/-- The word bits of the fields of `FormCBo`. -/
def FormCBo.bits (f : FormCBo) : Insn :=
  place f.g 21 ||| place f.e 19 ||| place f.off 0

/-- The fields of `FormCBo` as they stand in a word. -/
def FormCBo.ofWord (w : Insn) : FormCBo :=
  { g := fld w 21 4, e := fld w 19 2, off := fld w 0 18 }

/-- The word bits of the fields of `FormCBr`. -/
def FormCBr.bits (f : FormCBr) : Insn :=
  place f.g 21 ||| place f.e 19 ||| place f.a 0

/-- The fields of `FormCBr` as they stand in a word. -/
def FormCBr.ofWord (w : Insn) : FormCBr :=
  { g := fld w 21 4, e := fld w 19 2, a := fld w 0 6 }

/-- The word bits of the fields of `FormCE`. -/
def FormCE.bits (f : FormCE) : Insn :=
  place f.g 21 ||| place f.e 19

/-- The fields of `FormCE` as they stand in a word. -/
def FormCE.ofWord (w : Insn) : FormCE :=
  { g := fld w 21 4, e := fld w 19 2 }

/-- The word bits of the fields of `FormGZ`. -/
def FormGZ.bits (f : FormGZ) : Insn :=
  place f.g 21

/-- The fields of `FormGZ` as they stand in a word. -/
def FormGZ.ofWord (w : Insn) : FormGZ :=
  { g := fld w 21 4 }

/-- The word bits of the fields of `FormCL`. -/
def FormCL.bits (f : FormCL) : Insn :=
  place f.g 21 ||| placeB f.k 20 ||| place f.cnt 12 ||| place f.last 0

/-- The fields of `FormCL` as they stand in a word. -/
def FormCL.ofWord (w : Insn) : FormCL :=
  { g := fld w 21 4, k := w.getLsbD 20, cnt := fld w 12 6, last := fld w 0 12 }

/-- The word bits of the fields of `FormCV`. -/
def FormCV.bits (f : FormCV) : Insn :=
  place f.g 21 ||| place f.lvl 18

/-- The fields of `FormCV` as they stand in a word. -/
def FormCV.ofWord (w : Insn) : FormCV :=
  { g := fld w 21 4, lvl := fld w 18 3 }

/-- The word bits of the fields of `FormCWi`. -/
def FormCWi.bits (f : FormCWi) : Insn :=
  place f.g 21 ||| place f.sem 15 ||| place f.n 0

/-- The fields of `FormCWi` as they stand in a word. -/
def FormCWi.ofWord (w : Insn) : FormCWi :=
  { g := fld w 21 4, sem := fld w 15 6, n := fld w 0 12 }

/-- The word bits of the fields of `FormCWr`. -/
def FormCWr.bits (f : FormCWr) : Insn :=
  place f.g 21 ||| place f.sem 15 ||| place f.b 0

/-- The fields of `FormCWr` as they stand in a word. -/
def FormCWr.ofWord (w : Insn) : FormCWr :=
  { g := fld w 21 4, sem := fld w 15 6, b := fld w 0 6 }

/-- The word bits of the fields of `FormCA`. -/
def FormCA.bits (f : FormCA) : Insn :=
  place f.g 21 ||| place f.a 0

/-- The fields of `FormCA` as they stand in a word. -/
def FormCA.ofWord (w : Insn) : FormCA :=
  { g := fld w 21 4, a := fld w 0 6 }

/-- The word bits of the fields of `FormCI`. -/
def FormCI.bits (f : FormCI) : Insn :=
  place f.g 21 ||| place f.imm 0

/-- The fields of `FormCI` as they stand in a word. -/
def FormCI.ofWord (w : Insn) : FormCI :=
  { g := fld w 21 4, imm := fld w 0 16 }

/-- The word bits of the fields of `FormCK`. -/
def FormCK.bits (f : FormCK) : Insn :=
  place f.g 21 ||| placeB f.cmp 0

/-- The fields of `FormCK` as they stand in a word. -/
def FormCK.ofWord (w : Insn) : FormCK :=
  { g := fld w 21 4, cmp := w.getLsbD 0 }

/-- The word bits of the fields of `FormGAB`. -/
def FormGAB.bits (f : FormGAB) : Insn :=
  place f.g 21 ||| place f.a 6 ||| place f.b 0

/-- The fields of `FormGAB` as they stand in a word. -/
def FormGAB.ofWord (w : Insn) : FormGAB :=
  { g := fld w 21 4, a := fld w 6 6, b := fld w 0 6 }

/-- The word bits of the fields of `FormCX`. -/
def FormCX.bits (f : FormCX) : Insn :=
  place f.g 21 ||| place f.cr 6 ||| place f.a 0

/-- The fields of `FormCX` as they stand in a word. -/
def FormCX.ofWord (w : Insn) : FormCX :=
  { g := fld w 21 4, cr := fld w 6 12, a := fld w 0 6 }

/-- The word bits of the fields of `FormMA`. -/
def FormMA.bits (f : FormMA) : Insn :=
  place f.g 21 ||| place f.bm 19 ||| placeB f.p 18 ||| place f.d 12 ||| place f.a 6 ||| place f.b 0

/-- The fields of `FormMA` as they stand in a word. -/
def FormMA.ofWord (w : Insn) : FormMA :=
  { g := fld w 21 4, bm := fld w 19 2, p := w.getLsbD 18, d := fld w 12 6, a := fld w 6 6, b := fld w 0 6 }

/-- The word bits of the fields of `FormDAB`. -/
def FormDAB.bits (f : FormDAB) : Insn :=
  place f.g 21 ||| place f.d 12 ||| place f.a 6 ||| place f.b 0

/-- The fields of `FormDAB` as they stand in a word. -/
def FormDAB.ofWord (w : Insn) : FormDAB :=
  { g := fld w 21 4, d := fld w 12 6, a := fld w 6 6, b := fld w 0 6 }

/-- The word bits of the fields of `FormHDAB`. -/
def FormHDAB.bits (f : FormHDAB) : Insn :=
  place f.g 21 ||| place f.h 18 ||| place f.d 12 ||| place f.a 6 ||| place f.b 0

/-- The fields of `FormHDAB` as they stand in a word. -/
def FormHDAB.ofWord (w : Insn) : FormHDAB :=
  { g := fld w 21 4, h := fld w 18 3, d := fld w 12 6, a := fld w 6 6, b := fld w 0 6 }

/-- The word bits of the fields of `FormHA`. -/
def FormHA.bits (f : FormHA) : Insn :=
  place f.g 21 ||| place f.h 18 ||| place f.a 6

/-- The fields of `FormHA` as they stand in a word. -/
def FormHA.ofWord (w : Insn) : FormHA :=
  { g := fld w 21 4, h := fld w 18 3, a := fld w 6 6 }

/-- The word bits of the fields of `FormH0`. -/
def FormH0.bits (f : FormH0) : Insn :=
  place f.g 21 ||| place f.h 18

/-- The fields of `FormH0` as they stand in a word. -/
def FormH0.ofWord (w : Insn) : FormH0 :=
  { g := fld w 21 4, h := fld w 18 3 }

/-- The word bits of the fields of `FormVA`. -/
def FormVA.bits (f : FormVA) : Insn :=
  place f.g 21 ||| place f.m 18 ||| place f.d 12 ||| place f.a 6 ||| place f.b 0

/-- The fields of `FormVA` as they stand in a word. -/
def FormVA.ofWord (w : Insn) : FormVA :=
  { g := fld w 21 4, m := fld w 18 3, d := fld w 12 6, a := fld w 6 6, b := fld w 0 6 }

/-- The word bits of the fields of `FormVU`. -/
def FormVU.bits (f : FormVU) : Insn :=
  place f.g 21 ||| place f.m 18 ||| place f.d 12 ||| place f.a 6

/-- The fields of `FormVU` as they stand in a word. -/
def FormVU.ofWord (w : Insn) : FormVU :=
  { g := fld w 21 4, m := fld w 18 3, d := fld w 12 6, a := fld w 6 6 }

/-- The word bits of the fields of `FormVK`. -/
def FormVK.bits (f : FormVK) : Insn :=
  place f.g 21 ||| place f.m 18 ||| place f.a 6 ||| place f.b 0

/-- The fields of `FormVK` as they stand in a word. -/
def FormVK.ofWord (w : Insn) : FormVK :=
  { g := fld w 21 4, m := fld w 18 3, a := fld w 6 6, b := fld w 0 6 }

/-- The word bits of the fields of `FormVT`. -/
def FormVT.bits (f : FormVT) : Insn :=
  place f.r 25 ||| place f.g 21 ||| place f.m 18 ||| place f.d 12 ||| place f.a 6 ||| place f.pair 1 ||| placeB f.sat 0

/-- The fields of `FormVT` as they stand in a word. -/
def FormVT.ofWord (w : Insn) : FormVT :=
  { r := fld w 25 2, g := fld w 21 4, m := fld w 18 3, d := fld w 12 6, a := fld w 6 6, pair := fld w 1 5, sat := w.getLsbD 0 }

/-- The word bits of the fields of `FormVF`. -/
def FormVF.bits (f : FormVF) : Insn :=
  place f.t 25 ||| place f.g 21 ||| place f.m 18 ||| place f.d 12 ||| place f.a 6 ||| place f.b 0

/-- The fields of `FormVF` as they stand in a word. -/
def FormVF.ofWord (w : Insn) : FormVF :=
  { t := fld w 25 2, g := fld w 21 4, m := fld w 18 3, d := fld w 12 6, a := fld w 6 6, b := fld w 0 6 }

/-- The word bits of the fields of `FormVC`. -/
def FormVC.bits (f : FormVC) : Insn :=
  place f.g 21 ||| place f.m 18 ||| place f.cond 15 ||| place f.j 12 ||| place f.a 6 ||| place f.b 0

/-- The fields of `FormVC` as they stand in a word. -/
def FormVC.ofWord (w : Insn) : FormVC :=
  { g := fld w 21 4, m := fld w 18 3, cond := fld w 15 3, j := fld w 12 2, a := fld w 6 6, b := fld w 0 6 }

/-- The word bits of the fields of `FormVFC`. -/
def FormVFC.bits (f : FormVFC) : Insn :=
  place f.t 25 ||| place f.g 21 ||| place f.m 18 ||| place f.cond 15 ||| place f.j 12 ||| place f.a 6 ||| place f.b 0

/-- The fields of `FormVFC` as they stand in a word. -/
def FormVFC.ofWord (w : Insn) : FormVFC :=
  { t := fld w 25 2, g := fld w 21 4, m := fld w 18 3, cond := fld w 15 3, j := fld w 12 2, a := fld w 6 6, b := fld w 0 6 }

/-- The word bits of the fields of `FormXN`. -/
def FormXN.bits (f : FormXN) : Insn :=
  place f.g 21 ||| place f.f 18 ||| place f.sel 12 ||| place f.a 6

/-- The fields of `FormXN` as they stand in a word. -/
def FormXN.ofWord (w : Insn) : FormXN :=
  { g := fld w 21 4, f := fld w 18 3, sel := fld w 12 6, a := fld w 6 6 }

/-- The word bits of the fields of `FormXB`. -/
def FormXB.bits (f : FormXB) : Insn :=
  place f.g 21 ||| place f.sel 12 ||| place f.a 6

/-- The fields of `FormXB` as they stand in a word. -/
def FormXB.ofWord (w : Insn) : FormXB :=
  { g := fld w 21 4, sel := fld w 12 6, a := fld w 6 6 }

/-- The word bits of the fields of `FormXA`. -/
def FormXA.bits (f : FormXA) : Insn :=
  place f.g 21 ||| place f.a 6

/-- The fields of `FormXA` as they stand in a word. -/
def FormXA.ofWord (w : Insn) : FormXA :=
  { g := fld w 21 4, a := fld w 6 6 }

/-- The word bits of the fields of `FormXS`. -/
def FormXS.bits (f : FormXS) : Insn :=
  place f.g 21 ||| place f.sel 12

/-- The fields of `FormXS` as they stand in a word. -/
def FormXS.ofWord (w : Insn) : FormXS :=
  { g := fld w 21 4, sel := fld w 12 6 }

/-- The word bits of the fields of `FormXF`. -/
def FormXF.bits (f : FormXF) : Insn :=
  place f.g 21 ||| place f.f 18 ||| place f.sel 12

/-- The fields of `FormXF` as they stand in a word. -/
def FormXF.ofWord (w : Insn) : FormXF :=
  { g := fld w 21 4, f := fld w 18 3, sel := fld w 12 6 }

/-- The word bits of the fields of `FormSG`. -/
def FormSG.bits (f : FormSG) : Insn :=
  place f.g 21 ||| place f.hi 19 ||| place f.a 6 ||| place f.b 0

/-- The fields of `FormSG` as they stand in a word. -/
def FormSG.ofWord (w : Insn) : FormSG :=
  { g := fld w 21 4, hi := fld w 19 2, a := fld w 6 6, b := fld w 0 6 }

/-- The word of a slot operation (05 Tables 5.4, 5.7, 5.9); an event has no word, and zero stands for it. -/
def encode : Instr → Insn
  | .nop => 0
  | .mov f => 0x0200003F#32 ||| f.bits
  | .add f => 0x04000000#32 ||| f.bits
  | .sub f => 0x06000000#32 ||| f.bits
  | .addo f => 0x08000000#32 ||| f.bits
  | .addc f => 0x0A000000#32 ||| f.bits
  | .subo f => 0x0C000000#32 ||| f.bits
  | .subc f => 0x0E000000#32 ||| f.bits
  | .mul f => 0x10000000#32 ||| f.bits
  | .mulhS64 f => 0x12000000#32 ||| f.bits
  | .mulhZ64 f => 0x14000000#32 ||| f.bits
  | .divS64 f => 0x16000000#32 ||| f.bits
  | .divZ64 f => 0x18000000#32 ||| f.bits
  | .remS64 f => 0x1A000000#32 ||| f.bits
  | .remZ64 f => 0x1C000000#32 ||| f.bits
  | .minS64 f => 0x1E000000#32 ||| f.bits
  | .minZ64 f => 0x20000000#32 ||| f.bits
  | .maxS64 f => 0x22000000#32 ||| f.bits
  | .maxZ64 f => 0x24000000#32 ||| f.bits
  | .andOp f => 0x26000000#32 ||| f.bits
  | .orOp f => 0x28000000#32 ||| f.bits
  | .xorOp f => 0x2A000000#32 ||| f.bits
  | .andn f => 0x2C000000#32 ||| f.bits
  | .shl f => 0x2E000000#32 ||| f.bits
  | .shrZ64 f => 0x30000000#32 ||| f.bits
  | .shrS64 f => 0x32000000#32 ||| f.bits
  | .rotl f => 0x34000000#32 ||| f.bits
  | .rotr f => 0x36000000#32 ||| f.bits
  | .clz f => 0x3800003F#32 ||| f.bits
  | .ctz f => 0x3A00003F#32 ||| f.bits
  | .popc f => 0x3C00003F#32 ||| f.bits
  | .brev f => 0x3E00003F#32 ||| f.bits
  | .bswap f => 0x4000003F#32 ||| f.bits
  | .bfextS64 f => 0x42000000#32 ||| f.bits
  | .bfextZ64 f => 0x44000000#32 ||| f.bits
  | .bfins f => 0x46000000#32 ||| f.bits
  | .clmul f => 0x48000000#32 ||| f.bits
  | .clmulh f => 0x4A000000#32 ||| f.bits
  | .cmpS64 f => 0x4C000000#32 ||| f.bits
  | .cmpZ64 f => 0x4E000000#32 ||| f.bits
  | .gdand f => 0x50000000#32 ||| f.bits
  | .gdor f => 0x52000000#32 ||| f.bits
  | .gdxor f => 0x54000000#32 ||| f.bits
  | .sel f => 0x56000000#32 ||| f.bits
  | .lea f => 0x58000000#32 ||| f.bits
  | .tagof f => 0x5A00003F#32 ||| f.bits
  | .dflt f => 0x5C000000#32 ||| f.bits
  | .rdctl f => 0x5E000000#32 ||| f.bits
  | .sxt f => 0x6000003F#32 ||| f.bits
  | .zxt f => 0x6200003F#32 ||| f.bits
  | .prepOffset f => 0x02040000#32 ||| f.bits
  | .prepRegister f => 0x02000000#32 ||| f.bits
  | .br f => 0x04000000#32 ||| f.bits
  | .call f => 0x06000000#32 ||| f.bits
  | .ret f => 0x08000000#32 ||| f.bits
  | .loop f => 0x0A000000#32 ||| f.bits
  | .lbrk f => 0x0C000000#32 ||| f.bits
  | .semwImmediate f => 0x0E004000#32 ||| f.bits
  | .semwRegister f => 0x0E000000#32 ||| f.bits
  | .waitw f => 0x10000000#32 ||| f.bits
  | .stepMark f => 0x12000000#32 ||| f.bits
  | .brk f => 0x14000000#32 ||| f.bits
  | .trap f => 0x16000000#32 ||| f.bits
  | .sys f => 0x18000000#32 ||| f.bits
  | .endItem f => 0x1A000000#32 ||| f.bits
  | .chkctl f => 0x1C000000#32 ||| f.bits
  | .dblctl f => 0x1E000000#32 ||| f.bits
  | .ctrap f => 0x20000000#32 ||| f.bits
  | .commit f => 0x22000000#32 ||| f.bits
  | .wrctl f => 0x30000000#32 ||| f.bits
  | .setctl f => 0x32000000#32 ||| f.bits
  | .clrctl f => 0x34000000#32 ||| f.bits
  | .rft f => 0x36000000#32 ||| f.bits
  | .xlinv f => 0x38000000#32 ||| f.bits
  | .ctxsave f => 0x3A000000#32 ||| f.bits
  | .ctxload f => 0x3C000000#32 ||| f.bits
  | .ldS8 f => 0x02000000#32 ||| f.bits
  | .ldZ8 f => 0x04000000#32 ||| f.bits
  | .ldS16 f => 0x06000000#32 ||| f.bits
  | .ldZ16 f => 0x08000000#32 ||| f.bits
  | .ldS32 f => 0x0A000000#32 ||| f.bits
  | .ldZ32 f => 0x0C000000#32 ||| f.bits
  | .ldZ64 f => 0x0E000000#32 ||| f.bits
  | .stZ8 f => 0x10000000#32 ||| f.bits
  | .stZ16 f => 0x12000000#32 ||| f.bits
  | .stZ32 f => 0x14000000#32 ||| f.bits
  | .stZ64 f => 0x16000000#32 ||| f.bits
  | .vld f => 0x18000000#32 ||| f.bits
  | .vst f => 0x1A000000#32 ||| f.bits
  | .vlds f => 0x1C000000#32 ||| f.bits
  | .vsts f => 0x1E000000#32 ||| f.bits
  | .vldx f => 0x20000000#32 ||| f.bits
  | .vstx f => 0x22000000#32 ||| f.bits
  | .vldr f => 0x24000000#32 ||| f.bits
  | .hbind f => 0x2603F03F#32 ||| f.bits
  | .hunbind f => 0x2803FFFF#32 ||| f.bits
  | .ladd f => 0x2A000000#32 ||| f.bits
  | .lminS64 f => 0x2C000000#32 ||| f.bits
  | .lminZ64 f => 0x2E000000#32 ||| f.bits
  | .lmaxS64 f => 0x30000000#32 ||| f.bits
  | .lmaxZ64 f => 0x32000000#32 ||| f.bits
  | .lxch f => 0x34000000#32 ||| f.bits
  | .lcas f => 0x36000000#32 ||| f.bits
  | .vmov f => 0x0200003F#32 ||| f.bits
  | .vsel f => 0x04000000#32 ||| f.bits
  | .vchk f => 0x0603F000#32 ||| f.bits
  | .vcvt f => 0x08000000#32 ||| f.bits
  | .vand f => 0x10000000#32 ||| f.bits
  | .vor f => 0x12000000#32 ||| f.bits
  | .vxor f => 0x14000000#32 ||| f.bits
  | .vshl f => 0x16000000#32 ||| f.bits
  | .vshrZ32 f => 0x18000000#32 ||| f.bits
  | .vshrS32 f => 0x1A000000#32 ||| f.bits
  | .vperm f => 0x1C000000#32 ||| f.bits
  | .vbcast f => 0x1E000000#32 ||| f.bits
  | .vaddS32 f => 0x20000000#32 ||| f.bits
  | .vsubS32 f => 0x22000000#32 ||| f.bits
  | .vmulS32 f => 0x24000000#32 ||| f.bits
  | .vaddsS32 f => 0x26000000#32 ||| f.bits
  | .vminS32 f => 0x28000000#32 ||| f.bits
  | .vminZ32 f => 0x2A000000#32 ||| f.bits
  | .vmaxS32 f => 0x2C000000#32 ||| f.bits
  | .vmaxZ32 f => 0x2E000000#32 ||| f.bits
  | .vcmpS32 f => 0x30000000#32 ||| f.bits
  | .vcmpZ32 f => 0x32000000#32 ||| f.bits
  | .vext f => 0x34000000#32 ||| f.bits
  | .vins f => 0x36000000#32 ||| f.bits
  | .vrcpF32 f => 0x3800003F#32 ||| f.bits
  | .vrsqF32 f => 0x3A00003F#32 ||| f.bits
  | .vitpF32 f => 0x3C000000#32 ||| f.bits
  | .vitpBf16 f => 0x3E000000#32 ||| f.bits
  | .vaddF f => 0x80000000#32 ||| f.bits
  | .vsubF f => 0x88000000#32 ||| f.bits
  | .vmulF f => 0x90000000#32 ||| f.bits
  | .vfma f => 0x98000000#32 ||| f.bits
  | .vfnma f => 0xA0000000#32 ||| f.bits
  | .vminF f => 0xA8000000#32 ||| f.bits
  | .vmaxF f => 0xB0000000#32 ||| f.bits
  | .vcmpF f => 0xB8000000#32 ||| f.bits
  | .vssum f => 0xC0000000#32 ||| f.bits
  | .vsmin f => 0xC2000000#32 ||| f.bits
  | .vsmax f => 0xC4000000#32 ||| f.bits
  | .vsscan f => 0xC6000000#32 ||| f.bits
  | .vsmean f => 0xC8000000#32 ||| f.bits
  | .vsvar f => 0xCA000000#32 ||| f.bits
  | .vssmx f => 0xCC000000#32 ||| f.bits
  | .xnest f => 0x0200003F#32 ||| f.bits
  | .xbase f => 0x0400003F#32 ||| f.bits
  | .xfmt f => 0x0600003F#32 ||| f.bits
  | .xsrc f => 0x08000FFF#32 ||| f.bits
  | .xbmp f => 0x0A00003F#32 ||| f.bits
  | .xsdiag f => 0x0C000FFF#32 ||| f.bits
  | .xzero f => 0x0E00003F#32 ||| f.bits
  | .xgo f => 0x10000FFF#32 ||| f.bits
  | .xdrain f => 0x12000000#32 ||| f.bits
  | .xwait f => 0x14000FFF#32 ||| f.bits
  | .xstat f => 0x16000FFF#32 ||| f.bits
  | .sbind f => 0x0203F03F#32 ||| f.bits
  | .sunbind f => 0x0403FFFF#32 ||| f.bits
  | .gpush f => 0x0603F03F#32 ||| f.bits
  | .copy f => 0x0803F000#32 ||| f.bits
  | .send f => 0x0A03F000#32 ||| f.bits
  | .rsend f => 0x0C03F03F#32 ||| f.bits
  | .ssig f => 0x0E03F000#32 ||| f.bits
  | .ssigR f => 0x0E07F000#32 ||| f.bits
  | .sinit f => 0x1003F000#32 ||| f.bits
  | .sread f => 0x1200003F#32 ||| f.bits
  | .aadd f => 0x14000000#32 ||| f.bits
  | .aminS64 f => 0x16000000#32 ||| f.bits
  | .aminZ64 f => 0x18000000#32 ||| f.bits
  | .amaxS64 f => 0x1A000000#32 ||| f.bits
  | .amaxZ64 f => 0x1C000000#32 ||| f.bits
  | .aand f => 0x1E000000#32 ||| f.bits
  | .aor f => 0x20000000#32 ||| f.bits
  | .axor f => 0x22000000#32 ||| f.bits
  | .axch f => 0x24000000#32 ||| f.bits
  | .acas f => 0x26000000#32 ||| f.bits
  | .afaddF32 f => 0x28000000#32 ||| f.bits
  | .afaddBf16 f => 0x2A000000#32 ||| f.bits
  | .fence f => 0x2C03F03F#32 ||| f.bits
  | .launch f => 0x2E03F03F#32 ||| f.bits
  | .pref f => 0x3003F03F#32 ||| f.bits
  | .ectlBayout f => 0x3203F000#32 ||| f.bits
  | .ectlBayin f => 0x3207F000#32 ||| f.bits
  | .ectlSpout f => 0x320BF000#32 ||| f.bits
  | .ectlSpin f => 0x320FF000#32 ||| f.bits
  | .ectlAccout f => 0x3213F000#32 ||| f.bits
  | .ectlAccin f => 0x3217F000#32 ||| f.bits
  | .ectlKill f => 0x321BF000#32 ||| f.bits
  | .bundleIssue => 0
  | .waitCycle => 0
  | .bubbleCycle => 0
  | .waitwDeadline => 0
  | .resultArrival => 0
  | .engineCommandPresentation => 0
  | .denseMatrixCycle => 0
  | .matrixBlockZero => 0
  | .drainRowWrite => 0
  | .sparseMatrixStart => 0
  | .sparseMatrixComplete => 0
  | .streamElementFill _ _ => 0
  | .streamElementDrain _ _ => 0
  | .globalRequestPerform _ _ => 0
  | .transferCompletion _ _ => 0
  | .semaphoreSignalArrival _ => 0
  | .globalAtomicPerform _ _ => 0
  | .segmentEntry => 0
  | .segmentRewind => 0
  | .deciderVerdict => 0
  | .trapTaken => 0
  | .semaphoreWaitWatchdog => 0
  | .debugStop => 0
  | .translationMiss _ _ => 0
  | .translationWalkComplete _ _ => 0
  | .walkFill _ _ => 0
  | .walkData => 0
  | .engineFault _ _ => 0
  | .efResume _ _ => 0
  | .xlShoot _ _ => 0
  | .xlShootDone _ => 0
  | .homeDieRequest _ _ => 0
  | .migrationComplete => 0
  | .migCmd _ _ => 0
  | .migDecayHalving _ _ => 0
  | .frameSet _ _ => 0
  | .freePush _ _ => 0
  | .refuseLog => 0
  | .signalLog => 0
  | .resumeWrite _ _ => 0
  | .qtail _ _ _ => 0
  | .launchAccept => 0
  | .sumpAdmit => 0
  | .launchEligible => 0
  | .gangPlacement => 0
  | .runResident => 0
  | .gangStart => 0
  | .workItemComplete => 0
  | .launchCompletion _ => 0
  | .gateSig _ _ => 0
  | .gateInit _ _ => 0
  | .preempt _ _ => 0
  | .kill _ _ => 0
  | .sliceExpiry => 0
  | .gangPreemption => 0
  | .contextSaveDone => 0
  | .ectlTransferComplete => 0
  | .gangRestore => 0
  | .modeSet _ _ => 0
  | .hset _ _ => 0
  | .quarantine _ _ => 0
  | .governorThresholds _ _ _ => 0
  | .marginMeasurement => 0
  | .resetCmd _ => 0
  | .resetDone => 0
  | .linkFailure _ _ => 0
  | .dieFailure => 0
  | .galleryDieLoss => 0
  | .thermalTrip => 0
  | .rsendContribution _ => 0
  | .groupCfg _ => 0
  | .hsumpDone _ _ => 0
  | .hostMemWrite _ _ => 0
  | .hostMemRead _ _ => 0
  | .windowRegisterWrite _ _ _ => 0
  | .ringTail _ _ => 0
  | .errTail _ _ => 0
  | .surveyReportWrite => 0
  | .dbgStopTile _ _ => 0
  | .dbgReleaseTile _ _ => 0
  | .dbgSingleIssue _ _ => 0
  | .dbgHaltDie _ _ => 0
  | .dbgReleaseDie _ _ => 0
  | .dbgDump _ _ => 0
  | .dbgPatch _ _ => 0
  | .divergenceHash _ => 0
  | .divergedClear _ => 0
  | .powerOn => 0
  | .serviceCommand _ => 0
  | .attestationRequest _ => 0
  | .powerCap _ => 0
  | .engineHardError _ => 0
  | .partitionCreate _ _ => 0
  | .junctionThrottle _ _ => 0
  | .wallTimeDiscipline _ => 0
  | .ualinkPortState _ _ _ => 0

/-- The kinds of slot, each with an opcode space of its own (R138). -/
inductive SlotKind where
  | S | C | M | V | X | Q
  deriving DecidableEq, Repr, Inhabited

/-- The kind of slot an operation stands in; nop stands in every one, and an event in none. -/
def Instr.kind : Instr → Option SlotKind
  | .nop => none
  | .mov _ => some .S
  | .add _ => some .S
  | .sub _ => some .S
  | .addo _ => some .S
  | .addc _ => some .S
  | .subo _ => some .S
  | .subc _ => some .S
  | .mul _ => some .S
  | .mulhS64 _ => some .S
  | .mulhZ64 _ => some .S
  | .divS64 _ => some .S
  | .divZ64 _ => some .S
  | .remS64 _ => some .S
  | .remZ64 _ => some .S
  | .minS64 _ => some .S
  | .minZ64 _ => some .S
  | .maxS64 _ => some .S
  | .maxZ64 _ => some .S
  | .andOp _ => some .S
  | .orOp _ => some .S
  | .xorOp _ => some .S
  | .andn _ => some .S
  | .shl _ => some .S
  | .shrZ64 _ => some .S
  | .shrS64 _ => some .S
  | .rotl _ => some .S
  | .rotr _ => some .S
  | .clz _ => some .S
  | .ctz _ => some .S
  | .popc _ => some .S
  | .brev _ => some .S
  | .bswap _ => some .S
  | .bfextS64 _ => some .S
  | .bfextZ64 _ => some .S
  | .bfins _ => some .S
  | .clmul _ => some .S
  | .clmulh _ => some .S
  | .cmpS64 _ => some .S
  | .cmpZ64 _ => some .S
  | .gdand _ => some .S
  | .gdor _ => some .S
  | .gdxor _ => some .S
  | .sel _ => some .S
  | .lea _ => some .S
  | .tagof _ => some .S
  | .dflt _ => some .S
  | .rdctl _ => some .S
  | .sxt _ => some .S
  | .zxt _ => some .S
  | .prepOffset _ => some .C
  | .prepRegister _ => some .C
  | .br _ => some .C
  | .call _ => some .C
  | .ret _ => some .C
  | .loop _ => some .C
  | .lbrk _ => some .C
  | .semwImmediate _ => some .C
  | .semwRegister _ => some .C
  | .waitw _ => some .C
  | .stepMark _ => some .C
  | .brk _ => some .C
  | .trap _ => some .C
  | .sys _ => some .C
  | .endItem _ => some .C
  | .chkctl _ => some .C
  | .dblctl _ => some .C
  | .ctrap _ => some .C
  | .commit _ => some .C
  | .wrctl _ => some .C
  | .setctl _ => some .C
  | .clrctl _ => some .C
  | .rft _ => some .C
  | .xlinv _ => some .C
  | .ctxsave _ => some .C
  | .ctxload _ => some .C
  | .ldS8 _ => some .M
  | .ldZ8 _ => some .M
  | .ldS16 _ => some .M
  | .ldZ16 _ => some .M
  | .ldS32 _ => some .M
  | .ldZ32 _ => some .M
  | .ldZ64 _ => some .M
  | .stZ8 _ => some .M
  | .stZ16 _ => some .M
  | .stZ32 _ => some .M
  | .stZ64 _ => some .M
  | .vld _ => some .M
  | .vst _ => some .M
  | .vlds _ => some .M
  | .vsts _ => some .M
  | .vldx _ => some .M
  | .vstx _ => some .M
  | .vldr _ => some .M
  | .hbind _ => some .M
  | .hunbind _ => some .M
  | .ladd _ => some .M
  | .lminS64 _ => some .M
  | .lminZ64 _ => some .M
  | .lmaxS64 _ => some .M
  | .lmaxZ64 _ => some .M
  | .lxch _ => some .M
  | .lcas _ => some .M
  | .vmov _ => some .V
  | .vsel _ => some .V
  | .vchk _ => some .V
  | .vcvt _ => some .V
  | .vand _ => some .V
  | .vor _ => some .V
  | .vxor _ => some .V
  | .vshl _ => some .V
  | .vshrZ32 _ => some .V
  | .vshrS32 _ => some .V
  | .vperm _ => some .V
  | .vbcast _ => some .V
  | .vaddS32 _ => some .V
  | .vsubS32 _ => some .V
  | .vmulS32 _ => some .V
  | .vaddsS32 _ => some .V
  | .vminS32 _ => some .V
  | .vminZ32 _ => some .V
  | .vmaxS32 _ => some .V
  | .vmaxZ32 _ => some .V
  | .vcmpS32 _ => some .V
  | .vcmpZ32 _ => some .V
  | .vext _ => some .V
  | .vins _ => some .V
  | .vrcpF32 _ => some .V
  | .vrsqF32 _ => some .V
  | .vitpF32 _ => some .V
  | .vitpBf16 _ => some .V
  | .vaddF _ => some .V
  | .vsubF _ => some .V
  | .vmulF _ => some .V
  | .vfma _ => some .V
  | .vfnma _ => some .V
  | .vminF _ => some .V
  | .vmaxF _ => some .V
  | .vcmpF _ => some .V
  | .vssum _ => some .V
  | .vsmin _ => some .V
  | .vsmax _ => some .V
  | .vsscan _ => some .V
  | .vsmean _ => some .V
  | .vsvar _ => some .V
  | .vssmx _ => some .V
  | .xnest _ => some .X
  | .xbase _ => some .X
  | .xfmt _ => some .X
  | .xsrc _ => some .X
  | .xbmp _ => some .X
  | .xsdiag _ => some .X
  | .xzero _ => some .X
  | .xgo _ => some .X
  | .xdrain _ => some .X
  | .xwait _ => some .X
  | .xstat _ => some .X
  | .sbind _ => some .Q
  | .sunbind _ => some .Q
  | .gpush _ => some .Q
  | .copy _ => some .Q
  | .send _ => some .Q
  | .rsend _ => some .Q
  | .ssig _ => some .Q
  | .ssigR _ => some .Q
  | .sinit _ => some .Q
  | .sread _ => some .Q
  | .aadd _ => some .Q
  | .aminS64 _ => some .Q
  | .aminZ64 _ => some .Q
  | .amaxS64 _ => some .Q
  | .amaxZ64 _ => some .Q
  | .aand _ => some .Q
  | .aor _ => some .Q
  | .axor _ => some .Q
  | .axch _ => some .Q
  | .acas _ => some .Q
  | .afaddF32 _ => some .Q
  | .afaddBf16 _ => some .Q
  | .fence _ => some .Q
  | .launch _ => some .Q
  | .pref _ => some .Q
  | .ectlBayout _ => some .Q
  | .ectlBayin _ => some .Q
  | .ectlSpout _ => some .Q
  | .ectlSpin _ => some .Q
  | .ectlAccout _ => some .Q
  | .ectlAccin _ => some .Q
  | .ectlKill _ => some .Q
  | .bundleIssue => none
  | .waitCycle => none
  | .bubbleCycle => none
  | .waitwDeadline => none
  | .resultArrival => none
  | .engineCommandPresentation => none
  | .denseMatrixCycle => none
  | .matrixBlockZero => none
  | .drainRowWrite => none
  | .sparseMatrixStart => none
  | .sparseMatrixComplete => none
  | .streamElementFill _ _ => none
  | .streamElementDrain _ _ => none
  | .globalRequestPerform _ _ => none
  | .transferCompletion _ _ => none
  | .semaphoreSignalArrival _ => none
  | .globalAtomicPerform _ _ => none
  | .segmentEntry => none
  | .segmentRewind => none
  | .deciderVerdict => none
  | .trapTaken => none
  | .semaphoreWaitWatchdog => none
  | .debugStop => none
  | .translationMiss _ _ => none
  | .translationWalkComplete _ _ => none
  | .walkFill _ _ => none
  | .walkData => none
  | .engineFault _ _ => none
  | .efResume _ _ => none
  | .xlShoot _ _ => none
  | .xlShootDone _ => none
  | .homeDieRequest _ _ => none
  | .migrationComplete => none
  | .migCmd _ _ => none
  | .migDecayHalving _ _ => none
  | .frameSet _ _ => none
  | .freePush _ _ => none
  | .refuseLog => none
  | .signalLog => none
  | .resumeWrite _ _ => none
  | .qtail _ _ _ => none
  | .launchAccept => none
  | .sumpAdmit => none
  | .launchEligible => none
  | .gangPlacement => none
  | .runResident => none
  | .gangStart => none
  | .workItemComplete => none
  | .launchCompletion _ => none
  | .gateSig _ _ => none
  | .gateInit _ _ => none
  | .preempt _ _ => none
  | .kill _ _ => none
  | .sliceExpiry => none
  | .gangPreemption => none
  | .contextSaveDone => none
  | .ectlTransferComplete => none
  | .gangRestore => none
  | .modeSet _ _ => none
  | .hset _ _ => none
  | .quarantine _ _ => none
  | .governorThresholds _ _ _ => none
  | .marginMeasurement => none
  | .resetCmd _ => none
  | .resetDone => none
  | .linkFailure _ _ => none
  | .dieFailure => none
  | .galleryDieLoss => none
  | .thermalTrip => none
  | .rsendContribution _ => none
  | .groupCfg _ => none
  | .hsumpDone _ _ => none
  | .hostMemWrite _ _ => none
  | .hostMemRead _ _ => none
  | .windowRegisterWrite _ _ _ => none
  | .ringTail _ _ => none
  | .errTail _ _ => none
  | .surveyReportWrite => none
  | .dbgStopTile _ _ => none
  | .dbgReleaseTile _ _ => none
  | .dbgSingleIssue _ _ => none
  | .dbgHaltDie _ _ => none
  | .dbgReleaseDie _ _ => none
  | .dbgDump _ _ => none
  | .dbgPatch _ _ => none
  | .divergenceHash _ => none
  | .divergedClear _ => none
  | .powerOn => none
  | .serviceCommand _ => none
  | .attestationRequest _ => none
  | .powerCap _ => none
  | .engineHardError _ => none
  | .partitionCreate _ _ => none
  | .junctionThrottle _ _ => none
  | .wallTimeDiscipline _ => none
  | .ualinkPortState _ _ _ => none

/-- Whether a constructor is a slot operation (rows 91 to 279 of the opcode table). -/
def Instr.isSlot : Instr → Bool
  | .nop => true
  | i => i.kind.isSome

/-- The operation that the major opcode of a word names in a slot of kind S (05 Tables 5.7, 5.9), its
fields read where the format has them; `none` for an unassigned opcode. -/
def candidateS (w : Insn) : Option Instr :=
  match bitsNat w 31 25 with
  | 0x00 => some .nop
  | 0x01 => some (.mov (.ofWord w))
  | 0x02 => some (.add (.ofWord w))
  | 0x03 => some (.sub (.ofWord w))
  | 0x04 => some (.addo (.ofWord w))
  | 0x05 => some (.addc (.ofWord w))
  | 0x06 => some (.subo (.ofWord w))
  | 0x07 => some (.subc (.ofWord w))
  | 0x08 => some (.mul (.ofWord w))
  | 0x09 => some (.mulhS64 (.ofWord w))
  | 0x0A => some (.mulhZ64 (.ofWord w))
  | 0x0B => some (.divS64 (.ofWord w))
  | 0x0C => some (.divZ64 (.ofWord w))
  | 0x0D => some (.remS64 (.ofWord w))
  | 0x0E => some (.remZ64 (.ofWord w))
  | 0x0F => some (.minS64 (.ofWord w))
  | 0x10 => some (.minZ64 (.ofWord w))
  | 0x11 => some (.maxS64 (.ofWord w))
  | 0x12 => some (.maxZ64 (.ofWord w))
  | 0x13 => some (.andOp (.ofWord w))
  | 0x14 => some (.orOp (.ofWord w))
  | 0x15 => some (.xorOp (.ofWord w))
  | 0x16 => some (.andn (.ofWord w))
  | 0x17 => some (.shl (.ofWord w))
  | 0x18 => some (.shrZ64 (.ofWord w))
  | 0x19 => some (.shrS64 (.ofWord w))
  | 0x1A => some (.rotl (.ofWord w))
  | 0x1B => some (.rotr (.ofWord w))
  | 0x1C => some (.clz (.ofWord w))
  | 0x1D => some (.ctz (.ofWord w))
  | 0x1E => some (.popc (.ofWord w))
  | 0x1F => some (.brev (.ofWord w))
  | 0x20 => some (.bswap (.ofWord w))
  | 0x21 => some (.bfextS64 (.ofWord w))
  | 0x22 => some (.bfextZ64 (.ofWord w))
  | 0x23 => some (.bfins (.ofWord w))
  | 0x24 => some (.clmul (.ofWord w))
  | 0x25 => some (.clmulh (.ofWord w))
  | 0x26 => some (.cmpS64 (.ofWord w))
  | 0x27 => some (.cmpZ64 (.ofWord w))
  | 0x28 => some (.gdand (.ofWord w))
  | 0x29 => some (.gdor (.ofWord w))
  | 0x2A => some (.gdxor (.ofWord w))
  | 0x2B => some (.sel (.ofWord w))
  | 0x2C => some (.lea (.ofWord w))
  | 0x2D => some (.tagof (.ofWord w))
  | 0x2E => some (.dflt (.ofWord w))
  | 0x2F => some (.rdctl (.ofWord w))
  | 0x30 => some (.sxt (.ofWord w))
  | 0x31 => some (.zxt (.ofWord w))
  | _ => none

/-- The operation that the major opcode of a word names in a slot of kind C (05 Tables 5.7, 5.9), its
fields read where the format has them; `none` for an unassigned opcode. -/
def candidateC (w : Insn) : Option Instr :=
  match bitsNat w 31 25 with
  | 0x00 => some .nop
  | 0x01 => if w.getLsbD 18 then some (.prepOffset (.ofWord w)) else some (.prepRegister (.ofWord w))
  | 0x02 => some (.br (.ofWord w))
  | 0x03 => some (.call (.ofWord w))
  | 0x04 => some (.ret (.ofWord w))
  | 0x05 => some (.loop (.ofWord w))
  | 0x06 => some (.lbrk (.ofWord w))
  | 0x07 => if w.getLsbD 14 then some (.semwImmediate (.ofWord w)) else some (.semwRegister (.ofWord w))
  | 0x08 => some (.waitw (.ofWord w))
  | 0x09 => some (.stepMark (.ofWord w))
  | 0x0A => some (.brk (.ofWord w))
  | 0x0B => some (.trap (.ofWord w))
  | 0x0C => some (.sys (.ofWord w))
  | 0x0D => some (.endItem (.ofWord w))
  | 0x0E => some (.chkctl (.ofWord w))
  | 0x0F => some (.dblctl (.ofWord w))
  | 0x10 => some (.ctrap (.ofWord w))
  | 0x11 => some (.commit (.ofWord w))
  | 0x18 => some (.wrctl (.ofWord w))
  | 0x19 => some (.setctl (.ofWord w))
  | 0x1A => some (.clrctl (.ofWord w))
  | 0x1B => some (.rft (.ofWord w))
  | 0x1C => some (.xlinv (.ofWord w))
  | 0x1D => some (.ctxsave (.ofWord w))
  | 0x1E => some (.ctxload (.ofWord w))
  | _ => none

/-- The operation that the major opcode of a word names in a slot of kind M (05 Tables 5.7, 5.9), its
fields read where the format has them; `none` for an unassigned opcode. -/
def candidateM (w : Insn) : Option Instr :=
  match bitsNat w 31 25 with
  | 0x00 => some .nop
  | 0x01 => some (.ldS8 (.ofWord w))
  | 0x02 => some (.ldZ8 (.ofWord w))
  | 0x03 => some (.ldS16 (.ofWord w))
  | 0x04 => some (.ldZ16 (.ofWord w))
  | 0x05 => some (.ldS32 (.ofWord w))
  | 0x06 => some (.ldZ32 (.ofWord w))
  | 0x07 => some (.ldZ64 (.ofWord w))
  | 0x08 => some (.stZ8 (.ofWord w))
  | 0x09 => some (.stZ16 (.ofWord w))
  | 0x0A => some (.stZ32 (.ofWord w))
  | 0x0B => some (.stZ64 (.ofWord w))
  | 0x0C => some (.vld (.ofWord w))
  | 0x0D => some (.vst (.ofWord w))
  | 0x0E => some (.vlds (.ofWord w))
  | 0x0F => some (.vsts (.ofWord w))
  | 0x10 => some (.vldx (.ofWord w))
  | 0x11 => some (.vstx (.ofWord w))
  | 0x12 => some (.vldr (.ofWord w))
  | 0x13 => some (.hbind (.ofWord w))
  | 0x14 => some (.hunbind (.ofWord w))
  | 0x15 => some (.ladd (.ofWord w))
  | 0x16 => some (.lminS64 (.ofWord w))
  | 0x17 => some (.lminZ64 (.ofWord w))
  | 0x18 => some (.lmaxS64 (.ofWord w))
  | 0x19 => some (.lmaxZ64 (.ofWord w))
  | 0x1A => some (.lxch (.ofWord w))
  | 0x1B => some (.lcas (.ofWord w))
  | _ => none

/-- The operation that the major opcode of a word names in a slot of kind V (05 Tables 5.7, 5.9), its
fields read where the format has them; `none` for an unassigned opcode. -/
def candidateV (w : Insn) : Option Instr :=
  match bitsNat w 31 25 with
  | 0x00 => some .nop
  | 0x01 => some (.vmov (.ofWord w))
  | 0x02 => some (.vsel (.ofWord w))
  | 0x03 => some (.vchk (.ofWord w))
  | 0x04 => some (.vcvt (.ofWord w))
  | 0x05 => some (.vcvt (.ofWord w))
  | 0x06 => some (.vcvt (.ofWord w))
  | 0x07 => some (.vcvt (.ofWord w))
  | 0x08 => some (.vand (.ofWord w))
  | 0x09 => some (.vor (.ofWord w))
  | 0x0A => some (.vxor (.ofWord w))
  | 0x0B => some (.vshl (.ofWord w))
  | 0x0C => some (.vshrZ32 (.ofWord w))
  | 0x0D => some (.vshrS32 (.ofWord w))
  | 0x0E => some (.vperm (.ofWord w))
  | 0x0F => some (.vbcast (.ofWord w))
  | 0x10 => some (.vaddS32 (.ofWord w))
  | 0x11 => some (.vsubS32 (.ofWord w))
  | 0x12 => some (.vmulS32 (.ofWord w))
  | 0x13 => some (.vaddsS32 (.ofWord w))
  | 0x14 => some (.vminS32 (.ofWord w))
  | 0x15 => some (.vminZ32 (.ofWord w))
  | 0x16 => some (.vmaxS32 (.ofWord w))
  | 0x17 => some (.vmaxZ32 (.ofWord w))
  | 0x18 => some (.vcmpS32 (.ofWord w))
  | 0x19 => some (.vcmpZ32 (.ofWord w))
  | 0x1A => some (.vext (.ofWord w))
  | 0x1B => some (.vins (.ofWord w))
  | 0x1C => some (.vrcpF32 (.ofWord w))
  | 0x1D => some (.vrsqF32 (.ofWord w))
  | 0x1E => some (.vitpF32 (.ofWord w))
  | 0x1F => some (.vitpBf16 (.ofWord w))
  | 0x40 => some (.vaddF (.ofWord w))
  | 0x41 => some (.vaddF (.ofWord w))
  | 0x42 => some (.vaddF (.ofWord w))
  | 0x44 => some (.vsubF (.ofWord w))
  | 0x45 => some (.vsubF (.ofWord w))
  | 0x46 => some (.vsubF (.ofWord w))
  | 0x48 => some (.vmulF (.ofWord w))
  | 0x49 => some (.vmulF (.ofWord w))
  | 0x4A => some (.vmulF (.ofWord w))
  | 0x4C => some (.vfma (.ofWord w))
  | 0x4D => some (.vfma (.ofWord w))
  | 0x4E => some (.vfma (.ofWord w))
  | 0x50 => some (.vfnma (.ofWord w))
  | 0x51 => some (.vfnma (.ofWord w))
  | 0x52 => some (.vfnma (.ofWord w))
  | 0x54 => some (.vminF (.ofWord w))
  | 0x55 => some (.vminF (.ofWord w))
  | 0x56 => some (.vminF (.ofWord w))
  | 0x58 => some (.vmaxF (.ofWord w))
  | 0x59 => some (.vmaxF (.ofWord w))
  | 0x5A => some (.vmaxF (.ofWord w))
  | 0x5C => some (.vcmpF (.ofWord w))
  | 0x5D => some (.vcmpF (.ofWord w))
  | 0x5E => some (.vcmpF (.ofWord w))
  | 0x60 => some (.vssum (.ofWord w))
  | 0x61 => some (.vsmin (.ofWord w))
  | 0x62 => some (.vsmax (.ofWord w))
  | 0x63 => some (.vsscan (.ofWord w))
  | 0x64 => some (.vsmean (.ofWord w))
  | 0x65 => some (.vsvar (.ofWord w))
  | 0x66 => some (.vssmx (.ofWord w))
  | _ => none

/-- The operation that the major opcode of a word names in a slot of kind X (05 Tables 5.7, 5.9), its
fields read where the format has them; `none` for an unassigned opcode. -/
def candidateX (w : Insn) : Option Instr :=
  match bitsNat w 31 25 with
  | 0x00 => some .nop
  | 0x01 => some (.xnest (.ofWord w))
  | 0x02 => some (.xbase (.ofWord w))
  | 0x03 => some (.xfmt (.ofWord w))
  | 0x04 => some (.xsrc (.ofWord w))
  | 0x05 => some (.xbmp (.ofWord w))
  | 0x06 => some (.xsdiag (.ofWord w))
  | 0x07 => some (.xzero (.ofWord w))
  | 0x08 => some (.xgo (.ofWord w))
  | 0x09 => some (.xdrain (.ofWord w))
  | 0x0A => some (.xwait (.ofWord w))
  | 0x0B => some (.xstat (.ofWord w))
  | _ => none

/-- The operation that the major opcode of a word names in a slot of kind Q (05 Tables 5.7, 5.9), its
fields read where the format has them; `none` for an unassigned opcode. -/
def candidateQ (w : Insn) : Option Instr :=
  match bitsNat w 31 25 with
  | 0x00 => some .nop
  | 0x01 => some (.sbind (.ofWord w))
  | 0x02 => some (.sunbind (.ofWord w))
  | 0x03 => some (.gpush (.ofWord w))
  | 0x04 => some (.copy (.ofWord w))
  | 0x05 => some (.send (.ofWord w))
  | 0x06 => some (.rsend (.ofWord w))
  | 0x07 => if w.getLsbD 18 then some (.ssigR (.ofWord w)) else some (.ssig (.ofWord w))
  | 0x08 => some (.sinit (.ofWord w))
  | 0x09 => some (.sread (.ofWord w))
  | 0x0A => some (.aadd (.ofWord w))
  | 0x0B => some (.aminS64 (.ofWord w))
  | 0x0C => some (.aminZ64 (.ofWord w))
  | 0x0D => some (.amaxS64 (.ofWord w))
  | 0x0E => some (.amaxZ64 (.ofWord w))
  | 0x0F => some (.aand (.ofWord w))
  | 0x10 => some (.aor (.ofWord w))
  | 0x11 => some (.axor (.ofWord w))
  | 0x12 => some (.axch (.ofWord w))
  | 0x13 => some (.acas (.ofWord w))
  | 0x14 => some (.afaddF32 (.ofWord w))
  | 0x15 => some (.afaddBf16 (.ofWord w))
  | 0x16 => some (.fence (.ofWord w))
  | 0x17 => some (.launch (.ofWord w))
  | 0x18 => some (.pref (.ofWord w))
  | 0x19 => match bitsNat w 20 18 with
    | 0 => some (.ectlBayout (.ofWord w))
    | 1 => some (.ectlBayin (.ofWord w))
    | 2 => some (.ectlSpout (.ofWord w))
    | 3 => some (.ectlSpin (.ofWord w))
    | 4 => some (.ectlAccout (.ofWord w))
    | 5 => some (.ectlAccin (.ofWord w))
    | _ => some (.ectlKill (.ofWord w))
  | _ => none

/-- The operation that a word names in a slot of the given kind. -/
def candidate : SlotKind → Insn → Option Instr
  | .S, w => candidateS w
  | .C, w => candidateC w
  | .M, w => candidateM w
  | .V, w => candidateV w
  | .X, w => candidateX w
  | .Q, w => candidateQ w

/-- Decode a presented word (R130, R132, R138): the operation, or sub-cause 0x6 for an unassigned major
opcode, 0x7 where a bit that the format fixes differs, 0xA for the unassigned MINOR of ectl (R359). -/
def decodeSlot (k : SlotKind) (w : Insn) : Except Nat Instr :=
  match candidate k w with
  | none => .error 0x6
  | some i =>
    if encode i = w then .ok i
    else if k = .Q ∧ bitsNat w 31 25 = 0x19 ∧ bitsNat w 20 18 = 7 ∧ bitsNat w 17 12 = 63 then .error 0xA
    else .error 0x7

/-- The two operand spaces of 05 Table 5.5. -/
inductive Space where
  | scalar | vector
  deriving DecidableEq, Repr, Inhabited

/-- The role a source field plays: first source, second source, or a D field that is read (R134, R140). -/
inductive Role where
  | A | B | D
  deriving DecidableEq, Repr, Inhabited

/-- A source operand of an operation: its role, its space and its specifier. -/
structure Source where
  role : Role
  space : Space
  spec : BitVec 6
  deriving DecidableEq, Repr, Inhabited

/-- Where the result of an operation goes: nowhere, a destination specifier of a space (63: pushed only),
or an accumulating D field (R134). -/
inductive Dest where
  | none
  | scalar (d : BitVec 6)
  | vector (d : BitVec 6)
  | accScalar (d : BitVec 6)
  | accVector (d : BitVec 6)
  | oldScalar (d : BitVec 6)
  deriving DecidableEq, Repr, Inhabited

/-- The source operands of an operation in the order in which they pop streams: A, B, D (R65, R131, R140).
`ext` says whether the slot receives an extension value, which copy and send look at (R266). -/
def Instr.sources (ext : Bool) : Instr → List Source
  | .mov f | .clz f | .ctz f | .popc f | .brev f | .bswap f | .tagof f | .sxt f | .zxt f | .prepRegister f | .waitw f | .wrctl f | .setctl f | .clrctl f | .xlinv f | .ctxsave f | .ctxload f | .hbind f | .xnest f | .xbase f | .xfmt f | .xzero f | .sbind f | .gpush f | .rsend f | .sread f | .fence f | .launch f | .pref f | .ectlBayout f | .ectlBayin f | .ectlAccout f | .ectlAccin f => [⟨.A, .scalar, f.a⟩]
  | .add f | .sub f | .mul f | .mulhS64 f | .mulhZ64 f | .divS64 f | .divZ64 f | .remS64 f | .remZ64 f | .minS64 f | .minZ64 f | .maxS64 f | .maxZ64 f | .andOp f | .orOp f | .xorOp f | .andn f | .shl f | .shrZ64 f | .shrS64 f | .rotl f | .rotr f | .bfextS64 f | .bfextZ64 f | .clmul f | .clmulh f | .cmpS64 f | .cmpZ64 f | .lea f | .dflt f => ⟨.A, .scalar, f.a⟩ :: (if f.k then [] else [⟨.B, .scalar, f.b⟩])
  | .addo f | .addc f | .subo f | .subc f | .sel f | .ctrap f | .vldr f | .ladd f | .lminS64 f | .lminZ64 f | .lmaxS64 f | .lmaxZ64 f | .lxch f | .xdrain f | .ssig f | .ssigR f | .sinit f | .aadd f | .aminS64 f | .aminZ64 f | .amaxS64 f | .amaxZ64 f | .aand f | .aor f | .axor f | .axch f | .afaddF32 f | .afaddBf16 f | .ectlSpout f | .ectlSpin f => [⟨.A, .scalar, f.a⟩, ⟨.B, .scalar, f.b⟩]
  | .bfins f => ⟨.A, .scalar, f.a⟩ :: ((if f.k then [] else [⟨.B, .scalar, f.b⟩]) ++ [⟨.D, .scalar, f.d⟩])
  | .loop f => if f.k then [] else [⟨.A, .scalar, f.cnt⟩]
  | .semwRegister f | .ectlKill f => [⟨.B, .scalar, f.b⟩]
  | .ldS8 f | .ldZ8 f | .ldS16 f | .ldZ16 f | .ldS32 f | .ldZ32 f | .ldZ64 f | .vld f | .vlds f => ⟨.A, .scalar, f.a⟩ :: (if f.bm = 0 then [⟨.B, .scalar, f.b⟩] else [])
  | .stZ8 f | .stZ16 f | .stZ32 f | .stZ64 f => ⟨.A, .scalar, f.a⟩ :: ((if f.bm = 0 then [⟨.B, .scalar, f.b⟩] else []) ++ [⟨.D, .scalar, f.d⟩])
  | .vst f | .vsts f => ⟨.A, .scalar, f.a⟩ :: ((if f.bm = 0 then [⟨.B, .scalar, f.b⟩] else []) ++ [⟨.D, .vector, f.d⟩])
  | .vldx f => [⟨.A, .scalar, f.a⟩, ⟨.B, .vector, f.b⟩]
  | .vstx f => [⟨.A, .scalar, f.a⟩, ⟨.B, .vector, f.b⟩, ⟨.D, .vector, f.d⟩]
  | .lcas f | .acas f => [⟨.A, .scalar, f.a⟩, ⟨.B, .scalar, f.b⟩, ⟨.D, .scalar, f.d⟩]
  | .vmov f | .vcvt f | .vrcpF32 f | .vrsqF32 f => [⟨.A, .vector, f.a⟩]
  | .vsel f | .vchk f | .vand f | .vor f | .vxor f | .vshl f | .vshrZ32 f | .vshrS32 f | .vperm f | .vbcast f | .vaddS32 f | .vsubS32 f | .vmulS32 f | .vaddsS32 f | .vminS32 f | .vminZ32 f | .vmaxS32 f | .vmaxZ32 f | .vcmpS32 f | .vcmpZ32 f | .vaddF f | .vsubF f | .vmulF f | .vminF f | .vmaxF f | .vcmpF f => [⟨.A, .vector, f.a⟩, ⟨.B, .vector, f.b⟩]
  | .vext f | .vitpF32 f | .vitpBf16 f | .vssum f | .vsmin f | .vsmax f | .vsscan f | .vsmean f | .vsvar f | .vssmx f => [⟨.A, .vector, f.a⟩, ⟨.B, .scalar, f.b⟩]
  | .vins f => [⟨.A, .scalar, f.a⟩, ⟨.B, .scalar, f.b⟩, ⟨.D, .vector, f.d⟩]
  | .vfma f | .vfnma f => [⟨.A, .vector, f.a⟩, ⟨.B, .vector, f.b⟩, ⟨.D, .vector, f.d⟩]
  | .xbmp f => if f.sel = 2 then [] else [⟨.A, .scalar, f.a⟩]
  | .copy f | .send f => ⟨.A, .scalar, f.a⟩ :: (if f.b ≠ 63 ∨ (ext ∧ f.a ≠ 63) then [⟨.B, .scalar, f.b⟩] else [])
  | _ => []

/-- The destination of an operation (R131, R134, R140). -/
def Instr.dest : Instr → Dest
  | .mov f | .add f | .sub f | .addo f | .addc f | .subo f | .subc f | .mul f | .mulhS64 f | .mulhZ64 f | .divS64 f | .divZ64 f | .remS64 f | .remZ64 f | .minS64 f | .minZ64 f | .maxS64 f | .maxZ64 f | .andOp f | .orOp f | .xorOp f | .andn f | .shl f | .shrZ64 f | .shrS64 f | .rotl f | .rotr f | .clz f | .ctz f | .popc f | .brev f | .bswap f | .bfextS64 f | .bfextZ64 f | .clmul f | .clmulh f | .sel f | .lea f | .tagof f | .dflt f | .rdctl f | .sxt f | .zxt f | .ldS8 f | .ldZ8 f | .ldS16 f | .ldZ16 f | .ldS32 f | .ldZ32 f | .ldZ64 f | .ladd f | .lminS64 f | .lminZ64 f | .lmaxS64 f | .lmaxZ64 f | .lxch f | .vext f | .sread f => .scalar f.d
  | .bfins f => .accScalar f.d
  | .vld f | .vlds f | .vldx f | .vldr f | .vmov f | .vsel f | .vcvt f | .vand f | .vor f | .vxor f | .vshl f | .vshrZ32 f | .vshrS32 f | .vperm f | .vbcast f | .vaddS32 f | .vsubS32 f | .vmulS32 f | .vaddsS32 f | .vminS32 f | .vminZ32 f | .vmaxS32 f | .vmaxZ32 f | .vrcpF32 f | .vrsqF32 f | .vitpF32 f | .vitpBf16 f | .vaddF f | .vsubF f | .vmulF f | .vminF f | .vmaxF f | .vssum f | .vsmin f | .vsmax f | .vsscan f | .vsmean f | .vsvar f | .vssmx f => .vector f.d
  | .lcas f => .oldScalar f.d
  | .vins f | .vfma f | .vfnma f => .accVector f.d
  | .xstat f => .scalar f.sel
  | _ => .none

/-- The mask an operation of format VA names (R130). -/
def Instr.mask : Instr → Option (BitVec 3)
  | .vmov f | .vsel f | .vchk f | .vcvt f | .vand f | .vor f | .vxor f | .vshl f | .vshrZ32 f | .vshrS32 f | .vperm f | .vbcast f | .vaddS32 f | .vsubS32 f | .vmulS32 f | .vaddsS32 f | .vminS32 f | .vminZ32 f | .vmaxS32 f | .vmaxZ32 f | .vcmpS32 f | .vcmpZ32 f | .vext f | .vins f | .vrcpF32 f | .vrsqF32 f | .vitpF32 f | .vitpBf16 f | .vaddF f | .vsubF f | .vmulF f | .vfma f | .vfnma f | .vminF f | .vmaxF f | .vcmpF f => some f.m
  | _ => none

/-- The guard an operation names (R130); nop and the events name g0. -/
def Instr.guard : Instr → BitVec 4
  | .mov f => f.g
  | .add f => f.g
  | .sub f => f.g
  | .addo f => f.g
  | .addc f => f.g
  | .subo f => f.g
  | .subc f => f.g
  | .mul f => f.g
  | .mulhS64 f => f.g
  | .mulhZ64 f => f.g
  | .divS64 f => f.g
  | .divZ64 f => f.g
  | .remS64 f => f.g
  | .remZ64 f => f.g
  | .minS64 f => f.g
  | .minZ64 f => f.g
  | .maxS64 f => f.g
  | .maxZ64 f => f.g
  | .andOp f => f.g
  | .orOp f => f.g
  | .xorOp f => f.g
  | .andn f => f.g
  | .shl f => f.g
  | .shrZ64 f => f.g
  | .shrS64 f => f.g
  | .rotl f => f.g
  | .rotr f => f.g
  | .clz f => f.g
  | .ctz f => f.g
  | .popc f => f.g
  | .brev f => f.g
  | .bswap f => f.g
  | .bfextS64 f => f.g
  | .bfextZ64 f => f.g
  | .bfins f => f.g
  | .clmul f => f.g
  | .clmulh f => f.g
  | .cmpS64 f => f.g
  | .cmpZ64 f => f.g
  | .gdand f => f.g
  | .gdor f => f.g
  | .gdxor f => f.g
  | .sel f => f.g
  | .lea f => f.g
  | .tagof f => f.g
  | .dflt f => f.g
  | .rdctl f => f.g
  | .sxt f => f.g
  | .zxt f => f.g
  | .prepOffset f => f.g
  | .prepRegister f => f.g
  | .br f => f.g
  | .call f => f.g
  | .ret f => f.g
  | .loop f => f.g
  | .lbrk f => f.g
  | .semwImmediate f => f.g
  | .semwRegister f => f.g
  | .waitw f => f.g
  | .stepMark f => f.g
  | .brk f => f.g
  | .trap f => f.g
  | .sys f => f.g
  | .endItem f => f.g
  | .chkctl f => f.g
  | .dblctl f => f.g
  | .ctrap f => f.g
  | .commit f => f.g
  | .wrctl f => f.g
  | .setctl f => f.g
  | .clrctl f => f.g
  | .rft f => f.g
  | .xlinv f => f.g
  | .ctxsave f => f.g
  | .ctxload f => f.g
  | .ldS8 f => f.g
  | .ldZ8 f => f.g
  | .ldS16 f => f.g
  | .ldZ16 f => f.g
  | .ldS32 f => f.g
  | .ldZ32 f => f.g
  | .ldZ64 f => f.g
  | .stZ8 f => f.g
  | .stZ16 f => f.g
  | .stZ32 f => f.g
  | .stZ64 f => f.g
  | .vld f => f.g
  | .vst f => f.g
  | .vlds f => f.g
  | .vsts f => f.g
  | .vldx f => f.g
  | .vstx f => f.g
  | .vldr f => f.g
  | .hbind f => f.g
  | .hunbind f => f.g
  | .ladd f => f.g
  | .lminS64 f => f.g
  | .lminZ64 f => f.g
  | .lmaxS64 f => f.g
  | .lmaxZ64 f => f.g
  | .lxch f => f.g
  | .lcas f => f.g
  | .vmov f => f.g
  | .vsel f => f.g
  | .vchk f => f.g
  | .vcvt f => f.g
  | .vand f => f.g
  | .vor f => f.g
  | .vxor f => f.g
  | .vshl f => f.g
  | .vshrZ32 f => f.g
  | .vshrS32 f => f.g
  | .vperm f => f.g
  | .vbcast f => f.g
  | .vaddS32 f => f.g
  | .vsubS32 f => f.g
  | .vmulS32 f => f.g
  | .vaddsS32 f => f.g
  | .vminS32 f => f.g
  | .vminZ32 f => f.g
  | .vmaxS32 f => f.g
  | .vmaxZ32 f => f.g
  | .vcmpS32 f => f.g
  | .vcmpZ32 f => f.g
  | .vext f => f.g
  | .vins f => f.g
  | .vrcpF32 f => f.g
  | .vrsqF32 f => f.g
  | .vitpF32 f => f.g
  | .vitpBf16 f => f.g
  | .vaddF f => f.g
  | .vsubF f => f.g
  | .vmulF f => f.g
  | .vfma f => f.g
  | .vfnma f => f.g
  | .vminF f => f.g
  | .vmaxF f => f.g
  | .vcmpF f => f.g
  | .vssum f => f.g
  | .vsmin f => f.g
  | .vsmax f => f.g
  | .vsscan f => f.g
  | .vsmean f => f.g
  | .vsvar f => f.g
  | .vssmx f => f.g
  | .xnest f => f.g
  | .xbase f => f.g
  | .xfmt f => f.g
  | .xsrc f => f.g
  | .xbmp f => f.g
  | .xsdiag f => f.g
  | .xzero f => f.g
  | .xgo f => f.g
  | .xdrain f => f.g
  | .xwait f => f.g
  | .xstat f => f.g
  | .sbind f => f.g
  | .sunbind f => f.g
  | .gpush f => f.g
  | .copy f => f.g
  | .send f => f.g
  | .rsend f => f.g
  | .ssig f => f.g
  | .ssigR f => f.g
  | .sinit f => f.g
  | .sread f => f.g
  | .aadd f => f.g
  | .aminS64 f => f.g
  | .aminZ64 f => f.g
  | .amaxS64 f => f.g
  | .amaxZ64 f => f.g
  | .aand f => f.g
  | .aor f => f.g
  | .axor f => f.g
  | .axch f => f.g
  | .acas f => f.g
  | .afaddF32 f => f.g
  | .afaddBf16 f => f.g
  | .fence f => f.g
  | .launch f => f.g
  | .pref f => f.g
  | .ectlBayout f => f.g
  | .ectlBayin f => f.g
  | .ectlSpout f => f.g
  | .ectlSpin f => f.g
  | .ectlAccout f => f.g
  | .ectlAccin f => f.g
  | .ectlKill f => f.g
  | _ => 0

/-- The IMM6 field that K = 1 makes the B operand (R133), in formats SA and SP. -/
def Instr.immB : Instr → Option (BitVec 6)
  | .add f | .sub f | .mul f | .mulhS64 f | .mulhZ64 f | .divS64 f | .divZ64 f | .remS64 f | .remZ64 f | .minS64 f | .minZ64 f | .maxS64 f | .maxZ64 f | .andOp f | .orOp f | .xorOp f | .andn f | .shl f | .shrZ64 f | .shrS64 f | .rotl f | .rotr f | .bfextS64 f | .bfextZ64 f | .bfins f | .clmul f | .clmulh f | .cmpS64 f | .cmpZ64 f | .lea f | .dflt f => if f.k then some f.b else none
  | _ => none

/-- Whether an operation is in format SA or SP (R128, R133). -/
def Instr.isSASP : Instr → Bool
  | .mov _ | .add _ | .sub _ | .mul _ | .mulhS64 _ | .mulhZ64 _ | .divS64 _ | .divZ64 _ | .remS64 _ | .remZ64 _ | .minS64 _ | .minZ64 _ | .maxS64 _ | .maxZ64 _ | .andOp _ | .orOp _ | .xorOp _ | .andn _ | .shl _ | .shrZ64 _ | .shrS64 _ | .rotl _ | .rotr _ | .clz _ | .ctz _ | .popc _ | .brev _ | .bswap _ | .bfextS64 _ | .bfextZ64 _ | .bfins _ | .clmul _ | .clmulh _ | .cmpS64 _ | .cmpZ64 _ | .lea _ | .tagof _ | .dflt _ | .rdctl _ | .sxt _ | .zxt _ => true
  | _ => false

/-- The shape register an operation names in its MINOR or H field (R140). -/
def Instr.shapeReg : Instr → Option Nat
  | .vldr f | .vssum f | .vsmin f | .vsmax f | .vsscan f | .vsmean f | .vsvar f | .vssmx f => some f.h.toNat
  | .hbind f => some f.h.toNat
  | .hunbind f => some f.h.toNat
  | .xsdiag f => if f.sel = 1 then some f.f.toNat else none
  | _ => none

/-- The stream register an operation names outside its specifiers (R140, R272 to R276): sbind, sunbind, gpush
and acas by MINOR, the other atomics by D. -/
def Instr.streamReg : Instr → Option Nat
  | .sbind f | .gpush f => some f.h.toNat
  | .sunbind f => some f.h.toNat
  | .acas f => some f.h.toNat
  | .aadd f | .aminS64 f | .aminZ64 f | .amaxS64 f | .amaxZ64 f | .aand f | .aor f | .axor f | .axch f | .afaddF32 f | .afaddBf16 f => if 54 ≤ f.d.toNat ∧ f.d.toNat ≤ 61 then some (f.d.toNat - 54) else none
  | _ => none

/-- A source specifier is legal unless it is 63 and the slot receives no extension (05 Table 5.5). -/
def srcLegal (ext : Bool) (v : BitVec 6) : Bool := v ≠ 63 || ext

/-- Whether a destination field is legal for its kind (05 Table 5.5, R134). -/
def Dest.legal : Dest → Bool
  | .none => true
  | .scalar d => d.toNat < 32 || (54 ≤ d.toNat && d.toNat ≤ 61) || d.toNat = 63
  | .vector d => d.toNat < 16 || (54 ≤ d.toNat && d.toNat ≤ 61) || d.toNat = 63
  | .accScalar d => d.toNat < 48 || d.toNat = 62
  | .accVector d => d.toNat < 16 || (32 ≤ d.toNat && d.toNat ≤ 47) || d.toNat = 62
  | .oldScalar d => d.toNat < 32

/-- The fields that the operation does not use must hold 63 or zero where the operation itself decides it
(sub-cause 0x7 of 05 Table 5.10, beyond the bits that the format fixes). -/
def Instr.unusedOk : Instr → Bool
  | .loop f => !f.k || f.cnt.toNat < 16
  | .xbmp f => f.sel ≠ 2 || f.a = 63
  | .xsdiag f => f.sel ≠ 0 || f.f = 0
  | .xgo f => f.f.getLsbD 0 || f.sel = 0
  | .ectlBayout f | .ectlBayin f | .ectlAccout f | .ectlAccin f => f.b = 63
  | .ectlKill f => f.a = 63
  | _ => true

/-- The specifier check, sub-cause 0x8 (05 Table 5.5, R133, R134; 12 Table 12.1 for the atomics). -/
def Instr.specsOk (ext : Bool) (i : Instr) : Bool :=
  (i.sources ext).all (fun s => srcLegal (ext && !(i.isSASP && s.role = .B)) s.spec) && i.dest.legal &&
  match i with
  | .lcas f => f.d.toNat < 32
  | .acas f => f.d.toNat < 32
  | .aadd f | .aminS64 f | .aminZ64 f | .amaxS64 f | .amaxZ64 f | .aand f | .aor f | .axor f | .axch f | .afaddF32 f | .afaddBf16 f =>
      f.d.toNat < 32 || (54 ≤ f.d.toNat && f.d.toNat ≤ 61) || f.d.toNat = 63
  | _ => true

/-- The PAIR, J, mask-pair and COND check, sub-cause 0x9 (R135). -/
def Instr.pairsOk : Instr → Bool
  | .addo f | .addc f | .subo f | .subc f | .sel f => f.j ≠ 0
  | .cmpS64 f | .cmpZ64 f => f.cond.toNat < 6 && f.pair ≠ 0
  | .gdand f | .gdor f | .gdxor f => f.pair ≠ 0
  | .vcmpS32 f | .vcmpZ32 f => f.cond.toNat < 6 && f.j ≠ 0
  | .vcmpF f => f.cond.toNat < 6 && f.j ≠ 0
  | _ => true

/-- The unassigned-code check, sub-cause 0xA (R136, R137, R140, R201, R245, R246, R248, R266). -/
def Instr.codesOk : Instr → Bool
  | .sxt f | .zxt f => f.w ≠ 3
  | .lbrk f => f.lvl.toNat < 6
  | .ldS8 f | .ldZ8 f | .ldS16 f | .ldZ16 f | .ldS32 f | .ldZ32 f | .ldZ64 f | .stZ8 f | .stZ16 f | .stZ32 f | .stZ64 f | .vld f | .vst f => f.bm.toNat < 2
  | .vlds f | .vsts f => f.bm.toNat < 2 && !f.p
  | .vcvt f => f.pair.toNat < 26
  | .xnest f => f.f.toNat < 6 && f.sel.toNat < 8
  | .xbase f => f.sel.toNat < 11
  | .xsrc f => f.sel.toNat < 2
  | .xbmp f => f.sel.toNat < 3
  | .xsdiag f => f.sel.toNat < 2
  | .xgo f => f.f.toNat < 2
  | .ssig f | .ssigR f => f.hi = 0
  | _ => true

/-- The floating type 0b11 is unassigned (R139): no word decodes to it, sub-cause 0x6. -/
def Instr.typeOk : Instr → Bool
  | .vaddF f | .vsubF f | .vmulF f | .vfma f | .vfnma f | .vminF f | .vmaxF f => f.t ≠ 3
  | .vcmpF f => f.t ≠ 3
  | _ => true

/-- The checks of 05 Table 5.10 that a decoded word can fail, the lowest sub-cause first (R143). -/
def Instr.wordFault (ext : Bool) (i : Instr) : Option Nat :=
  if !i.typeOk then some 0x6
  else if !i.unusedOk then some 0x7
  else if !i.specsOk ext then some 0x8
  else if !i.pairsOk then some 0x9
  else if !i.codesOk then some 0xA
  else none

/-- The number of immediate operands of a word that receives an extension, by R128: K = 1 in formats SA and
SP, and source specifiers of 63. A field D of 63 that is read and written, which is no immediate form, counts for none; one that is only read does
(DESIGN CHOICE, log 102). -/
def Instr.immCount (i : Instr) : Nat :=
  (if i.immB.isSome then 1 else 0) +
  (((i.sources true).filter fun (s : Source) => s.spec = 63 && !(i.isSASP && s.role = .B) &&
    !(s.role = .D && (match i.dest with | .none => false | _ => true)))).length

/-- R128: the receiver's word has exactly one immediate operand, K = 1 with IMM6 zero in formats SA and SP,
one source specifier of 63 in every other format. -/
def Instr.templateOk (i : Instr) : Bool :=
  i.immCount = 1 && (if i.isSASP then i.immB = some 0 else true)

/-! ## The bundle -/

/-- The nine slots in the order of R51. -/
inductive Slot where
  | s0 | s1 | c | m0 | m1 | v0 | v1 | x | q
  deriving DecidableEq, Repr, Inhabited

/-- The number of a slot: its presence bit and its place in the order of R51. -/
def Slot.idx : Slot → Nat
  | .s0 => 0 | .s1 => 1 | .c => 2 | .m0 => 3 | .m1 => 4 | .v0 => 5 | .v1 => 6 | .x => 7 | .q => 8

/-- The slots in the order of R51. -/
def Slot.all : List Slot := [.s0, .s1, .c, .m0, .m1, .v0, .v1, .x, .q]

/-- The opcode space of a slot (R138). -/
def Slot.kind : Slot → SlotKind
  | .s0 | .s1 => .S | .c => .C | .m0 | .m1 => .M | .v0 | .v1 => .V | .x => .X | .q => .Q

/-- A bundle header, field by field (05 Table 5.1). -/
structure Header where
  top : BitVec 3
  iterLvl : BitVec 3
  iterCond : BitVec 2
  seg : Bool
  safe : Bool
  limm : BitVec 3
  scope : BitVec 3
  wait : BitVec 3
  rep : BitVec 4
  present : BitVec 9
  deriving DecidableEq, Repr, Inhabited

/-- The fields of a header word. -/
def Header.ofWord (w : Insn) : Header :=
  { top := fld w 29 3, iterLvl := fld w 26 3, iterCond := fld w 24 2, seg := w.getLsbD 23, safe := w.getLsbD 22,
    limm := fld w 19 3, scope := fld w 16 3, wait := fld w 13 3, rep := fld w 9 4, present := fld w 0 9 }

/-- The word of a header. -/
def Header.word (h : Header) : Insn :=
  place h.top 29 ||| place h.iterLvl 26 ||| place h.iterCond 24 ||| placeB h.seg 23 ||| placeB h.safe 22 |||
    place h.limm 19 ||| place h.scope 16 ||| place h.wait 13 ||| place h.rep 9 ||| place h.present 0

/-- Whether a header presents a slot. -/
def Header.presents (h : Header) (s : Slot) : Bool := h.present.getLsbD s.idx

/-- The slots a header presents, in the order of their words (R117). -/
def Header.slots (h : Header) : List Slot := Slot.all.filter h.presents

/-- The bytes of the bundle: header and one word for each slot presented; 4 when none is (R117, R143). -/
def Header.len (h : Header) : Nat := 4 * (1 + h.slots.length)

/-- The donor slots of a long-immediate template (05 Table 5.2), low word first. -/
def donors (limm : BitVec 3) : List Slot :=
  match limm.toNat with
  | 1 => [.s1] | 2 => [.s0] | 3 => [.s1, .c] | 4 => [.m1] | 5 => [.v1] | 6 => [.s1] | 7 => [.s1] | _ => []

/-- The receiver slot of a long-immediate template (05 Table 5.2). -/
def receiver (limm : BitVec 3) : Option Slot :=
  match limm.toNat with
  | 1 => some .s0 | 2 => some .s1 | 3 => some .s0 | 4 => some .m0 | 5 => some .v0 | 6 => some .x | 7 => some .q
  | _ => none

/-- The extension value of a template from its donor words (05 Table 5.2): sign-extended, the pair of words of
0b011, or for 0b101 the 32-bit word, zero-extended here (R225). -/
def extension (limm : BitVec 3) (ws : List Insn) : BitVec 64 :=
  match limm.toNat, ws with
  | 3, lo :: hi :: _ => (hi ++ lo : BitVec 64)
  | 5, w :: _ => w.setWidth 64
  | _, w :: _ => w.signExtend 64
  | _, [] => 0

/-- One presented, non-donor slot of a bundle: its slot, its word, its operation and the extension received. -/
structure SlotOp where
  slot : Slot
  word : Insn
  op : Instr
  ext : Option (BitVec 64)
  deriving DecidableEq, Repr, Inhabited

/-- A decoded bundle. -/
structure Bundle where
  hdr : Header
  ops : List SlotOp
  deriving DecidableEq, Repr, Inhabited

/-- An illegal-bundle report: sub-cause of 05 Table 5.10, reporting slot (15: the header) and value (R142). -/
structure Illegal where
  sub : Nat
  slot : Nat
  value : BitVec 64
  deriving DecidableEq, Repr, Inhabited

/-- The C operations that a repeated bundle may present (R121). -/
def Instr.repeatable : Instr → Bool
  | .nop | .semwImmediate _ | .semwRegister _ | .waitw _ | .stepMark _ | .ctrap _ | .commit _ | .chkctl _ | .dblctl _ => true
  | _ => false

/-- The one-shot operations of 05 Table 5.3. -/
def Instr.oneShot (i : Instr) : Bool :=
  match i.kind with
  | some .C => (match i with | .ctrap _ => false | _ => true)
  | some .X => true
  | some .M => (match i with | .hbind _ | .hunbind _ => true | _ => false)
  | some .Q => (match i with
    | .sbind _ | .sunbind _ | .copy _ | .send _ | .rsend _ | .sinit _ | .fence _ | .launch _ | .ectlBayout _ | .ectlBayin _
    | .ectlSpout _ | .ectlSpin _ | .ectlAccout _ | .ectlAccin _ | .ectlKill _ => true
    | _ => false)
  | _ => false

/-- The words of the presented slots paired with their slots. -/
def Header.pair (h : Header) (ws : List Insn) : List (Slot × Insn) := h.slots.zip ws

/-- The first failing header check, sub-causes 0x1 to 0x4 (05 Table 5.10, R121). `cword` is the decoded C word
when slot C is presented; one whose major opcode is unassigned is no C operation, and breaks no rule of R121 but sub-cause 0x6 of slot C
(DESIGN CHOICE, log 101). -/
def Header.fault (h : Header) (cop : Option Instr) : Option Nat :=
  if h.top ≠ 0 then some 1
  else if h.present = 0 then some 2
  else if h.scope.toNat > 4 then some 3
  else if h.iterLvl = 6 ∨ (h.iterLvl = 7 ∧ h.iterCond ≠ 0) then some 4
  else if h.rep ≠ 0 ∧ (cop.map Instr.repeatable).getD true = false then some 4
  else none

/-- Check the words of a bundle in slot order, the first failing word reported (R143). -/
def checkWords (recv : Option Slot) (ext : BitVec 64) : List (Slot × Insn) → Except Illegal (List SlotOp)
  | [] => .ok []
  | (s, w) :: rest =>
    let e := if recv = some s then some ext else none
    match decodeSlot s.kind w with
    | .error n => .error { sub := n, slot := s.idx, value := w.setWidth 64 }
    | .ok i =>
      match i.wordFault e.isSome with
      | some n => .error { sub := n, slot := s.idx, value := w.setWidth 64 }
      | none =>
        match checkWords recv ext rest with
        | .error r => .error r
        | .ok l => .ok ({ slot := s, word := w, op := i, ext := e } :: l)

/-- Decode a bundle from its header word and its slot words, with the checks of 05 Table 5.10 in the order of
R143: total, and rejecting by sub-cause, slot and value. The word of C is a donor only under template 0b011. -/
def decodeBundle (hw : Insn) (ws : List Insn) : Except Illegal Bundle :=
  let h := Header.ofWord hw
  let ps := h.pair ws
  let wordOf := fun (s : Slot) => (ps.find? (fun p => p.1 = s)).map (·.2)
  let don := donors h.limm
  let recv := receiver h.limm
  let hdrBad := fun (n : Nat) => (Except.error { sub := n, slot := 15, value := hw.setWidth 64 } : Except Illegal Bundle)
  let cop := if Slot.c ∈ don then none else (wordOf .c).bind (fun w => candidate .C w)
  match h.fault cop with
  | some n => hdrBad n
  | none =>
    let dw := don.filterMap wordOf
    let tmplOk := match recv with
      | none => true
      | some r => (don.all h.presents) && (match (wordOf r).bind (fun w => candidate r.kind w) with
          | some i => i.templateOk
          | none => false)
    if !tmplOk then hdrBad 5
    else
      match checkWords recv (extension h.limm dw) (ps.filter (fun p => !don.contains p.1)) with
      | .error r => .error r
      | .ok ops => .ok { hdr := h, ops := ops }

/-! ## The words of the opcode table -/

/-- The number of bits that the format of an operation fixes, which tells apart the slot kinds that share a
word (log 1). -/
def Instr.varBits : Instr → Nat
  | .ret _ | .endItem _ | .commit _ | .rft _ | .xwait _ => 4
  | .chkctl _ => 5
  | .br _ | .call _ => 6
  | .lbrk _ | .hunbind _ | .sunbind _ => 7
  | .waitw _ | .xlinv _ | .ctxsave _ | .ctxload _ | .xfmt _ | .xsrc _ | .xzero _ | .xstat _ | .rsend _ | .fence _ | .launch _ | .pref _ => 10
  | .xgo _ => 11
  | .prepRegister _ => 12
  | .hbind _ | .xsdiag _ | .sbind _ | .gpush _ => 13
  | .mov _ | .clz _ | .ctz _ | .popc _ | .brev _ | .bswap _ | .tagof _ | .semwRegister _ | .ctrap _ | .xbase _ | .xbmp _ | .xdrain _ | .copy _ | .send _ | .ssig _ | .ssigR _ | .sinit _ | .sread _ | .ectlBayout _ | .ectlBayin _ | .ectlSpout _ | .ectlSpin _ | .ectlAccout _ | .ectlAccin _ | .ectlKill _ => 16
  | .gdand _ | .gdor _ | .gdxor _ => 17
  | .sxt _ | .zxt _ => 18
  | .vmov _ | .vchk _ | .vrcpF32 _ | .vrsqF32 _ | .xnest _ => 19
  | .stepMark _ | .brk _ | .trap _ | .sys _ | .dblctl _ => 20
  | .rdctl _ | .semwImmediate _ | .wrctl _ | .setctl _ | .clrctl _ | .vldx _ | .vstx _ | .ladd _ | .lminS64 _ | .lminZ64 _ | .lmaxS64 _ | .lmaxZ64 _ | .lxch _ | .lcas _ | .aadd _ | .aminS64 _ | .aminZ64 _ | .amaxS64 _ | .amaxZ64 _ | .aand _ | .aor _ | .axor _ | .axch _ | .afaddF32 _ | .afaddBf16 _ => 22
  | .add _ | .sub _ | .mul _ | .mulhS64 _ | .mulhZ64 _ | .divS64 _ | .divZ64 _ | .remS64 _ | .remZ64 _ | .minS64 _ | .minZ64 _ | .maxS64 _ | .maxZ64 _ | .andOp _ | .orOp _ | .xorOp _ | .andn _ | .shl _ | .shrZ64 _ | .shrS64 _ | .rotl _ | .rotr _ | .bfextS64 _ | .bfextZ64 _ | .bfins _ | .clmul _ | .clmulh _ | .cmpS64 _ | .cmpZ64 _ | .dflt _ | .loop _ | .vlds _ | .vsts _ => 23
  | .prepOffset _ | .ldS8 _ | .ldZ8 _ | .ldS16 _ | .ldZ16 _ | .ldS32 _ | .ldZ32 _ | .ldZ64 _ | .stZ8 _ | .stZ16 _ | .stZ32 _ | .stZ64 _ | .vld _ | .vst _ | .vcmpS32 _ | .vcmpZ32 _ => 24
  | .addo _ | .addc _ | .subo _ | .subc _ | .sel _ | .lea _ | .vldr _ | .vsel _ | .vand _ | .vor _ | .vxor _ | .vshl _ | .vshrZ32 _ | .vshrS32 _ | .vperm _ | .vbcast _ | .vaddS32 _ | .vsubS32 _ | .vmulS32 _ | .vaddsS32 _ | .vminS32 _ | .vminZ32 _ | .vmaxS32 _ | .vmaxZ32 _ | .vext _ | .vins _ | .vitpF32 _ | .vitpBf16 _ | .vssum _ | .vsmin _ | .vsmax _ | .vsscan _ | .vsmean _ | .vsvar _ | .vssmx _ | .acas _ => 25
  | .vcmpF _ => 26
  | .vcvt _ | .vaddF _ | .vsubF _ | .vmulF _ | .vfma _ | .vfnma _ | .vminF _ | .vmaxF _ => 27
  | _ => 0

/-- Of candidates, the one whose format leaves fewest bits free, and among equals the first. -/
def leastFree (cands : List (SlotKind × Instr)) : Option (SlotKind × Instr) :=
  cands.foldl (fun best c => match best with
    | none => some c
    | some b => if c.2.varBits < b.2.varBits then some c else some b) none

/-- The slot kind in which a bare word of the opcode table is read (log 1): of the kinds in which it decodes, those in which it
passes the word checks first, the one whose format leaves fewest bits free, and among equals the first of C, X, Q, M, V, S. -/
def tableKind (w : Insn) : Option (SlotKind × Instr) :=
  let cands : List (SlotKind × Instr) := [.C, .X, .Q, .M, .V, .S].filterMap fun k =>
    match decodeSlot k w with | .ok i => some (k, i) | .error _ => none
  (leastFree (cands.filter fun c => (c.2.wordFault false).isNone)).or (leastFree cands)

/-- The instruction the decoder reads from a row's word: the word of a slot operation stands in the first 32
bits (the opcode table gives every such row exactly one word). -/
def decodeTableWord (nbits w : Nat) : Option Instr :=
  if nbits > 32 then none else (tableKind (BitVec.ofNat 32 w)).map (·.2)

end Sys2Proof
end

