-- ==== Sys2Proof/Machine/State.lean ====
section
/-! DEFINITION. The state of the package: every tile with its kernel and shadow contexts and its engines, the
partitions, the dies, the Gallery die, memory, and what is in flight between them; and the state after reset. -/
namespace Sys2Proof.Machine

/-! ## Values and tags -/

/-- Where a word stands that storage or a transfer could not deliver (20 Table 20.4): the unit, 4 a scratchpad bank, 5 an accumulator store,
6 an HBM stack, and its place there as DETAIL names it (20 Table 20.8). -/
structure BadWord where
  unit : Nat
  place : Nat
  deriving DecidableEq, Repr, Inhabited

/-- The tag of a word, lane or element (02 Table 2.1). POISON keeps the word that it arose from, which the record of its consumption
names (R424; the model's own, log 22). -/
inductive Tag where
  | valid | void
  | poison (o : BadWord)
  deriving DecidableEq, Repr, Inhabited

/-- Whether a tag is POISON. -/
def Tag.isPoison : Tag → Bool
  | .poison _ => true
  | _ => false

/-- A tagged 64-bit word (R47, R55). -/
structure Scalar where
  v : Word
  tag : Tag
  deriving DecidableEq, Repr, Inhabited

/-- A tagged 32-bit lane (R47, R55). -/
structure Lane where
  v : LaneBits
  tag : Tag
  deriving DecidableEq, Repr, Inhabited

/-- A vector of 32 tagged lanes (R47). -/
abbrev VReg := Vector Lane 32

/-- A guard: its bit, and whether it is VOID (R61). -/
structure Guard where
  val : Bool
  void : Bool
  deriving DecidableEq, Repr, Inhabited

/-- A vector mask: 32 bits, and which lanes are VOID (R63). -/
structure Mask where
  vals : BitVec 32
  voids : BitVec 32
  deriving DecidableEq, Repr, Inhabited

/-- The snapshot a shape register is bound to (R106): FMT, ROW_LEN and the SEG_END values. -/
structure Shape where
  fmt : Nat
  rowLen : Nat
  ends : List Nat
  deriving DecidableEq, Repr, Inhabited

/-! ## Results in flight, sticky operations, the sequencer -/

/-- What arrives at the end of an operation's latency (R50, R62, R63, R107, R109); `vectorPush` is pushed and leaves the register that it
names unwritten (R241). -/
inductive Result where
  | scalar (x : Scalar) (d : BitVec 6)
  | vector (x : VReg) (d : BitVec 6)
  | vectorPush (x : VReg) (d : BitVec 6)
  | guards (j : Nat) (even odd : Guard)
  | masks (j : Nat) (vals voids : BitVec 32)
  | bind (h : Nat) (snap : Shape)
  | unbind (h : Nat)
  deriving DecidableEq, Repr, Inhabited

/-- A result in flight: the slot and cycle that issued it, the cycle at whose end it arrives, and the position
it fills in a write stream, by binding and number (R50, R51, R66). -/
structure InFlight where
  slot : Slot
  issued : Nat
  last : Nat
  res : Result
  place : Option (Nat × Nat)
  deriving DecidableEq, Repr, Inhabited

/-- A sticky operation (R69): the operation, its extension value, and the address and step that a
post-increment form has latched (R136). -/
structure Sticky where
  op : Instr
  ext : Option Word
  latch : Scalar
  stepBy : Scalar
  deriving DecidableEq, Repr, Inhabited

/-- An active loop level (R68, R195). -/
structure Loop where
  first : Nat
  last : Nat
  n : Nat
  x : Nat
  frame : Nat
  deriving DecidableEq, Repr, Inhabited

/-- A target-buffer entry (R195): the target, and the cycle of the prep that loaded it, none when it counts as
loaded early enough (R164). -/
structure Target where
  addr : Word
  p : Option Nat
  deriving DecidableEq, Repr, Inhabited

/-- A return-stack entry (R195): the call bundle's address and the call's cycle. -/
structure Return where
  addr : Nat
  cycle : Nat
  deriving DecidableEq, Repr, Inhabited

/-- The sequencer's levels (innermost first), target buffer and return stack (innermost first) (R195). The
frame number is the number of return entries. -/
structure Sequencer where
  loops : List Loop
  targets : Vector Target 4
  rets : List Return
  deriving DecidableEq, Repr, Inhabited

/-- The resumption modes of R349. -/
inductive Mode where
  | fresh | cont | xfer
  deriving DecidableEq, Repr, Inhabited

/-- How the bundle after a completed one is chosen (R196): by fall-through from it, by fall-through past the
bundle at a last address (R200, R201), or not at all because a level's last address was passed by a bundle whose last issue
was at a cycle (R141). -/
inductive Choice where
  | fall
  | after (last : Nat)
  | passed (last cycle : Nat)
  deriving DecidableEq, Repr, Inhabited

/-- The position of a sequencer, in the form of RESUME (R349): the bundle, the issues, wait cycles and bubble
cycles still to spend, the pending choice, the loop depth of its issue (R175), whether the bundle is SAFE and whether it
closes its segment (R124, R211), and whether its last issue and last wait cycle have just been spent. -/
structure Position where
  mode : Mode
  addr : Nat
  issues : Nat
  waits : Nat
  bubbles : Nat
  choice : Choice
  depth : Nat
  safe : Bool
  closes : Bool
  boundary : Bool
  deriving DecidableEq, Repr, Inhabited

/-- What a kernel context and a shadow context have in common (R47 to R52, R69, R195, R337). -/
structure Ctx where
  n : Vector Scalar 32
  sq : Vector Scalar 16
  g : Vector Guard 16
  sticky : Vector Sticky 9
  seq : Sequencer
  pos : Position
  infl : List InFlight
  cycle : Nat
  deriving DecidableEq, Repr, Inhabited

/-- The vector registers, vector queue and masks (R47, R49, R63). -/
structure VecState where
  v : Vector VReg 16
  vq : Vector VReg 16
  m : Vector Mask 8
  deriving DecidableEq, Repr, Inhabited

/-! ## Survey records -/

/-- A gating reference: place and SEQ of a leg (R317). -/
structure LegRef where
  place : BitVec 16
  seq : BitVec 32
  deriving DecidableEq, Repr, Inhabited

/-- The producer of a change or an element (R315, R316; 14 Table 14.2). -/
structure Producer where
  kind : Nat
  place : BitVec 16
  obj : Nat
  addr : Nat
  gate : Option LegRef
  deriving DecidableEq, Repr, Inhabited

/-- A survey leg (14 Table 14.2), its SEQ given when it is published (R318). -/
structure Leg where
  arrive : Nat
  waitClk : Nat
  cycle : Nat
  place : BitVec 16
  addr : Nat
  kind : Nat
  obj : Nat
  prod : Option Producer
  seq : BitVec 32
  deriving DecidableEq, Repr, Inhabited

/-- A step mark (R205, R320): identifier, bundle, cycle, wall time in ns, and the counters at its issue (R324). -/
structure StepMark where
  id : BitVec 16
  addr : Nat
  cycle : Nat
  wall : Nat
  counters : List Nat
  deriving DecidableEq, Repr, Inhabited

/-- A trace record before it enters the ring (22 Table 22.3), with the segment of the operation it concerns. -/
structure TraceRec where
  wall : Nat
  kind : Nat
  obj : Nat
  addr : Nat
  cycle : Nat
  info : Nat
  segNo : Nat
  deriving DecidableEq, Repr, Inhabited

/-! ## Streams, semaphores and engine commands -/

/-- A stream pattern descriptor (12 Table 12.4); `levels` holds (COUNT, STRIDE) from level 0. -/
structure Pattern where
  home : BitVec 4
  cls : BitVec 4
  levels : List (Nat × Int)
  isLocal : Bool
  isVector : Bool
  isWrite : Bool
  kind : Nat
  base : Word
  deriving DecidableEq, Repr, Inhabited

/-- An element of a stream (R64). -/
inductive Elem where
  | scalar (x : Scalar)
  | vector (x : VReg)
  deriving DecidableEq, Repr, Inhabited

/-- A place in a return stream (R276): the atomic it belongs to, whether it is released, and its element. -/
structure RetPlace where
  cmd : Nat
  released : Bool
  val : Option Scalar
  deriving DecidableEq, Repr, Inhabited

/-- A physical address: of host memory, or of device memory (R386). -/
structure Loc where
  host : Bool
  pa : Nat
  deriving DecidableEq, Repr, Inhabited

/-- A reserved position of a write stream (R66): its number, its element once filled, and its place in issue order (R303): the number of the
next command of the tile when it was reserved, and its number among the accesses of streams. -/
structure Reserved where
  pos : Nat
  val : Option Elem
  after : Nat
  order : Nat
  deriving DecidableEq, Repr, Inhabited

/-- An index pushed to a gather or scatter stream and not yet popped or drained (R275), its gpush's bundle and gating reference (R317), and whether
that gpush has been presented. -/
structure GIndex where
  cmd : Nat
  val : Scalar
  addr : Nat
  gate : Option LegRef
  presented : Bool
  deriving DecidableEq, Repr, Inhabited

/-- A binding of a stream register (R272 to R276). `due` holds the places in issue order of the elements that a read stream has issued and
not yet read (R303), `got` and `gone` the bytes read and the count of bytes written of the element whose requests are under way (R299), `loc`
where its present request lies once its home has let it through (R390, R397). -/
structure Stream where
  serial : Nat
  cmd : Nat
  reg : Nat
  pat : Pattern
  bindAddr : Nat
  bindCycle : Nat
  scope : BitVec 3
  presented : Bool
  gate : Option LegRef
  buf : List Elem
  popped : Nat
  filled : Nat
  reserved : Nat
  queue : List Reserved
  idx : List GIndex
  idxTotal : Nat
  rets : List RetPlace
  due : List (Nat × Nat)
  got : List (Byte × Option BadWord)
  gone : Nat
  loc : Option Loc
  fault : Option (Nat × Nat)
  reported : Bool
  deriving DecidableEq, Repr, Inhabited

/-- The stream registers; the unbound write streams still draining (R274), with the streams of a rewound segment whose request a fault
holds (R398); the next binding number; and the next number of an access of a stream. -/
structure Streams where
  regs : Vector (Option Stream) 8
  old : List Stream
  next : Nat
  seq : Nat
  deriving DecidableEq, Repr, Inhabited

/-- One change of a semaphore in a clock period (R75). -/
inductive SemOp where
  | raise (n : Nat) | lower (n : Nat) | init (n : Nat)
  deriving DecidableEq, Repr, Inhabited

/-- A change waiting for the end of the clock period, with its producer and, among the changes of one place, its place in
issue order (R316): the number of the command that makes it, 0 for the host. -/
structure SemChange where
  sem : Nat
  op : SemOp
  prod : Option Producer
  order : Nat
  deriving DecidableEq, Repr, Inhabited

/-- The semaphores of a tile (R74, R75, R316). -/
structure Sems where
  cnt : Vector (BitVec 32) 64
  raiser : Vector (Option Producer) 64
  overflow : BitVec 64
  pend : List SemChange
  deriving DecidableEq, Repr, Inhabited

/-- The operations of the global atomics (12 Table 12.6). -/
inductive AtomicOp where
  | add | minS | minZ | maxS | maxZ | and | or | xor | xch | cas | faddF32 | faddBf16
  deriving DecidableEq, Repr, Inhabited

/-- A transfer descriptor as read at issue (12 Table 12.5), the displacement of R278 already added. `dims` holds
(COUNT, SRCSTR, DSTSTR) of dimension 0 first, dimension 0 being bytes. -/
structure Transfer where
  isSend : Bool
  isRsend : Bool
  dir : Nat
  src : Word
  dst : Word
  dims : List (Nat × Int × Int)
  cls : BitVec 4
  tagw : Bool
  sig : Bool
  remote : Bool
  rank : Nat
  sem : Nat
  count : Nat
  tag : Word
  tagOff : Nat
  group : Nat
  rfmt : Nat
  redop : Nat
  deriving DecidableEq, Repr, Inhabited

/-- What an engine command does (R270, 12 Table 12.2). -/
inductive CmdBody where
  | sbind (serial : Nat)
  | sunbind
  | gpush (serial : Nat)
  | xfer (x : Transfer)
  | ssig (rank : Option Nat) (sem count : Nat)
  | sinit (sem value : Nat)
  | atomic (op : AtomicOp) (va : Nat) (b d : Word) (cls : BitVec 4) (ret : Option Nat)
  | off
  | fence (mask : BitVec 16)
  | launch (bytes : List Byte)
  | pref (va : Nat)
  | matrix (n : Nat)
  | mxsig (sem : Nat)
  deriving DecidableEq, Repr, Inhabited

/-- An engine command (R170, R267): its number in issue order, bundle and cycle, the scope of its bundle, the
segment that issued it, its gating reference, how long the checker's copy is still late, that copy
where it differs, whether the copies have been compared, and the operand words that its body does not hold. -/
structure Cmd where
  id : Nat
  addr : Nat
  cycle : Nat
  scope : BitVec 3
  segNo : Nat
  gate : Option LegRef
  late : Nat
  ckCopy : Option (List Nat)
  matched : Bool
  operands : List Nat
  body : CmdBody
  deriving DecidableEq, Repr, Inhabited

/-- An accepted command and its progress: units of the source read and of the destination written, the bytes
read, the request's home-die check, the fault that holds it (R299, R396, R397), and whether its execution has been
discarded (R423). -/
structure Active where
  cmd : Cmd
  rd : Nat
  wr : Nat
  got : List Host.Cell
  gotPoison : List Nat
  loc : Option Loc
  locs : List (Loc × Nat × Nat)
  fault : Option (Nat × Nat)
  reported : Bool
  sent : Bool
  done : Bool
  rewound : Bool
  deriving DecidableEq, Repr, Inhabited

/-- The engine commands of a tile: within the checker lag, held to commit (the commit buffer), released but not
yet accepted, and accepted (R170, R268, R270); the next number. -/
structure Engines where
  lag : List Cmd
  held : List Cmd
  released : List Cmd
  queue : List Active
  next : Nat
  deriving DecidableEq, Repr, Inhabited

/-! ## The matrix engine -/

/-- A nest level of the configuration table (11 Table 11.3). -/
structure Nest where
  bound : Nat
  astr : Nat
  bstr : Nat
  accstr : Nat
  sastr : Nat
  sbstr : Nat
  rowstr : Nat
  colstr : Nat
  deriving DecidableEq, Repr, Inhabited

/-- The configuration table (11 Tables 11.2 to 11.4). -/
structure MxCfg where
  nest : Vector Nest 6
  base : Vector Nat 11
  afmt : Nat
  bfmt : Nat
  rowsM1 : Nat
  accSrc : Bool
  abmp : Nat
  bbmp : Nat
  abmpOn : Bool
  bbmpOn : Bool
  sdiag : Option Nat
  deriving DecidableEq, Repr, Inhabited

/-- The accumulator store (R242): entries that are not zero, by number (block × 4096 + row × 64 + column) in rising
order, and the entries that are POISON. -/
structure Acc where
  vals : List (Nat × LaneBits)
  poison : List Nat
  deriving DecidableEq, Repr, Inhabited

/-- A row of operand elements as read (R253): codes, POISON per element, scale codes with POISON, and bitmap
bits, all from position 0; POISON of a bitmap bit stands with its element. -/
structure OpRow where
  codes : List Nat
  poison : List Bool
  scales : List Nat
  scalePoison : List Bool
  bits : List Bool
  deriving DecidableEq, Repr, Inhabited

/-- What a matrix command does (R249, R260, R261). -/
inductive MxOp where
  | zero (blk : Nat)
  | go (cfg : MxCfg) (snap : Option Shape) (sem : Option Nat) (rho : Nat)
  | drain (addr blk fmt rowsM1 pitch : Nat) (sat : Bool)
  deriving DecidableEq, Repr, Inhabited

/-- A matrix command of the queue (R242): number, issue cycle and bundle, start cycle of a dense command, and for
a sparse one the clock periods still to run once it has started; whether the start is `fixed`: not behind a sparse command
that has not completed (R255; log 25); the segment that issued it; the operand rows read so far by step and row;
the rows that wait to be written; whether it has completed, whether an xwait has waited for it (R258), and whether its completion signal, made in an execution
since discarded, stands (R423); `cmd` is the number of its engine command. -/
structure MxCmd where
  n : Nat
  cmd : Nat
  issue : Nat
  addr : Nat
  op : MxOp
  sparse : Bool
  start : Nat
  fixed : Bool
  clkLeft : Option Nat
  segNo : Nat
  brows : List (Nat × OpRow)
  arows : List (Nat × OpRow)
  wait : List (Nat × List Lane)
  presented : Bool
  done : Bool
  waited : Bool
  signalled : Bool
  gate : Option LegRef
  deriving DecidableEq, Repr, Inhabited

/-- The matrix engine (R242): configuration, accumulator, queue, SHADOW_NEXT, the marks Fb and I, the next
schedule cycle it performs, and whether the last command presented is dense (R263). -/
structure Matrix where
  cfg : MxCfg
  acc : Acc
  queue : List MxCmd
  shadowNext : Nat
  fb : Nat
  i : Nat
  cyc : Nat
  lastDense : Bool
  next : Nat
  deriving DecidableEq, Repr, Inhabited

/-! ## Counters, scratchpad, work item -/

/-- The kernel's counters: the seven sets of R175 in the order of R324, REPLAY_COUNT and FREEZE_CAUSE. -/
structure Counters where
  sets : Vector (Vector Nat 29) 7
  replays : Nat
  freeze : Vector Nat 7
  deriving DecidableEq, Repr, Inhabited

/-- Bytes with the POISON of their aligned 8-byte words: entries in rising address order, none equal to zero,
which is what an unlisted byte reads as (log 5); poisoned words by word number, rising. -/
structure Store where
  bytes : List Host.Cell
  poison : List Nat
  deriving DecidableEq, Repr, Inhabited

/-- A write of one operation to a scratchpad: the bytes in order, and the words it poisons (R215, R261). -/
structure SpadWrite where
  cells : List Host.Cell
  poison : List Nat
  deriving DecidableEq, Repr, Inhabited

/-- The declarations of a kernel image header (06 Table 6.3). -/
structure Image where
  codeOff : Nat
  codeLen : Nat
  entry : Nat
  scratch : Nat
  coverage : Nat
  nsems : Nat
  nshapes : Nat
  nstreams : Nat
  nregs : Nat
  segMax : Nat
  safeDist : Nat
  bodyLen : Nat
  kernelId : Word
  deriving DecidableEq, Repr, Inhabited

/-- The run on a tile (R40 to R46, R373, R376): its launch, gang and rank, the work items of the run and the one
that runs, how far the run has come, the launch-gate leg that its item's first issue publishes (R315, R318), and whether a rewind has discarded the
trace record of the item's start (R455). -/
structure Run where
  launch : Nat
  gang : Nat
  rank : Nat
  gangTiles : Nat
  items : Nat
  item : Nat
  wid : Word
  mailbox : Vector Word 16
  img : Image
  part : PartNo
  tag : BitVec 32
  staged : Nat
  resident : Bool
  started : Bool
  itemEnded : Bool
  doneItems : Nat
  sc : Nat
  drained : Bool
  gate : Option Producer
  retrace : Bool
  killed : Bool
  deriving DecidableEq, Repr, Inhabited

/-! ## Segments -/

/-- The segment states of 20 Table 20.5. -/
inductive SegMode where
  | run | unprot | decide
  deriving DecidableEq, Repr, Inhabited

/-- An undo-log entry (R420): line number, its old 64 bytes, and the POISON of its eight words. -/
structure Undo where
  line : Nat
  bytes : List Byte
  poison : List Bool
  deriving DecidableEq, Repr, Inhabited

/-- The checks of class 4 (20 Table 20.4). -/
inductive Check where
  | checker | doubles | shadowRow | poison
  deriving DecidableEq, Repr, Inhabited

/-- A class 4 event (R424): its check, the cycle after which it is taken, the compared issue, the words compared and their copies, and for
poison the unit and location. -/
structure Event where
  check : Check
  takenAfter : Nat
  addr : Nat
  cycle : Nat
  slot : Nat
  locs : List Nat
  copyA : List Nat
  copyB : List Nat
  unit : Nat
  detail : Nat
  doubles : BitVec 16
  deriving DecidableEq, Repr, Inhabited

/-- The kernel context as the segment-entry checkpoint keeps it (R419). -/
structure Saved where
  k : Ctx
  vec : VecState
  streams : Streams
  shapes : Vector (Option Shape) 8
  raisers : Vector (Option Producer) 64
  mx : Matrix
  counters : Counters
  doubles : BitVec 16
  safeMark : Nat
  deriving DecidableEq, Repr, Inhabited

/-- The segment state of a tile (R418 to R427, 20 Table 20.9). `careful`: since a rewind no segment entry has been taken, so the tile
runs as in fixed mode (R425); `reached`: the issue that a pending decision compares has been made (R426). -/
structure Segment where
  mode : SegMode
  careful : Bool
  reached : Bool
  number : Nat
  entryAddr : Nat
  entryCycle : Nat
  safeMark : Nat
  doubles : BitVec 16
  pendingEntry : Bool
  freezeLeft : Nat
  heldCount : Nat
  undo : List Undo
  overflow : Bool
  chk : Option Saved
  lowered : List (Nat × Nat)
  clkSince : Nat
  events : Nat
  firstEvent : Option Event
  recorded : Option Event
  pendEvents : List Event
  verdict : Option (Nat × Event)
  fatal : Option (Nat × Event)
  rewinds : Nat
  lastVerdict : Nat
  lastCause : Nat
  lastUnit : Nat
  legs : List Leg
  marks : List StepMark
  trace : List TraceRec
  deriving DecidableEq, Repr, Inhabited

/-- A semw or an xwait of the bundle about to issue (R315, R454): its first frozen clock period and the one in which it was satisfied, by their
raw count in ns, the WALL_TIME of that, and the semaphore's last raiser as it then stood (R316). -/
structure Station where
  began : Nat
  till : Nat
  wall : Nat
  raiser : Option Producer
  deriving DecidableEq, Repr, Inhabited

/-- The waits of the bundle about to issue (R315): the clk charged to semaphore wait, and to stream empty or full; the wait of its semw and of
its xwait; and for a read stream and a write stream that has been waited for, the wall time of the clock period in which the wait was
satisfied, with the stream engine as producer. -/
structure Waits where
  semClk : Nat
  streamClk : Nat
  sem : Option Station
  xw : Option Station
  read : Option (Nat × Producer)
  write : Option (Nat × Producer)
  deriving DecidableEq, Repr, Inhabited

/-- The survey state of a tile (R318 to R320): the leg store, the next SEQ, the waits of the bundle about to issue, the step's start, and
the step marks committed whose reports are still to write. -/
structure Survey where
  legs : List Leg
  next : BitVec 32
  waits : Waits
  stepStart : Nat
  stepCycle : Nat
  due : List (StepMark × Option LegRef × Nat × Nat × Word × Word)
  deriving DecidableEq, Repr, Inhabited

/-! ## The privileged state of a tile -/

/-- A pending asynchronous cause (R346): CAUSE, value, bundle and cycle. -/
structure Async where
  cause : Nat
  value : Word
  addr : Nat
  cycle : Nat
  sub : Nat
  deriving DecidableEq, Repr, Inhabited

/-- An after-issue cause (R346): CAUSE, SUB, SLOT, value, bundle and cycle. -/
structure After where
  cause : Nat
  sub : Nat
  slot : Nat
  value : Word
  addr : Nat
  cycle : Nat
  deriving DecidableEq, Repr, Inhabited

/-- An entry of the signal log (R342). -/
structure SigEntry where
  src : BitVec 16
  st : Bool
  sem : Nat
  count : BitVec 32
  deriving DecidableEq, Repr, Inhabited

/-- An ectl transfer (R359, 17 Table 17.8): MINOR, the global address, the length, the units moved, the HCYCLE of
its issue, and the fault that holds it. -/
structure Ectl where
  minor : Nat
  va : Nat
  len : Nat
  moved : Nat
  addr : Nat
  cycle : Nat
  fault : Option (Nat × Nat)
  deriving DecidableEq, Repr, Inhabited

/-- The engine-fault registers (R341, 19 R396). -/
structure EfRegs where
  kind : Nat
  handler : Bool
  va : Nat
  addr : Nat
  cycle : Nat
  detail : Nat
  reqTag : Nat
  standing : Bool
  deriving DecidableEq, Repr, Inhabited

/-- The trap registers 0x100 to 0x103 (R341). `shape` is the shape register that the shape trap reports (R113), which 17 Table 17.1 gives no
bits (log 92). -/
structure TrapRegs where
  cause : Nat
  sub : Nat
  slot : Nat
  async : Bool
  value : Word
  addr : Nat
  cycle : Nat
  shape : Option Nat := none
  deriving DecidableEq, Repr, Inhabited

/-- The privileged state of a tile (R337 to R342, R359, R360). `active`: the shadow context runs; `walkEntry`: entered by
cause 0x30; `rftDone`: rft has issued and waits for a transfer or a kill; `faultTold`: the containment of its handler
fault has been done. `wdogNs` is the watchdog's count in ns of wall time and
`waitSem` the semaphore (64: an xwait) before whose wait the kernel stands frozen (R344). -/
structure Priv where
  ctxState : BitVec 2
  shadow : Ctx
  handlers : List Host.Cell
  trap : TrapRegs
  wdogEn : Bool
  debugArmed : Bool
  earlyTrap : Bool
  wdogLimit : BitVec 32
  wdogNs : Nat
  waitSem : Option Nat
  active : Bool
  walkEntry : Bool
  rftDone : Bool
  after : List After
  async : List Async
  sigLog : List SigEntry
  sigLost : Bool
  sigCount : BitVec 32
  ef : EfRegs
  ectl : List Ectl
  hfault : Nat
  parked : Bool
  faultTold : Bool
  errTrapEn : Bool
  saving : Option Word
  deriving DecidableEq, Repr, Inhabited

/-- A translation held in a cache (R390): the page's first virtual address, its size in bits, and the leaf. -/
structure Leaf where
  va : Nat
  bits : Nat
  entry : Word
  deriving DecidableEq, Repr, Inhabited

/-- A standing miss (R393): address, kind, stream register, the mode and root in force when it arose, whether a
cause 0x30 or a ring record has been raised for it, and whether it is of the privileged class. -/
structure Miss where
  va : Nat
  write : Bool
  atomic : Bool
  sreg : Nat
  mode : Nat
  root : Nat
  raised : Bool
  priv : Bool
  deriving DecidableEq, Repr, Inhabited

/-- Translation at one tile (R390 to R395): the two caches, their standing misses (stream 0, copy 1), and the
registers 0x154 to 0x157, with whether a read asked for by 0x156 is under way. -/
structure Xlat where
  streamTlb : List Leaf
  copyTlb : List Leaf
  streamMiss : Option Miss
  copyMiss : Option Miss
  walkVa : Nat
  walkInfo : Word
  walkPaddr : Nat
  walkPending : Bool
  walkData : Word
  deriving DecidableEq, Repr, Inhabited

/-- A debug comparator (22 Table 22.1). -/
structure Comparator where
  en : Bool
  cyc : Bool
  addr : BitVec 32
  cycle : Word
  deriving DecidableEq, Repr, Inhabited

/-- Debug state of a tile (22 Table 22.1): the stop in force, stops asked for by command and by die halt, a single
issue under way, whether the issue it was released at may not match again (for a single issue: whether that issue is still to be made), the dump address and the comparators. -/
structure Debug where
  stopKind : Nat
  stopValue : BitVec 32
  stopAddr : Nat
  stopCycle : Nat
  askStop : Bool
  askHalt : Bool
  single : Bool
  skip : Bool
  brkCode : Option Nat
  dump : Nat
  comps : Vector Comparator 4
  deriving DecidableEq, Repr, Inhabited

/-- Margin state of a tile (20 R405 to R412): mode in force, clock in MHz, voltage and floor in mV, STATE and the
STATE before a return, the last rate, the replays and clk since the last measurement, the wall times of the
transients of the last 24 h, measurements above REPLAY_HI, the repair table (24 R475), the error-rate curve, and the drift history: how
floor and curve have moved, as wall time in ns, floor and curve voltage in mV (R408, R411). -/
structure Margin where
  mode : BitVec 2
  mhz : Nat
  mv : Nat
  floor : Nat
  state : Nat
  before : Nat
  rate : Nat
  replays : Nat
  clks : Nat
  transients : List Nat
  highRuns : Nat
  repair : Vector (BitVec 16) 16
  curve : List (Nat × Nat × Nat)
  drift : List (Nat × Nat × Nat)
  deriving DecidableEq, Repr, Inhabited

/-- A disturbance of a tile's storage that the physical world may make (R414, classes 2 to 4): it strikes in a schedule cycle of the
kernel; `shadowReg` and `shadowCheckerReg`, which strike the registers of the shadow context and the checker's copies of them (R340), in a
cycle of HCYCLE. `spad` and `acc` are uncorrectable errors of a word or an entry, `ibuf` one of the instruction buffer (R415). -/
inductive Upset where
  | reg (n : Nat) (mask : Word)
  | checkerReg (n : Nat) (mask : Word)
  | spad (word : Nat)
  | acc (entry : Nat)
  | shadowRow
  | command
  | shadowReg (n : Nat) (mask : Word)
  | shadowCheckerReg (n : Nat) (mask : Word)
  | ibuf
  deriving DecidableEq, Repr, Inhabited

/-- What the physical world still does to a tile (log 10): for the issues to come, how often each is replayed
(R32); for the clock periods to come, how much each is lengthened, in ps (R35); for the commands to come, how
late the checker's copy is, in clk (R170); upsets by cycle; the bits of its scratchpad that are stuck, by bit number, with their values,
and the bits of its registers n0 to n31 that are stuck, by register, bit and value
(24 R479); and for the requests of its engines to come, the 8-byte words of their data that arrive uncorrectable (R415). -/
structure Inputs where
  replays : List Nat
  stretch : List Nat
  checkerLate : List Nat
  upsets : List (Nat × Upset)
  stuck : List (Nat × Bool)
  stuckRegs : List (Nat × Nat × Bool)
  transit : List (List Nat)
  deriving DecidableEq, Repr, Inhabited

/-- What one clock period has put off to its end: stores in slot order, the sequencer that a C operation leaves and
the position that it gives, the reading of a signal-log entry, and whether the issue ends the item, closes the segment, or
has the checker compare (R160, R169, R208, R211, R354). -/
structure Deferred where
  writes : List SpadWrite
  seq : Option Sequencer
  pos : Option Position
  popSig : Bool
  ended : Bool
  closes : Bool
  compare : Bool
  rowUpset : Bool
  deriving DecidableEq, Repr, Inhabited

/-- One tile (R27): kernel context, engines, run, segment, survey, privileged state, translation, debug, margins,
inputs, and its clock: the start of its next period in ps of wall time. `checker` holds the checker's copies of
registers, queues and guards where they differ from the tile's (R208), and `shadowCheck` those of the shadow context (R340). -/
structure Tile where
  k : Ctx
  vec : VecState
  streams : Streams
  shapes : Vector (Option Shape) 8
  sems : Sems
  eng : Engines
  mx : Matrix
  spad : Store
  counters : Counters
  run : Option Run
  seg : Segment
  survey : Survey
  priv : Priv
  xlat : Xlat
  dbg : Debug
  margin : Margin
  inp : Inputs
  dfr : Deferred
  checker : Option (Ctx × VecState)
  shadowCheck : Option Ctx
  clock : Nat
  clockRem : Nat
  deriving DecidableEq, Repr, Inhabited

/-! ## Launches -/

/-- A launch record as read (18 Table 18.1). -/
structure LaunchRec where
  image : Nat
  dieMask : BitVec 12
  prio : Nat
  f : Nat
  s : Nat
  g : Nat
  nstage : Nat
  ngate : Nat
  doneEn : Bool
  recEn : Bool
  widths : List Nat
  extents : List Nat
  mailbox : Vector Word 16
  gates : List (Nat × Nat × Nat)
  doneSig : Nat × Nat × Nat
  recAddr : Nat
  tag : BitVec 32
  slice : Nat
  stages : List (Nat × Nat × Nat)
  deriving DecidableEq, Repr, Inhabited

/-- A rank of a gang (R381, R383): where it stands; `gone`: its run has ended and its tile is released; `lost`: it was saved, and has ended as
killed (R359, R384). -/
inductive RankPlace where
  | lost
  | onTile (t : TileNo)
  | saving (t : TileNo) (slot : Nat)
  | saved (slot : Nat)
  | restoring (t : TileNo) (slot : Nat)
  | ended (t : TileNo)
  | gone (t : TileNo)
  deriving DecidableEq, Repr, Inhabited

/-- A gang placed (R370, R378): its number, its ranks in order, when it was placed or resumed, when the last of its ranks became resident
(R374; none before), when its slice
ends (0: none), since when a die halt pauses it (R453), whether its slice has expired (R378), whether its pre-emption has
been ordered, and whether it is asked for. -/
structure Gang where
  index : Nat
  ranks : List RankPlace
  since : Nat
  residentAt : Option Nat
  sliceEnd : Nat
  paused : Option Nat
  expired : Bool
  ordered : Bool
  asked : Bool
  deriving DecidableEq, Repr, Inhabited

/-- How a launch ends early (R375): STATUS, CODE, KILL_CODE, CAUSE, UNIT_KIND, UNIT_PLACE. -/
structure Ending where
  status : Nat
  code : Nat
  killCode : Nat
  cause : Nat
  unitKind : Nat
  unitPlace : Nat
  deriving DecidableEq, Repr, Inhabited

/-- A launch (R363 to R375), in a pool unless it ended before it came there (`pooled`; R368): its pool's die, partition, record and image, whether its gates are
satisfied, the next gang to place, its gangs, the items done, and its times in ns. -/
structure Launch where
  id : Nat
  die : DieNo
  part : PartNo
  record : LaunchRec
  img : Option Image
  order : Nat
  eligible : Bool
  gate : Option LegRef
  nextGang : Nat
  gangs : List Gang
  items : Nat
  itemsDone : Nat
  ending : Option Ending
  pooled : Bool
  heldPreempt : Bool
  preempts : Nat
  sumped : Bool
  raised : Bool
  accept : Nat
  start : Nat
  dirty : List Nat
  hashed : Bool
  divHeld : Bool
  deriving DecidableEq, Repr, Inhabited

/-- A child launch committed and not yet admitted, or standing in a sump (R367, R368). -/
structure Child where
  part : PartNo
  tile : TileNo
  cmd : Nat
  record : List Byte
  deriving DecidableEq, Repr, Inhabited

/-- A signal in flight to a semaphore (R284, R287): target tile, its launch and gang, the sender, the change. -/
structure Signal where
  target : TileNo
  launch : Nat
  gang : Nat
  change : SemChange
  deriving DecidableEq, Repr, Inhabited

/-- A write of the hardware's own, or of a collective result, that is held at a frame being moved (R312, R401): its partition (none: the host's own write, which
no home checks, R437), where it goes, its bytes with their POISON, and the rsends whose payload it is (R314). -/
structure HeldWrite where
  part : Option PartNo
  loc : Loc
  bytes : List (Byte × Bool)
  waiters : List (TileNo × Nat)
  deriving DecidableEq, Repr, Inhabited

/-- A contribution to a collective group (R442): contributor's tile and command (none: another package), place,
group, partition, shape of the round, elements, scope and gating reference. -/
structure Contribution where
  tile : Option (TileNo × Nat)
  place : BitVec 16
  group : Nat
  part : PartNo
  dst : Nat
  rfmt : Nat
  redop : Nat
  data : List Byte
  scope : BitVec 3
  gate : Option LegRef
  at_ : List (Loc × Nat × Nat)
  clk : Nat
  deriving DecidableEq, Repr, Inhabited

/-! ## Partitions, dies, the Gallery die -/

/-- A host queue (18 Table 18.3); `stopped`: since QERR was set no QTAIL write has set it going again (R366). -/
structure Queue where
  base : Nat
  en : Bool
  err : Bool
  stopped : Bool
  die : Nat
  sizeM1 : Nat
  tail : BitVec 32
  head : BitVec 32
  deriving DecidableEq, Repr, Inhabited

/-- Translation and migration registers of a partition (19 Table 19.5); `decayed`: when the counters of each die were last halved, in
ns (R399). -/
structure PartXlat where
  root : Nat
  walkMode : BitVec 2
  migThresh : Nat
  migDecay : Nat
  migMode : BitVec 2
  xlBusy : Bool
  hfillTile : Nat
  hfillEngine : Bool
  missBase : Nat
  missSlotsM1 : Nat
  missHead : BitVec 32
  missStanding : Nat
  migCount : BitVec 32
  migResult : Nat
  migCmd : Option (Nat × Nat)
  decayed : Vector Nat 12
  deriving DecidableEq, Repr, Inhabited

/-- Survey ring, error ring, trace and divergence registers of a partition (17 Table 17.1, 20 R432, 22 Table
22.1); `starts` holds the ring counts at which the reports and pads not yet consumed start (R323). -/
structure PartRings where
  ringBase : Nat
  ringOverwrite : Bool
  ctrsEn : Bool
  ringPages : Nat
  ringHead : Word
  ringTail : Word
  ringDrops : Word
  starts : List (Word × Bool)
  errBase : Nat
  errSlots : Nat
  errHead : Word
  errTail : Word
  errDrops : Word
  traceBase : Nat
  traceMask : BitVec 9
  traceSlots : Nat
  traceHead : Word
  traceDrops : Word
  divStop : Bool
  divMode : BitVec 2
  divLog : Nat
  divRef : Nat
  divRpt : Nat
  divWritten : BitVec 32
  divMissed : BitVec 16
  deriving DecidableEq, Repr, Inhabited

/-- A partition (18 Table 18.3, 20 Table 20.2, R370). -/
structure Part where
  created : Bool
  tiles : BitVec 1152
  cursors : Vector Nat 8
  enable : Bool
  minCoverage : BitVec 2
  ctxBase : Nat
  ctxSlots : Nat
  ctxUsed : List Nat
  gateTile : Nat
  gateIdx : Nat
  queues : Vector Queue 64
  xl : PartXlat
  rings : PartRings
  diverged : Bool
  modeSet : BitVec 2
  fixedMhz : Nat
  triage : Bool
  dbgSel : Nat
  divNext : Nat
  queueTurn : Vector Nat 12
  deriving DecidableEq, Repr, Inhabited

/-- The home-directory entry of a 64 KiB frame (R397, R399), by frame number within its die: owner, WP, counters. -/
structure Frame where
  frame : Nat
  owner : Nat
  wp : Bool
  counts : Vector Nat 12
  deriving DecidableEq, Repr, Inhabited

/-- A migration under way at a die (R401): partition, page, old and new frame (PA), the leaf walked and where it
stands, and whether a host write has reached the frame since it began (R437). -/
structure Migration where
  part : PartNo
  va : Nat
  old : Nat
  new : Nat
  leaf : Word
  leafAddr : Nat
  spoiled : Bool
  deriving DecidableEq, Repr, Inhabited

/-- A pointer entry in a walker's cache (R390): cluster, root, level, index prefix of the address, table address. -/
structure PtrEntry where
  cluster : Nat
  root : Nat
  level : Nat
  prefixVa : Nat
  table : Nat
  deriving DecidableEq, Repr, Inhabited

/-- A compute die; `down`: being reset (R433); `refused`: its firmware was not accepted, so that it stays in reset for the boot (R469);
`measured`: when its governor last measured, in ns (R408); `budgetNow`: the TBUDGET in force since then (R409); `hostSump`: the partitions of the
children that wait in host memory (R447). -/
structure Die where
  gates : Vector (Vector (BitVec 32) 16) 96
  sumpBase : Nat
  sumpSlots : Nat
  sump : List Child
  hostSump : List PartNo
  hostSumpTail : Nat
  freeBase : Nat
  freeSlots : Nat
  freeHead : Nat
  freeCount : Nat
  frames : List Frame
  mig : Option Migration
  refusals : List (BitVec 16 × Nat × Nat × Nat)
  refuseLost : Bool
  refusePa : Nat
  halted : Bool
  walker : List PtrEntry
  nvFallback : Bool
  tileSel : Nat
  replayHi : Nat
  replayLo : Nat
  tbudget : Nat
  budgetNow : Nat
  throttled : Bool
  down : Bool
  refused : Bool
  measured : Nat
  atomicTurn : Vector Nat 12
  deriving DecidableEq, Repr, Inhabited

/-- A UALink port (21 Table 21.3). -/
structure Port where
  up : Bool
  peer : BitVec 5
  retries : BitVec 32
  deriving DecidableEq, Repr, Inhabited

/-- A die link (21 Table 21.3). -/
structure Link where
  up : Bool
  width : BitVec 2
  retrains : BitVec 16
  crcRetries : BitVec 32
  deriving DecidableEq, Repr, Inhabited

/-- A collective group (21 Table 21.3) and its open round (R442): the contributions counted, and those held for
the next round. -/
structure Group where
  num : Nat
  valid : Bool
  part : Nat
  members : Nat
  peers : BitVec 32
  rounds : BitVec 32
  open_ : List Contribution
  held : List Contribution
  deriving DecidableEq, Repr, Inhabited

/-- The Gallery die (21 Table 21.3, 20 R433, R434). The master wall time is `wtBase` at the raw count `wtAt` in ns, and runs from there
`wtPpm` parts per million fast (R445); `wtOffset` is the register. -/
structure Gallery where
  lost : Bool
  pkgId : BitVec 5
  wtLocked : Bool
  wtOffset : Int
  wtBase : Nat
  wtAt : Nat
  wtPpm : Int
  ports : Vector Port 16
  routeSel : Nat
  routes : Vector (BitVec 16) 32
  links : Vector Link 28
  groupSel : Nat
  groups : List Group
  sumpHost : BitVec 12
  contributions : List Contribution
  resetBusy : Bool
  resetWord : Word
  capWatts : Nat
  deriving DecidableEq, Repr, Inhabited

/-- A march launch of boot (24 R476 to R480): its number, its die, the tiles of its ranks in order, and those of them that it tests a second
time, their repair tables having changed. -/
structure March where
  launch : Nat
  die : Nat
  tiles : List TileNo
  again : List TileNo
  deriving DecidableEq, Repr, Inhabited

/-- Boot and security state (24 R469 to R473): the firmware images as stored in flash (Gallery, governor of each
die, handler store), the fused root hash and SVN minima, the service counter; what the physical world lets fail: tiles whose BIST or
handler load fails, links, dies whose NV array or its flash copy fails its check, and rows that BIST finds; whether the NV tables are as
shipped, whether boot has run (`ran`), to its end (`booted`), and with Gallery firmware (`firmwareOk`), the tiles that it excludes, the march
launches of step 7 that are still to complete (R476), and the last attestation report. -/
structure Boot where
  images : List (List Byte)
  rootHash : List Byte
  svnMin : Vector (BitVec 32) 3
  svcCounter : Nat
  bistFail : BitVec 1152
  loadFail : BitVec 1152
  linkFail : BitVec 28
  nvFail : BitVec 12
  flashFail : BitVec 12
  bistRows : List (TileNo × List Nat)
  marches : List March
  nvShipped : Bool
  ran : Bool
  booted : Bool
  firmwareOk : Bool
  excluded : BitVec 1152
  report : List Byte
  deriving DecidableEq, Repr, Inhabited

/-- What the physical world may do to the package outside its tiles (20 Table 20.3, classes 2 and 3): a flit of a link or of a UALink port that
is sent again, and an uncorrectable error in a word of HBM. -/
inductive Physical where
  | linkRetry (l : Fin 28)
  | portRetry (k : Fin 16)
  | hbmWord (pa : Nat)
  deriving DecidableEq, Repr, Inhabited

/-- An issue-time cause that an operation would raise (R345): its place in the order, CAUSE, SUB, SLOT and value, and for the shape trap the
shape register (R113). -/
structure Cand where
  cause : Nat
  sub : Nat
  slot : Nat
  value : Word
  shape : Option Nat := none
  deriving DecidableEq, Repr, Inhabited

/-- What the opaque regions of a context image encode (R350): the parts of a context that the architectural
regions do not show, under the token that stands in the image (log 7). -/
structure Opaque where
  token : Nat
  k : Ctx
  vec : VecState
  streams : Streams
  raisers : Vector (Option Producer) 64
  mx : Matrix
  lag : List Cmd
  nextCmd : Nat
  stepStart : Nat
  stepCycle : Nat
  waits : Waits
  deriving DecidableEq, Repr, Inhabited

/-- The package. `wall` is the master wall-time counter in ps; `mem` and `hostMem` are device and host memory by
physical address; `cur` is the tile that acts; `curSlot`, `curExt` and `curHdr` are the slot, extension and header with
which an operation issues that is named alone; `agenda` names the next events in order, `free` counts the free
values used, and `phys` holds what the physical world still does to the package, with its wall time in ns (the model's own, logs 3, 8, 10). -/
structure State where
  wall : Nat
  tiles : Vector Tile 1152
  parts : Vector Part 16
  dies : Vector Die 12
  gallery : Gallery
  mem : Store
  hostMem : Store
  launches : List Launch
  signals : List Signal
  heldWrites : List HeldWrite
  nextLaunch : Nat
  order : Nat
  turnPart : Vector Nat 12
  boot : Boot
  stopped : Bool
  opaques : List Opaque
  hostData : List Byte
  cur : TileNo
  curSlot : Slot
  curExt : Option Word
  curHdr : Header
  agenda : List (TileNo × Instr)
  free : Nat
  phys : List (Nat × Physical)
  deriving DecidableEq, Repr, Inhabited

/-- Why the machine stops. -/
inductive Fault where
  /-- Raised by the step when the package has been stopped by a class 14 error (20 Table 20.3: the boundary is the
  package, everything stops). Safe: nothing runs on. -/
  | packageStopped
  deriving DecidableEq, Repr, Inhabited

/-- Why an instruction has no meaning. -/
inductive Refusal where
  /-- Raised by the dispatch for an instruction whose meaning has not been written. Safe. -/
  | notModelled (mnemonic : String)
  deriving DecidableEq, Repr, Inhabited

/-! ## Reset -/

/-- A zero word, VALID. -/
def zeroValid : Scalar := { v := 0, tag := .valid }
/-- A zero word, VOID. -/
def zeroVoid : Scalar := { v := 0, tag := .void }

/-- No operation, sticky (R76). -/
def Sticky.nop : Sticky := { op := .nop, ext := none, latch := zeroVoid, stepBy := zeroVoid }

/-- The sequencer at a work item's start (R195), every target at `entry`. -/
def Sequencer.start (entry : Nat) : Sequencer :=
  { loops := [], targets := vrep 4 { addr := BitVec.ofNat 64 entry, p := none }, rets := [] }

/-- A position that issues the bundle at `addr` afresh (R349, MODE 0b00). -/
def Position.fresh (addr : Nat) : Position :=
  { mode := .fresh, addr := addr, issues := 0, waits := 0, bubbles := 0, choice := .fall, depth := 0, safe := false, closes := false,
    boundary := false }

/-- The guards at a work item's start: g0 true, the others false, all VALID (R61, R76). -/
def guardsStart : Vector Guard 16 := vset (vrep 16 { val := false, void := false }) 0 { val := true, void := false }

/-- A context at a work item's start (02 Table 2.2). -/
def Ctx.start (entry : Nat) : Ctx :=
  { n := vrep 32 zeroValid, sq := vrep 16 zeroVoid, g := guardsStart, sticky := vrep 9 Sticky.nop,
    seq := Sequencer.start entry, pos := Position.fresh entry, infl := [], cycle := 0 }

/-- Vector registers, vector queue and masks at a work item's start (02 Table 2.2). -/
def VecState.start : VecState :=
  { v := vrep 16 (vrep 32 { v := 0, tag := .valid }), vq := vrep 16 (vrep 32 { v := 0, tag := .void }),
    m := vset (vrep 8 { vals := 0, voids := 0 }) 0 { vals := BitVec.allOnes 32, voids := 0 } }

/-- No stream bound (02 Table 2.2). -/
def Streams.start (next : Nat) (old : List Stream) : Streams := { regs := vrep 8 none, old := old, next := next, seq := 0 }

/-- The matrix configuration at reset (11 Tables 11.2 to 11.4). -/
def MxCfg.reset : MxCfg :=
  { nest := vrep 6 { bound := 1, astr := 0, bstr := 0, accstr := 0, sastr := 0, sbstr := 0, rowstr := 0, colstr := 0 },
    base := vrep 11 0, afmt := 4, bfmt := 4, rowsM1 := 63, accSrc := false, abmp := 0, bbmp := 0,
    abmpOn := false, bbmpOn := false, sdiag := none }

/-- The matrix engine at a work item's start, with the accumulator it carries (R242). -/
def Matrix.start (acc : Acc) : Matrix :=
  { cfg := MxCfg.reset, acc := acc, queue := [], shadowNext := 0, fb := 0, i := 0, cyc := 0, lastDense := false, next := 0 }

/-- Counters at zero (R175, 02 Table 2.3). -/
def Counters.zero : Counters := { sets := vrep 7 (vrep 29 0), replays := 0, freeze := vrep 7 0 }

/-- Semaphores when a run becomes resident (R374). -/
def Sems.zero : Sems := { cnt := vrep 64 0, raiser := vrep 64 none, overflow := 0, pend := [] }

/-- The segment state of a tile with no segment open. -/
def Segment.reset : Segment :=
  { mode := .run, careful := false, reached := false, number := 0, entryAddr := 0, entryCycle := 0, safeMark := 0, doubles := 0, pendingEntry := false,
    freezeLeft := 0, heldCount := 0, undo := [], overflow := false, chk := none, lowered := [], clkSince := 0, events := 0,
    firstEvent := none, recorded := none, pendEvents := [], verdict := none, fatal := none, rewinds := 0, lastVerdict := 0,
    lastCause := 0, lastUnit := 0, legs := [], marks := [], trace := [] }

/-- Engine-fault registers at reset (R341). -/
def EfRegs.reset : EfRegs :=
  { kind := 0, handler := false, va := 0, addr := 0, cycle := 0, detail := 0, reqTag := 0, standing := false }

/-- Privileged state at reset (17 Table 17.1). -/
def Priv.reset : Priv :=
  { ctxState := 0b11, shadow := Ctx.start 0, handlers := [],
    trap := { cause := 0, sub := 0, slot := 0, async := false, value := 0, addr := 0, cycle := 0 },
    wdogEn := false, debugArmed := false, earlyTrap := false, wdogLimit := 0, wdogNs := 0, waitSem := none, active := false,
    walkEntry := false, rftDone := false, after := [], async := [], sigLog := [],
    sigLost := false, sigCount := 0, ef := EfRegs.reset, ectl := [], hfault := 0, parked := false, faultTold := false,
    errTrapEn := false, saving := none }

/-- Nothing put off. -/
def Deferred.none : Deferred :=
  { writes := [], seq := Option.none, pos := Option.none, popSig := false, ended := false, closes := false, compare := false, rowUpset := false }

/-- Debug state at reset (22 Table 22.1). -/
def Debug.reset : Debug :=
  { stopKind := 0, stopValue := 0, stopAddr := 0, stopCycle := 0, askStop := false, askHalt := false, single := false,
    skip := false, brkCode := none, dump := 0, comps := vrep 4 { en := false, cyc := false, addr := 0, cycle := 0 } }

/-- No wait. -/
def Waits.none : Waits :=
  { semClk := 0, streamClk := 0, sem := Option.none, xw := Option.none, read := Option.none, write := Option.none }

/-- A tile after power-on, before boot: empty, with VOLT_MV, PERIOD_PS and STATE at their reset values, zero (R412; a clock of 0 MHz
is one that has not been set), until boot sets fixed mode (R469); the registers the manual keeps over reset hold zero (log 6). -/
def Tile.reset : Tile :=
  { k := Ctx.start 0, vec := VecState.start, streams := Streams.start 0 [], shapes := vrep 8 none, sems := Sems.zero,
    eng := { lag := [], held := [], released := [], queue := [], next := 0 },
    mx := Matrix.start { vals := [], poison := [] }, spad := { bytes := [], poison := [] }, counters := Counters.zero,
    run := none, seg := Segment.reset,
    survey := { legs := [], next := 0, waits := Waits.none, stepStart := 0, stepCycle := 0, due := [] },
    priv := Priv.reset,
    xlat := { streamTlb := [], copyTlb := [], streamMiss := none, copyMiss := none, walkVa := 0, walkInfo := 0,
              walkPaddr := 0, walkPending := false, walkData := 0 },
    dbg := Debug.reset,
    margin := { mode := 0, mhz := 0, mv := 0, floor := 0, state := 0, before := 0, rate := 0, replays := 0,
                clks := 0, transients := [], highRuns := 0, repair := vrep 16 0, curve := [], drift := [] },
    inp := { replays := [], stretch := [], checkerLate := [], upsets := [], stuck := [], stuckRegs := [], transit := [] },
    dfr := Deferred.none, checker := none, shadowCheck := none, clock := 0, clockRem := 0 }

/-- A partition before it is created (R364, R440). -/
def Part.reset : Part :=
  { created := false, tiles := 0, cursors := vrep 8 0, enable := false, minCoverage := 0, ctxBase := 0, ctxSlots := 0,
    ctxUsed := [], gateTile := 0, gateIdx := 0,
    queues := vrep 64 { base := 0, en := false, err := false, stopped := false, die := 0, sizeM1 := 0, tail := 0, head := 0 },
    xl := { root := 0, walkMode := 0, migThresh := 0, migDecay := 0, migMode := 0, xlBusy := false, hfillTile := 0,
            hfillEngine := false, missBase := 0, missSlotsM1 := 0, missHead := 0, missStanding := 0, migCount := 0,
            migResult := 0, migCmd := none, decayed := vrep 12 0 },
    rings := { ringBase := 0, ringOverwrite := false, ctrsEn := false, ringPages := 0, ringHead := 0, ringTail := 0,
               ringDrops := 0, starts := [], errBase := 0, errSlots := 0, errHead := 0, errTail := 0, errDrops := 0,
               traceBase := 0, traceMask := 0, traceSlots := 0, traceHead := 0, traceDrops := 0, divStop := false,
               divMode := 0, divLog := 0, divRef := 0, divRpt := 0, divWritten := 0, divMissed := 0 },
    diverged := false, modeSet := 0, fixedMhz := 1300, triage := false, dbgSel := 0, divNext := 0, queueTurn := vrep 12 0 }

/-- A die after power-on: thresholds as at shipment (R409), pool empty, no frame owned (R397). -/
def Die.reset : Die :=
  { gates := vrep 96 (vrep 16 0), sumpBase := 0, sumpSlots := 0, sump := [], hostSump := [], hostSumpTail := 0,
    freeBase := 0, freeSlots := 0, freeHead := 0, freeCount := 0, frames := [], mig := none, refusals := [], refuseLost := false,
    refusePa := 0, halted := false, walker := [], nvFallback := false, tileSel := 0, replayHi := 2000,
    replayLo := 250, tbudget := 12, budgetNow := 12, throttled := false, down := false, refused := false, measured := 0, atomicTurn := vrep 12 0 }

/-- The Gallery die after power-on (21 Table 21.3). -/
def Gallery.reset : Gallery :=
  { lost := false, pkgId := 0, wtLocked := false, wtOffset := 0, wtBase := 0, wtAt := 0, wtPpm := 0,
    ports := vrep 16 { up := false, peer := 0, retries := 0 }, routeSel := 0, routes := vrep 32 0,
    links := vrep 28 { up := false, width := 0, retrains := 0, crcRetries := 0 }, groupSel := 0, groups := [],
    sumpHost := 0, contributions := [], resetBusy := false, resetWord := 0, capWatts := 4600 }

/-- Boot state before power-up: flash and fuses as shipped (log 9), nothing failing. -/
def Boot.reset : Boot :=
  { images := Config.flashImages, rootHash := Config.rootHash, svnMin := vmk 3 Config.svnMin, svcCounter := 0, bistFail := 0,
    loadFail := 0, linkFail := 0, nvFail := 0, flashFail := 0, bistRows := [], marches := [], nvShipped := true, ran := false, booted := false,
    firmwareOk := false, excluded := 0, report := [] }

/-- The package right after reset: nothing resident, memory with nothing listed, boot still to run. -/
def State.reset : State :=
  { wall := 0, tiles := vrep 1152 Tile.reset, parts := vrep 16 Part.reset, dies := vrep 12 Die.reset,
    gallery := Gallery.reset, mem := { bytes := [], poison := [] }, hostMem := { bytes := [], poison := [] },
    launches := [], signals := [], heldWrites := [], nextLaunch := 0, order := 0, turnPart := vrep 12 0, boot := Boot.reset,
    stopped := false, opaques := [], hostData := [], cur := 0, curSlot := .s0, curExt := none, curHdr := Header.ofWord 0x1C000001,
    agenda := [], free := 0, phys := [] }

end Sys2Proof.Machine
end

