-- ==== Sys2Proof/Machine/Ops.lean ====
section
/-! DEFINITION. The named operations over the state: memories and their POISON, the clock of a tile and its freezes,
arrivals, semaphores, scratchpad writes with the undo log, and the taking of a trap and the return from one. -/
namespace Sys2Proof.Machine

/-! ## Memories -/

/-- The byte at an address; what is not listed reads zero (log 5). -/
def readCell : List Host.Cell → Nat → Byte
  | [], _ => 0
  | (a, b) :: rest, x => if x = a then b else if x < a then 0 else readCell rest x

/-- Write a byte, keeping addresses rising and no zero listed. -/
def writeCell : List Host.Cell → Nat → Byte → List Host.Cell
  | [], x, v => if v = 0 then [] else [(x, v)]
  | (a, b) :: rest, x, v =>
    if x < a then (if v = 0 then (a, b) :: rest else (x, v) :: (a, b) :: rest)
    else if x = a then (if v = 0 then rest else (x, v) :: rest)
    else (a, b) :: writeCell rest x v

/-- Bytes from an address on. -/
def readCells (m : List Host.Cell) (a n : Nat) : List Byte := (List.range n).map fun k => readCell m (a + k)

/-- Write bytes from an address on. -/
def writeCells (m : List Host.Cell) (a : Nat) : List Byte → List Host.Cell
  | [] => m
  | b :: bs => writeCells (writeCell m a b) (a + 1) bs

/-- The canonical form of listed bytes: addresses strictly rising, all at or above `lo`, no zero listed. -/
def cellsWf : Nat → List Host.Cell → Bool
  | _, [] => true
  | lo, (a, b) :: rest => decide (lo ≤ a) && decide (b ≠ 0) && cellsWf (a + 1) rest

/-- A set of numbers in rising order: insertion. -/
def insertNat : List Nat → Nat → List Nat
  | [], x => [x]
  | a :: rest, x => if x < a then x :: a :: rest else if x = a then a :: rest else a :: insertNat rest x

/-- A set of numbers in rising order: removal. -/
def removeNat (l : List Nat) (x : Nat) : List Nat := l.filter (fun a => a ≠ x)

/-- The canonical form of a set of numbers: strictly rising, all at or above `lo`. -/
def natsWf : Nat → List Nat → Bool
  | _, [] => true
  | lo, a :: rest => decide (lo ≤ a) && natsWf (a + 1) rest

/-- The canonical form of a memory (log 5). -/
def Store.wf (s : Store) : Bool := cellsWf 0 s.bytes && natsWf 0 s.poison

/-- Bytes of a memory. -/
def Store.read (s : Store) (a n : Nat) : List Byte := readCells s.bytes a n

/-- A little-endian number in a memory (R10). -/
def Store.readLe (s : Store) (a n : Nat) : Nat := leNat (s.read a n)

/-- Whether a byte lies in a poisoned 8-byte word (R215, R299). -/
def Store.poisoned (s : Store) (a : Nat) : Bool := s.poison.contains (a / 8)

/-- Whether any of `n` bytes from `a` on lies in a poisoned word. -/
def Store.anyPoison (s : Store) (a n : Nat) : Bool := (List.range n).any fun k => s.poisoned (a + k)

/-- The first poisoned word among `n` bytes from `a` on, by its address. -/
def Store.firstBad (s : Store) (a n : Nat) : Nat := (a + ((List.range n).find? fun k => s.poisoned (a + k)).getD 0) / 8 * 8

/-- The tag of `n` bytes that are read from a store whose poisoned words are charged to a unit (R215, R299). -/
def Store.tagOf (s : Store) (unit a n : Nat) : Tag :=
  if s.anyPoison a n then .poison { unit := unit, place := s.firstBad a n } else .valid

/-- Write bytes, leaving POISON as it stands. -/
def Store.write (s : Store) (a : Nat) (bs : List Byte) : Store := { s with bytes := writeCells s.bytes a bs }

/-- Set or clear the POISON of a word. -/
def Store.setPoison (s : Store) (word : Nat) (p : Bool) : Store :=
  { s with poison := if p then insertNat s.poison word else removeNat s.poison word }

/-- Write bytes one cell at a time, in order. -/
def Store.writeCells (s : Store) (cs : List Host.Cell) : Store :=
  { s with bytes := cs.foldl (fun m c => writeCell m c.1 c.2) s.bytes }

/-- The words whose eight bytes a list of cells all writes (R215). -/
def fullWords (cs : List Host.Cell) : List Nat :=
  ((cs.map (fun c => c.1 / 8)).eraseDups).filter fun w =>
    (List.range 8).all fun k => cs.any fun c => c.1 = 8 * w + k

/-- A write of one operation (R215): its bytes, the POISON of words wholly written cleared, its own POISON set. -/
def Store.apply (s : Store) (w : SpadWrite) : Store :=
  let s1 := s.writeCells w.cells
  let s2 := (fullWords w.cells).foldl (fun st k => if st.poison.contains k then st.setPoison k false else st) s1
  w.poison.foldl (fun st k => st.setPoison k true) s2

/-- Write valid bytes as one operation. -/
def Store.put (s : Store) (a : Nat) (bs : List Byte) : Store :=
  s.apply { cells := (List.range bs.length).zip bs |>.map (fun p => (a + p.1, p.2)), poison := [] }

/-! ## The package -/

/-- A tile. -/
def State.tile (s : State) (t : TileNo) : Tile := vget s.tiles t.val
/-- The acting tile. -/
def State.me (s : State) : Tile := s.tile s.cur
/-- Replace a tile. -/
def State.setTile (s : State) (t : TileNo) (x : Tile) : State := { s with tiles := vset s.tiles t.val x }
/-- Replace the acting tile. -/
def State.setMe (s : State) (x : Tile) : State := s.setTile s.cur x
/-- Change the acting tile. -/
def State.mapMe (s : State) (f : Tile → Tile) : State := s.setMe (f s.me)
/-- A partition. -/
def State.part (s : State) (p : PartNo) : Part := vget s.parts p.val
/-- Replace a partition. -/
def State.setPart (s : State) (p : PartNo) (x : Part) : State := { s with parts := vset s.parts p.val x }
/-- A die. -/
def State.die (s : State) (d : Nat) : Die := vget s.dies d
/-- Replace a die. -/
def State.setDie (s : State) (d : Nat) (x : Die) : State := { s with dies := vset s.dies d x }
/-- The die of a tile (R23). -/
def dieOf (t : TileNo) : Nat := t.val / 96
/-- The cluster of a tile within its die (R23). -/
def clusterOf (t : TileNo) : Nat := t.val / 8 % 12
/-- The die of the acting tile. -/
def State.myDie (s : State) : Nat := dieOf s.cur
/-- A physical tile number from a number (R23). -/
def tileNo (n : Nat) : TileNo := Fin.ofNat 1152 n
/-- The place of a tile (R319). -/
def State.place (s : State) (t : TileNo) : BitVec 16 := s.gallery.pkgId ++ (BitVec.ofNat 11 t.val)
/-- The raw count of the wall-time counter in ns. -/
def State.ns (s : State) : Nat := s.wall / 1000
/-- The master wall time at a raw count in ns, its rate slewed by the discipline (R445). -/
def State.master (s : State) (raw : Nat) : Nat :=
  let g := s.gallery
  if raw < g.wtAt then g.wtBase - (g.wtAt - raw)
  else g.wtBase + (((raw - g.wtAt : Nat) : Int) * (1000000 + g.wtPpm) / 1000000).toNat
/-- The master wall time now. -/
def State.masterNow (s : State) : Nat := s.master s.ns
/-- The launch of an identifier. -/
def State.launch (s : State) (id : Nat) : Option Launch := s.launches.find? (fun l => l.id = id)
/-- Change the launch of an identifier. -/
def State.mapLaunch (s : State) (id : Nat) (f : Launch → Launch) : State :=
  { s with launches := s.launches.map fun l => if l.id = id then f l else l }
/-- Whether the host reaches the package: its link is released (R469), and the Gallery die stands (R434). -/
def State.hostUp (s : State) : Bool := s.boot.booted && !s.gallery.lost
/-- Whether the host reaches the window of a partition (R440). -/
def State.window (s : State) (p : PartNo) : Bool := s.hostUp && (s.part p).created
/-- The partition of the acting tile's run, else of the partition that holds the tile, else 0. -/
def State.partOf (s : State) (t : TileNo) : PartNo :=
  match (s.tile t).run with
  | some r => r.part
  | none => Fin.ofNat 16 (((List.range 16).find? fun p =>
      (vget s.parts p).created && (vget s.parts p).tiles.getLsbD t.val).getD 0)

/-- The context that issues: the shadow context while a handler runs, else the kernel's (R340). -/
def Tile.ctx (t : Tile) : Ctx := if t.priv.active then t.priv.shadow else t.k
/-- Replace the context that issues. -/
def Tile.setCtx (t : Tile) (c : Ctx) : Tile :=
  if t.priv.active then { t with priv := { t.priv with shadow := c } } else { t with k := c }
/-- The image of the run on a tile; without one, an image that declares nothing. -/
def Tile.img (t : Tile) : Image := (t.run.map Run.img).getD default
/-- The number of active loop levels (R175). -/
def Ctx.depth (c : Ctx) : Nat := c.seq.loops.length

/-- A trace record made in the open segment (R454, R455), about an operation of a segment. -/
def Tile.traceAdd (t : Tile) (kind obj addr cycle info segNo : Nat) : Tile :=
  { t with seg := { t.seg with trace := t.seg.trace ++
    [{ wall := t.clock / 1000, kind := kind, obj := obj, addr := addr, cycle := cycle, info := info, segNo := segNo }] } }

/-- The two trace records of a wait that is satisfied (R454; log 39: a wait that never froze starts where it ends). -/
def Tile.traceWait (t : Tile) (w : Station) (obj addr cycle : Nat) : Tile :=
  let rec_ := fun (kind wall : Nat) =>
    ({ wall := wall, kind := kind, obj := obj, addr := addr, cycle := cycle, info := t.survey.waits.semClk, segNo := t.seg.number } : TraceRec)
  { t with seg := { t.seg with trace := t.seg.trace ++ [rec_ 5 w.began, rec_ 6 w.till] } }

/-! ## Counters and the clock (R30 to R35, R175) -/

/-- A counter of R175 stops at 2^48 - 1. -/
def bump48 (n k : Nat) : Nat := if n + k < 2 ^ 48 then n + k else 2 ^ 48 - 1

/-- Add to counter `i` of the set of a depth. -/
def Counters.bump (c : Counters) (depth i k : Nat) : Counters :=
  { c with sets := vset c.sets depth (vset (vget c.sets depth) i (bump48 (vget (vget c.sets depth) i) k)) }

/-- Charge `k` frozen clock periods to a cause 0 (trap) to 6 (semaphore wait), at a depth (R34, R175). -/
def Counters.freezeBy (c : Counters) (cause depth k : Nat) : Counters :=
  { c.bump depth (21 + cause) k with freeze := vset c.freeze cause (vget c.freeze cause + k) }

/-- The nominal clock of a tile in MHz (R405): lowered, by an amount the manual leaves open, while its die is too hot or a power cap
stands (R473; log 17). -/
def State.mhzOf (s : State) (t : TileNo) : Nat :=
  let m := (s.tile t).margin.mhz
  if (s.die (dieOf t)).throttled ∨ s.gallery.capWatts < 4600 then max 1 (min m (Config.loweredMhz t.val m)) else m

/-- One change of semaphore `k` by the changes of a clock period (R75): the count, and whether it saturated. -/
def semNet (cnt : BitVec 32) (cs : List SemOp) : BitVec 32 × Bool :=
  let base := cs.foldl (fun b c => match c with | .init v => v | _ => b) cnt.toNat
  let up := cs.foldl (fun a c => match c with | .raise n => a + n | _ => a) 0
  let down := cs.foldl (fun a c => match c with | .lower n => a + n | _ => a) 0
  let net : Int := (base : Int) + up - down
  if net > 0xFFFFFFFF then (BitVec.allOnes 32, true) else if net < 0 then (0, false) else (BitVec.ofNat 32 net.toNat, false)

/-- Whether a change is taken before another of the same clock period (R316): in ascending place, and for one place in issue order. -/
def SemChange.before (a b : SemChange) : Bool :=
  let place := fun (c : SemChange) => (c.prod.map fun (p : Producer) => p.place.toNat).getD 0
  let pa : Nat := place a
  let pb : Nat := place b
  decide (pa < pb) || (decide (pa = pb) && decide (a.order < b.order))

/-- The change among those of a clock period that is taken last (R316); a decrement is none. -/
def lastChange (cs : List SemChange) : Option SemChange :=
  cs.foldl (fun best c => match c.op, c.prod, best with
    | .lower _, _, _ => best
    | _, none, _ => best
    | _, some _, some b => if c.before b then best else some c
    | _, some _, none => some c) none

/-- The last raiser after the changes of a period (R316). -/
def lastRaiser (old : Option Producer) (cs : List SemChange) : Option Producer :=
  match lastChange cs with
  | some c => c.prod
  | none => old

/-- Apply the semaphore changes of the clock period that ends (R75). -/
def Sems.settle (m : Sems) : Sems :=
  (m.pend.map SemChange.sem).eraseDups.foldl (fun (acc : Sems) k =>
    let cs := m.pend.filter (fun c => c.sem = k)
    let r := semNet (vget m.cnt k) (cs.map SemChange.op)
    { acc with cnt := vset acc.cnt k r.1, raiser := vset acc.raiser k (lastRaiser (vget m.raiser k) cs),
               overflow := if r.2 then acc.overflow ||| (1 <<< k) else acc.overflow }) { m with pend := [] }

/-- One clock period of a tile passes (R35, R75, R255): its clock moves on by a nominal period and any stretch
(none in fixed mode, R405, or from a rewind to the next segment entry, R425), the semaphore changes of the period apply, a sparse operation counts down, and a late checker copy comes nearer. -/
def Tile.tick (t : Tile) (mhz : Nat) : Tile :=
  let m := if mhz = 0 then 1 else mhz
  let total := t.clockRem + 1000000
  { t with
    clock := t.clock + total / m + (if t.seg.careful ∨ t.margin.mode = 1 then 0 else t.inp.stretch.headD 0), clockRem := total % m,
    inp := { t.inp with stretch := t.inp.stretch.tail },
    sems := if t.sems.pend.isEmpty then t.sems else t.sems.settle,
    mx := { t.mx with queue := t.mx.queue.map fun c => { c with clkLeft := c.clkLeft.map (· - 1) } },
    eng := { t.eng with lag := match t.eng.lag with
      | [] => []
      | c :: cs => { c with late := c.late - 1 } :: cs },
    margin := { t.margin with clks := t.margin.clks + 1 },
    seg := { t.seg with clkSince := t.seg.clkSince + 1 } }

/-- A clock period of the acting tile passes, and wall time with it. -/
def State.tickMe (s : State) : State :=
  let t := s.me.tick (s.mhzOf s.cur)
  { s.setMe t with wall := max s.wall s.me.clock }

/-- A frozen clock period of the acting tile's kernel, charged to a cause at a loop depth (R31, R34, R175). -/
def State.freezeAt (s : State) (cause depth : Nat) : State :=
  (s.mapMe fun t => { t with counters := t.counters.freezeBy cause depth 1 }).tickMe

/-- A frozen clock period before an issue, charged to a cause at the depth in force (R31, R34, R175). -/
def State.freezeMe (s : State) (cause : Nat) : State := s.freezeAt cause (min s.me.k.depth 6)

/-! ## Arrivals (R50 to R53, R62, R63) -/

/-- Push a word into a window (R51, R101). -/
def pushWindow {α : Type} [Inhabited α] (w : Vector α 16) (x : α) : Vector α 16 :=
  vmk 16 fun k => if k = 0 then x else vget w (k - 1)

/-- A VOID or POISON word carries the value zero when VOID (R57, R101). -/
def Scalar.norm (x : Scalar) : Scalar := if x.tag = .void then zeroVoid else x

/-- Write a named guard; g0 discards it (R61). -/
def Ctx.setGuard (c : Ctx) (k : Nat) (x : Guard) : Ctx := if k = 0 then c else { c with g := vset c.g k x }

/-- Write a mask; m0 discards it (R63). -/
def VecState.setMask (v : VecState) (k : Nat) (x : Mask) : VecState := if k = 0 then v else { v with m := vset v.m k x }

/-- Fill a reserved position of a write stream (R66). -/
def Stream.fill (st : Stream) (pos : Nat) (e : Elem) : Stream :=
  { st with queue := st.queue.map fun r => if r.pos = pos then { r with val := some e } else r }

/-- Change the stream of a binding number, bound or still draining. -/
def Streams.mapSerial (ss : Streams) (serial : Nat) (f : Stream → Stream) : Streams :=
  { ss with
    regs := vmk 8 fun k => (vget ss.regs k).map fun st => if st.serial = serial then f st else st,
    old := ss.old.map fun st => if st.serial = serial then f st else st }

/-- The stream of a binding number. -/
def Streams.find (ss : Streams) (serial : Nat) : Option Stream :=
  match (vlist ss.regs).filterMap id |>.find? (fun st => st.serial = serial) with
  | some st => some st
  | none => ss.old.find? (fun st => st.serial = serial)

/-- The element that a result puts into a write stream. -/
def Result.elem : Result → Option Elem
  | .scalar x _ => some (.scalar x)
  | .vector x _ | .vectorPush x _ => some (.vector x)
  | _ => none

/-- One result arrives at a context (R50): its push, its named register, its guards. -/
def Ctx.arrive (c : Ctx) (r : Result) : Ctx :=
  match r with
  | .scalar x d =>
    let c1 := { c with sq := pushWindow c.sq x }
    if d.toNat < 32 then { c1 with n := vset c1.n d.toNat x } else c1
  | .guards j e o => (c.setGuard (2 * j) e).setGuard (2 * j + 1) o
  | _ => c

/-- One result arrives at the vector state (R50, R63). -/
def VecState.arrive (v : VecState) (r : Result) : VecState :=
  match r with
  | .vector x d =>
    let v1 := { v with vq := pushWindow v.vq x }
    if d.toNat < 16 then { v1 with v := vset v1.v d.toNat x } else v1
  | .vectorPush x _ => { v with vq := pushWindow v.vq x }
  | .masks j vals voids =>
    (v.setMask (2 * j) { vals := vals &&& ~~~voids, voids := voids }).setMask (2 * j + 1)
      { vals := ~~~vals &&& ~~~voids, voids := voids }
  | _ => v

/-- One result of the kernel arrives at the tile. -/
def Tile.arriveOne (t : Tile) (e : InFlight) : Tile :=
  let t1 := { t with k := t.k.arrive e.res, vec := t.vec.arrive e.res }
  let t2 := match e.res with
    | .bind h snap => { t1 with shapes := vset t1.shapes h (some snap) }
    | .unbind h => { t1 with shapes := vset t1.shapes h none }
    | _ => t1
  match e.place, e.res.elem with
  | some (serial, pos), some x => { t2 with streams := t2.streams.mapSerial serial fun st => st.fill pos x }
  | _, _ => t2

/-- The order of pushes (R51): end cycle, then slot, then issue. -/
def InFlight.before (a b : InFlight) : Bool :=
  if a.last ≠ b.last then decide (a.last < b.last)
  else if a.slot.idx ≠ b.slot.idx then decide (a.slot.idx < b.slot.idx)
  else decide (a.issued ≤ b.issued)

/-- Insertion into a list in the order of pushes. -/
def insertFlight (e : InFlight) : List InFlight → List InFlight
  | [] => [e]
  | x :: xs => if e.before x && !(x.before e && e.issued ≥ x.issued) then e :: x :: xs else x :: insertFlight e xs

/-- Results in the order of pushes. -/
def sortFlight (l : List InFlight) : List InFlight := l.foldl (fun acc e => insertFlight e acc) []

/-- Whether an unbind of the list discards a bind in flight (R109). -/
def discarded (unb : List (Nat × Nat)) (e : InFlight) : Bool :=
  match e.res with
  | .bind h _ => unb.any fun u => u.1 = h && decide (e.issued ≤ u.2)
  | _ => false

/-- The unbinds among results, by shape register and issue cycle (R109). -/
def unbinds (l : List InFlight) : List (Nat × Nat) :=
  l.filterMap fun e => match e.res with | .unbind h => some (h, e.issued) | _ => none

/-- The results whose latency has ended before the current schedule cycle arrive, in order (R50, R51). -/
def Tile.arrivals (t : Tile) : Tile :=
  let unb := unbinds (t.k.infl.filter fun e => e.last < t.k.cycle)
  let live := t.k.infl.filter fun e => !discarded unb e
  let due := sortFlight (live.filter fun e => e.last < t.k.cycle)
  let rest := live.filter fun e => !decide (e.last < t.k.cycle)
  let t0 := { t with k := { t.k with infl := rest } }
  let t1 := due.foldl Tile.arriveOne t0
  match t1.checker with
  | none => t1
  | some (ck, cv) =>
    let cdue := sortFlight (ck.infl.filter fun e => e.last < t.k.cycle)
    let c0 := { ck with infl := ck.infl.filter fun e => !decide (e.last < t.k.cycle) }
    let c1 := cdue.foldl (fun (p : Ctx × VecState) e => (p.1.arrive e.res, p.2.arrive e.res)) (c0, cv)
    { t1 with checker :=
        if c1.1.n = t1.k.n ∧ c1.1.sq = t1.k.sq ∧ c1.1.g = t1.k.g ∧ c1.2 = t1.vec ∧ c1.1.infl = t1.k.infl
        then none else some c1 }

/-- The results of a context whose latency has ended before a cycle arrive at its registers, in order. -/
def Ctx.arrivals (c : Ctx) (cycle : Nat) : Ctx :=
  (sortFlight (c.infl.filter fun e => e.last < cycle)).foldl (fun x e => x.arrive e.res)
    { c with infl := c.infl.filter fun e => !decide (e.last < cycle) }

/-- The results of the shadow context whose latency has ended arrive (R338), and those of the checker's copy, which is dropped once it agrees
(R340). -/
def Tile.shadowArrivals (t : Tile) : Tile :=
  let c := t.priv.shadow
  let shadow := c.arrivals c.cycle
  { t with
    priv := { t.priv with shadow := shadow },
    shadowCheck := match t.shadowCheck with
      | none => none
      | some k =>
        let k1 := k.arrivals c.cycle
        if k1.n = shadow.n ∧ k1.sq = shadow.sq ∧ k1.g = shadow.g ∧ k1.infl = shadow.infl then none else some k1 }

/-! ## Scratchpad writes and the undo log (R420 to R422) -/

/-- The aligned 64-byte lines that a write touches. -/
def SpadWrite.lines (w : SpadWrite) : List Nat :=
  ((w.cells.map (fun (c : Host.Cell) => c.1 / 64)) ++ w.poison.map (fun p => p / 8)).eraseDups

/-- Log a line before a scheduled write (R420, R422). -/
def Tile.logLine (t : Tile) (line : Nat) : Tile :=
  let g := t.seg
  if g.mode = .unprot ∨ g.overflow ∨ g.undo.any (fun u => u.line = line) then t
  else if g.undo.length < 256 then
    { t with seg := { g with undo := g.undo ++
        [{ line := line, bytes := t.spad.read (64 * line) 64,
           poison := (List.range 8).map fun k => t.spad.poison.contains (8 * line + k) }] } }
  else { t with seg := { g with overflow := true, mode := if g.mode = .run then .unprot else g.mode } }

/-- The stuck bits of a tile's scratchpad whose row no spare serves (24 R474, R475). -/
def Tile.stuckBits (t : Tile) : List (Nat × Bool) :=
  t.inp.stuck.filter fun b => !(vlist t.margin.repair).any fun e => e.getLsbD 15 && decide (bitsNat e 11 0 = b.1 / 16384)

/-- A byte as a scratchpad takes it of which some bits are stuck (24 R479). -/
def stuckByte (bits : List (Nat × Bool)) (a : Nat) (v : Byte) : Byte :=
  bits.foldl (fun (v : Byte) b =>
    if b.1 / 8 = a then (if b.2 then v ||| (1#8 <<< (b.1 % 8)) else v &&& ~~~(1#8 <<< (b.1 % 8))) else v) v

/-- A write as a scratchpad takes it of which some bits are stuck. -/
def SpadWrite.stuck (w : SpadWrite) (bits : List (Nat × Bool)) : SpadWrite :=
  { w with cells := w.cells.map fun c => (c.1, stuckByte bits c.1 c.2) }

/-- A scheduled write takes effect, logged (R160, R420). -/
def Tile.scheduledWrite (t : Tile) (w : SpadWrite) : Tile :=
  let t1 := w.lines.foldl Tile.logLine t
  { t1 with spad := t1.spad.apply (w.stuck t.stuckBits) }

/-- A write of the handler (R338): logged where it falls on the kernel's bytes, those that its image declares (R420). -/
def Tile.handlerWrite (t : Tile) (w : SpadWrite) : Tile :=
  let t1 := (w.lines.filter fun l => decide (64 * l < t.img.scratch)).foldl Tile.logLine t
  { t1 with spad := t1.spad.apply (w.stuck t.stuckBits) }

/-- The part of a write that falls on an undo entry's line, applied to its old bytes (R421). -/
def Undo.apply (u : Undo) (w : SpadWrite) : Undo :=
  { u with
    bytes := (List.range 64).map fun k =>
      ((w.cells.reverse.find? fun (c : Host.Cell) => c.1 = 64 * u.line + k).map (·.2)).getD (u.bytes.getD k 0),
    poison := (List.range 8).map fun k =>
      if w.poison.contains (8 * u.line + k) then true
      else if (List.range 8).all fun j => w.cells.any fun c => c.1 = 64 * u.line + 8 * k + j then false
      else u.poison.getD k false }

/-- An engine write takes effect, on the scratchpad and on the undo log (R421). -/
def Tile.engineWrite (t : Tile) (w : SpadWrite) : Tile :=
  let w1 := w.stuck t.stuckBits
  { t with spad := t.spad.apply w1, seg := { t.seg with undo := t.seg.undo.map fun u => u.apply w1 } }

/-! ## Taking a trap and returning (R343, R348, R349, R352, R360) -/

/-- A clock period of a tile while a trap stands: charged to the trap cause, under a firmware walk to the translation
miss, and to no cause while the kernel context is saved or empty (R79, R348, R352). -/
def Tile.chargeTrap (t : Tile) : Tile :=
  if t.priv.walkEntry then { t with counters := t.counters.freezeBy 4 (min t.k.depth 6) 1 }
  else if t.priv.ctxState.toNat < 2 then { t with counters := t.counters.freezeBy 0 (min t.k.depth 6) 1 }
  else t

/-- `n` clock periods of the acting tile while a trap stands. -/
def State.trapTicks : Nat → State → State
  | 0, s => s
  | n + 1, s => State.trapTicks n (s.mapMe Tile.chargeTrap).tickMe

/-- The shadow context starts a handler (R337, R343): the state of Table 2.2 but for its scalar registers, at
offset 64 × CAUSE of the handler store. -/
def Tile.enterHandler (t : Tile) (cause : Nat) : Tile :=
  { t with
    priv := { t.priv with
      shadow := { Ctx.start (64 * cause) with n := t.priv.shadow.n },
      active := true, rftDone := false, walkEntry := decide (cause = 0x30) },
    shadowCheck := t.shadowCheck.map fun c => { Ctx.start (64 * cause) with n := c.n } }

/-- The trap registers and CTX_STATE as a cause leaves them (R348, R343, R352): the restore request leaves CTX_STATE
at 0b11, and the firmware walk writes no trap register. -/
def Tile.trapState (t : Tile) (r : TrapRegs) : Tile :=
  { t with priv := { t.priv with
      trap := if r.cause = 0x30 then t.priv.trap else r,
      ctxState := if r.cause = 0x24 then t.priv.ctxState else 0b01 } }

/-- Take a cause (R348): the kernel context freezes, the trap registers are written, and the handler's first bundle
issues 6 clk later. -/
def State.takeTrap (s : State) (r : TrapRegs) : State :=
  (s.mapMe fun t => { (t.trapState r).enterHandler r.cause with dfr := Deferred.none }).trapTicks 6

/-- The return from a handler to the kernel (R348, R355): its next cycle follows 4 clk later. -/
def State.returnToKernel (s : State) : State :=
  (s.trapTicks 4).mapMe fun t =>
    { t with priv := { t.priv with active := false, rftDone := false, walkEntry := false, ctxState := 0b00 } }

/-- A handler fault (R360): the shadow context stops, HFAULT is written, and the tile is parked. -/
def Tile.handlerFault (t : Tile) (code sub : Nat) : Tile :=
  { t with priv := { t.priv with hfault := code + 16 * sub, parked := true }, dfr := Deferred.none }

/-- Raise an asynchronous cause (R346); one already pending with the same code and value is not doubled. -/
def Tile.raiseAsync (t : Tile) (a : Async) : Tile :=
  if t.priv.async.contains a then t else { t with priv := { t.priv with async := t.priv.async ++ [a] } }

/-- A free value, and the state with its counter advanced (log 8). -/
def State.fresh (s : State) : Word × State := (Config.freeWord s.free, { s with free := s.free + 1 })

end Sys2Proof.Machine
end

