-- ==== Sys2Proof/Machine/Flags.lean ====
section
/-! DEFINITION. Tags, guards and masks: the tag join, what turns an operation or a lane off, the iteration conditions,
the compare conditions, and the guard pairs and mask pairs that compares leave (R56, R57, R61 to R63, R123, R135). -/
namespace Sys2Proof.Machine

/-- `tag_join` of two tags (R56); of two that are POISON the first keeps its origin (log 22). -/
def Tag.join : Tag → Tag → Tag
  | .poison o, _ => .poison o
  | _, .poison o => .poison o
  | .void, _ => .void
  | _, .void => .void
  | .valid, .valid => .valid

/-- `tag_join` of a list of tags (R56). -/
def tagJoin (l : List Tag) : Tag := l.foldl Tag.join .valid

/-- The code of a tag (02 Table 2.1). -/
def Tag.code : Tag → Nat
  | .valid => 0 | .void => 1 | .poison _ => 2

/-- The tag of a code, whose POISON arose at a given word; 0b11 names none. -/
def Tag.ofCode (n : Nat) (o : BadWord) : Option Tag :=
  match n with | 0 => some .valid | 1 => some .void | 2 => some (.poison o) | _ => none

/-- Whether a guard lets an operation be on (R57, R61). -/
def Guard.on (g : Guard) : Bool := g.val && !g.void

/-- Whether a mask lets a lane be on (R57, R63). -/
def Mask.on (m : Mask) (l : Nat) : Bool := m.vals.getLsbD l && !m.voids.getLsbD l

/-- The iteration condition of a header (R123): of a level that is not active x is 0 and n is 1. -/
def iterHolds (h : Header) (q : Sequencer) : Bool :=
  if h.iterLvl.toNat ≥ 6 then true
  else
    let lv := (q.loops[h.iterLvl.toNat]?).getD { first := 0, last := 0, n := 1, x := 0, frame := 0 }
    match h.iterCond.toNat with
    | 0 => decide (lv.x = 0)
    | 1 => decide (lv.x + 1 = lv.n)
    | 2 => decide (lv.x ≠ 0)
    | _ => decide (lv.x + 1 ≠ lv.n)

/-- Whether an operation is on in a context (R57, R123). -/
def opOn (h : Header) (c : Ctx) (op : Instr) : Bool := (vget c.g op.guard.toNat).on && iterHolds h c.seq

/-- A signed compare (R135). -/
def cmpInt (cond : Nat) (a b : Int) : Bool := condHolds cond (compare a b)

/-- An unsigned compare (R135). -/
def cmpNat (cond : Nat) (a b : Nat) : Bool := condHolds cond (compare a b)

/-- The guard pair that a compare's outcome leaves: the outcome in the even guard, its complement in the odd (R62). -/
def guardPair (c : Bool) : Guard × Guard := ({ val := c, void := false }, { val := !c, void := false })

/-- The guard pair of a compare that is off or has a VOID operand (R62). -/
def guardPairVoid : Guard × Guard := ({ val := false, void := true }, { val := false, void := true })

/-- The number whose bit k is the k-th entry. -/
def bitsOfList : List Bool → Nat
  | [] => 0
  | b :: bs => b2n b + 2 * bitsOfList bs

/-- A mask pair from lane outcomes, none where a lane is off or VOID (R63, R231): the true lanes and the VOID lanes. -/
def maskPair (l : List (Option Bool)) : BitVec 32 × BitVec 32 :=
  (BitVec.ofNat 32 (bitsOfList (l.map fun o => decide (o = some true))),
   BitVec.ofNat 32 (bitsOfList (l.map fun o => decide (o = none))))

end Sys2Proof.Machine
end

