-- ==== Sys2Proof/Machine/Operands.lean ====
section
/-! DEFINITION. Operands: what each specifier of 05 Table 5.5 reads, immediates and extension values, stream pops and
reservations, early reads, and the checks that concern specifiers; and how a result is put in flight. -/
namespace Sys2Proof

/-- Whether an operation is a post-increment form (R136). -/
def Instr.postInc : Instr → Bool
  | .ldS8 f | .ldZ8 f | .ldS16 f | .ldZ16 f | .ldS32 f | .ldZ32 f | .ldZ64 f | .stZ8 f | .stZ16 f | .stZ32 f
  | .stZ64 f | .vld f | .vst f => f.p
  | _ => false

namespace Machine

/-- One slot's operation in one issue (R69, R136): the slot, the operation, its extension value, whether this issue
presents it, and the address and step that its post-increment form has latched. -/
structure Issue where
  slot : Slot
  op : Instr
  ext : Option Word
  first : Bool
  latch : Scalar
  stepBy : Scalar
  deriving DecidableEq, Repr, Inhabited

/-- What an issue waits for (R30, R34, R174): a translation that blocks a stream, an element of a read stream or room in a
write stream or index queue, with the producer that a survey leg names (R315), a semaphore (64: an xwait), or wall
time. An issue may wait for several at once. -/
inductive Wait where
  | xlat
  | streamEmpty (p : Producer)
  | streamFull (p : Producer)
  | sem (k : Nat)
  | wall
  deriving DecidableEq, Repr, Inhabited

/-- The freeze cause of a wait, by counter (R175). -/
def Wait.cause : Wait → Nat
  | .xlat => 4 | .streamEmpty _ | .streamFull _ => 5 | .sem _ | .wall => 6

/-- The wait that the frozen clock period is charged to: the first that holds in the order of R34. -/
def charged (ws : List Wait) : Option Wait :=
  ws.foldl (fun b w => match b with
    | none => some w
    | some x => if w.cause < x.cause then some w else some x) none

/-- An operand as read. -/
inductive Val where
  | sc (x : Scalar)
  | ve (x : VReg)
  deriving DecidableEq, Repr, Inhabited

/-- What an operation has at its issue: itself, its bundle's header and address, the address after the bundle, the
schedule cycle, and its operands by role. -/
structure Env where
  iss : Issue
  hdr : Header
  addr : Nat
  next : Nat
  cycle : Nat
  vals : List (Role × Val)
  deriving DecidableEq, Repr, Inhabited

/-- A VALID word. -/
def validWord (v : Word) : Scalar := { v := v, tag := .valid }

/-- A vector with one lane value throughout. -/
def splat (v : LaneBits) (t : Tag) : VReg := vrep 32 { v := v, tag := t }

/-- A vector of 32 VOID lanes. -/
def vvoid : VReg := splat 0 .void

/-- The index of the k-th active loop level, 0 when there is none (R68). -/
def loopIndex (q : Sequencer) (k : Nat) : Nat := ((q.loops[k]?).map Loop.x).getD 0

/-- Whether a source specifier names a stream register (05 Table 5.5). -/
def specStream (v : BitVec 6) : Option Nat := if 54 ≤ v.toNat ∧ v.toNat ≤ 61 then some (v.toNat - 54) else none

/-- What a scalar-space source specifier reads, streams apart (05 Table 5.5). -/
def readScalar (c : Ctx) (ext : Option Word) (v : BitVec 6) : Scalar :=
  let k := v.toNat
  if k < 32 then vget c.n k
  else if k < 48 then vget c.sq (k - 32)
  else if k < 54 then validWord (BitVec.ofNat 64 (loopIndex c.seq (k - 48)))
  else if k = 62 then validWord 0
  else validWord (ext.getD 0)

/-- What a vector-space source specifier reads, streams apart (05 Table 5.5). -/
def readVector (c : Ctx) (w : VecState) (ext : Option Word) (v : BitVec 6) : VReg :=
  let k := v.toNat
  if k < 16 then vget w.v k
  else if k < 32 then let x := vget c.n (k - 16); splat (x.v.setWidth 32) x.tag
  else if k < 48 then vget w.vq (k - 32)
  else if k < 54 then splat (BitVec.ofNat 32 (loopIndex c.seq (k - 48))) .valid
  else if k = 62 then splat 0 .valid
  else splat ((ext.getD 0).setWidth 32) .valid

/-- The number of elements of an affine stream (R273). -/
def Pattern.count (p : Pattern) : Nat := p.levels.foldl (fun e l => e * l.1) 1

/-- The sources that an issue reads: a re-issue of a post-increment form reads neither A nor B (R136). -/
def Issue.sources (i : Issue) : List Source :=
  let all := i.op.sources i.ext.isSome
  if i.op.postInc && !i.first then all.filter (fun s => s.role = .D) else all

/-- A result in flight names a scalar register of the kernel (R162). -/
def Result.namesScalar (r : Result) (k : Nat) : Bool :=
  match r with | .scalar _ d => d.toNat = k | _ => false

/-- A result in flight names a vector register (R162). -/
def Result.namesVector (r : Result) (k : Nat) : Bool :=
  match r with | .vector _ d | .vectorPush _ d => d.toNat = k | _ => false

/-- A result in flight names a mask (R162). -/
def Result.namesMask (r : Result) (k : Nat) : Bool :=
  match r with | .masks j _ _ => k ≠ 0 && k / 2 = j | _ => false

/-- Whether an earlier issue's result that fits is still in flight at the cycle (R162). -/
def Ctx.pending (c : Ctx) (cycle : Nat) (f : Result → Bool) : Bool :=
  c.infl.any fun e => decide (e.issued < cycle) && f e.res

/-- Whether a bind of a shape register is still in its latency (R108). -/
def Ctx.bindPending (c : Ctx) (cycle h : Nat) : Bool :=
  c.pending cycle fun r => match r with | .bind h' _ => h' = h | _ => false

/-! ## Checks that concern specifiers, on or off (R48, R64, R67, R73, R155) -/

/-- What naming a stream register raises: the declared bound, then the use by direction and kind (R64, R67): a V slot names vector
kind only, and an operand's space names its own kind (05 Table 5.5), so in a scalar-space field of a V slot no stream will do. The
value of a stream-use trap is the register's number (log 21). -/
def streamCands (t : Tile) (slot k : Nat) (write vector : Bool) : List Cand :=
  let slotV := decide (slot = Slot.v0.idx ∨ slot = Slot.v1.idx)
  if t.img.nstreams ≤ k then [{ cause := 2, sub := 2, slot := slot, value := BitVec.ofNat 64 k }]
  else
    let bad : List Cand := [{ cause := 4, sub := 0, slot := slot, value := BitVec.ofNat 64 k }]
    match vget t.streams.regs k with
    | none => bad
    | some st => if st.pat.isWrite ≠ write ∨ st.pat.isVector ≠ vector ∨ (slotV ∧ st.pat.isVector = false) then bad else []

/-- What naming a scalar register raises (R48). -/
def regCands (t : Tile) (slot k : Nat) : List Cand :=
  if t.img.nregs ≤ k then [{ cause := 2, sub := 1, slot := slot, value := BitVec.ofNat 64 k }] else []

/-- What a source specifier raises by itself (R131). -/
def sourceCands (t : Tile) (slot : Nat) (s : Source) : List Cand :=
  let k := s.spec.toNat
  match specStream s.spec, s.space with
  | some j, .scalar => streamCands t slot j false false
  | some j, .vector => streamCands t slot j false true
  | none, .scalar => if k < 32 then regCands t slot k else []
  | none, .vector => if 16 ≤ k ∧ k < 32 then regCands t slot (k - 16) else []

/-- What a destination raises by itself (R131, R134). -/
def destCands (t : Tile) (slot : Nat) : Dest → List Cand
  | .none => []
  | .scalar d => match specStream d with
    | some j => streamCands t slot j true false
    | none => if d.toNat < 32 then regCands t slot d.toNat else []
  | .vector d => match specStream d with
    | some j => streamCands t slot j true true
    | none => []
  | .accScalar d | .oldScalar d => if d.toNat < 32 then regCands t slot d.toNat else []
  | .accVector _ => []

/-- The system operations (R138, R353, R359): the register number that the privileged-register trap reports. -/
def privileged : Instr → Option Word
  | .rdctl f => if 0x100 ≤ f.cr.toNat then some (f.cr.setWidth 64) else none
  | .wrctl f | .setctl f | .clrctl f => some (f.cr.setWidth 64)
  | .rft _ | .xlinv _ | .ctxsave _ | .ctxload _ | .ectlBayout _ | .ectlBayin _ | .ectlSpout _ | .ectlSpin _
  | .ectlAccout _ | .ectlAccin _ | .ectlKill _ => some Config.noRegister
  | _ => none

/-- The stream kind that an operation needs of the register it names (R275, R276): gather for gpush, return for the
atomics; sbind and sunbind take any, and sunbind an unbound one too (log 99). -/
def neededKind : Instr → Option Nat
  | .sbind _ | .sunbind _ => none
  | .gpush _ => some 1
  | _ => some 2

/-- What an operation's specifiers and register names raise, on or off (R48, R64, R67, R73), and that it is a system
operation in a kernel (R138, R353). -/
def staticCands (t : Tile) (i : Issue) : List Cand :=
  (i.sources.map (sourceCands t i.slot.idx)).flatten ++ destCands t i.slot.idx i.op.dest ++
  (match i.op.shapeReg with
    | some h => if t.img.nshapes ≤ h then [{ cause := 2, sub := 3, slot := i.slot.idx, value := BitVec.ofNat 64 h }] else []
    | none => []) ++
  (match i.op.streamReg with
    | some k =>
      (if t.img.nstreams ≤ k then [{ cause := 2, sub := 2, slot := i.slot.idx, value := BitVec.ofNat 64 k }] else []) ++
      (match neededKind i.op with
        | some n => if ((vget t.streams.regs k).map fun st => st.pat.kind) = some n then []
            else [{ cause := 4, sub := 0, slot := i.slot.idx, value := BitVec.ofNat 64 k }]
        | none => [])
    | none => []) ++
  (match privileged i.op with
    | some v => [{ cause := 3, sub := 0, slot := i.slot.idx, value := v }]
    | none => [])

/-! ## Early reads (R54, R108, R162, R343) -/

/-- The early-read trap of a kind and a number (R343). -/
def earlyCand (slot kind k : Nat) : Cand :=
  { cause := 9, sub := 0, slot := slot, value := BitVec.ofNat 64 (256 * kind + k) }

/-- Whether a source specifier reads a pending register (R162). -/
def sourceEarly (c : Ctx) (cycle : Nat) (s : Source) : Bool :=
  let k := s.spec.toNat
  match s.space with
  | .scalar => decide (k < 32) && c.pending cycle (·.namesScalar k)
  | .vector => (decide (k < 16) && c.pending cycle (·.namesVector k)) ||
      (decide (16 ≤ k ∧ k < 32) && c.pending cycle (·.namesScalar (k - 16)))

/-- The number of steps T of a matrix operation (R249). -/
def MxCfg.steps (c : MxCfg) : Nat := (vlist c.nest).foldl (fun p l => p * l.bound) 1

/-- The shape register whose snapshot an operation reads (R111, R116): that of vldr and the segmented operations, and of
an xgo of at least one step in segment-diagonal mode (R257, log 29). hbind and xsdiag (log 71) and hunbind (log 90) read none. -/
def shapeRead (t : Tile) (op : Instr) : Option Nat :=
  match op with
  | .hbind _ | .hunbind _ | .xsdiag _ => none
  | .xgo _ => if t.mx.cfg.steps = 0 then none else t.mx.cfg.sdiag
  | i => i.shapeReg

/-- What an operation that is on reads early, in the order A, B, D, mask, shape register (R343). -/
def earlyCands (t : Tile) (i : Issue) : List Cand :=
  if !t.priv.earlyTrap then []
  else
    let c := t.k
    ((i.sources.filter (sourceEarly c c.cycle)).map fun s =>
      earlyCand i.slot.idx (match s.space with | .scalar => 0 | .vector => 1) s.spec.toNat) ++
    (match i.op.mask with
      | some m => if c.pending c.cycle (·.namesMask m.toNat) then [earlyCand i.slot.idx 2 m.toNat] else []
      | none => []) ++
    (match shapeRead t i.op with
      | some h => if c.bindPending c.cycle h then [earlyCand i.slot.idx 3 h] else []
      | none => [])

/-! ## Streams at issue (R65, R66, R273, R275, R276) -/

/-- The producer that the stream engine is for the element that the oldest of some indices gives (R315): that gpush, else the sbind. -/
def Stream.producerOf (st : Stream) (k : Nat) (idx : List GIndex) : Producer :=
  match idx with
  | i :: _ => { kind := 5, place := 0, obj := k, addr := i.addr, gate := i.gate }
  | [] => { kind := 5, place := 0, obj := k, addr := st.bindAddr, gate := st.gate }

/-- The producer of the element that the next pop of a stream awaits (R315). -/
def Stream.producer (st : Stream) (k : Nat) : Producer := st.producerOf k (st.idx.drop (st.filled - st.popped))

/-- The producer of the element whose pop or drain gives room in a write stream or an index queue (R315). -/
def Stream.roomProducer (st : Stream) (k : Nat) : Producer := st.producerOf k st.idx

/-- The translation miss that blocks stream k, if one does (R30): the one that stands, and not one that waits behind it (log 100). -/
def Tile.streamBlocked (t : Tile) (k : Nat) : List Wait :=
  match t.xlat.streamMiss with
  | some m => if m.sreg = k then [.xlat] else []
  | none => []

/-- What a pop or reservation of stream k waits for: the stream empty or full, and the translation miss that blocks the stream (R30,
R34). -/
def Tile.streamShort (t : Tile) (k : Nat) (st : Stream) : List Wait :=
  t.streamBlocked k ++ [if st.pat.isWrite then .streamFull (st.roomProducer k) else .streamEmpty (st.producer k)]

/-- Whether a pop of a read stream can never be met: past the last element, with no unmatched index, or with no
released atomic (R273, R275, R276). -/
def Stream.popFails (st : Stream) : Bool :=
  match st.pat.kind with
  | 0 => decide (st.pat.count ≤ st.popped)
  | 1 => decide (st.idxTotal ≤ st.popped)
  | _ => st.buf.isEmpty && (match st.rets with | [] => true | p :: _ => !p.released)

/-- Whether a reservation can never be met (R273, R275). -/
def Stream.reserveFails (st : Stream) : Bool :=
  match st.pat.kind with
  | 0 => decide (st.pat.count ≤ st.reserved)
  | _ => decide (st.idxTotal ≤ st.reserved)

/-- How many elements of a read stream the engine may have asked for (R274, R275): those with one of the eight places of the buffer, of
the pattern or of the indices pushed. -/
def Stream.reach (st : Stream) : Nat :=
  if st.pat.isWrite then 0
  else match st.pat.kind with
    | 0 => min st.pat.count (st.popped + 8)
    | 1 => min st.idxTotal (st.popped + 8)
    | _ => 0

/-- A read stream issues the accesses of the elements that now have a place (log 83), behind the commands numbered below `after` and the
stream accesses issued before. -/
def Streams.issueReads (ss : Streams) (k after : Nat) : Streams :=
  match vget ss.regs k with
  | none => ss
  | some st =>
    let n := st.reach - st.filled - st.due.length
    { ss with regs := vset ss.regs k (some { st with due := st.due ++ (List.range n).map fun j => (after, ss.seq + j) }), seq := ss.seq + n }

/-- An element as a stream that is short or fails stands for it: VOID. -/
def Val.void (vector : Bool) : Val := if vector then .ve vvoid else .sc zeroVoid

/-- An element as an operand. -/
def Elem.val : Elem → Val
  | .scalar x => .sc x
  | .vector x => .ve x

/-- What one operand's reading gives: its value, the tile after a pop, and the trap or the waits that it meets. -/
structure Read where
  val : Val
  tile : Tile
  cands : List Cand
  short : List Wait
  deriving DecidableEq, Repr, Inhabited

/-- Read a source operand of an operation that is on (R52, R65). A translation miss freezes the tile where the element has not come, not
where the pop finds a buffered one (log 100). -/
def readSource (t : Tile) (i : Issue) (s : Source) : Read :=
  match specStream s.spec with
  | none =>
    { val := match s.space with
        | .scalar => .sc (readScalar t.ctx i.ext s.spec)
        | .vector => .ve (readVector t.ctx t.vec i.ext s.spec),
      tile := t, cands := [], short := [] }
  | some k =>
    match vget t.streams.regs k with
    | none => { val := Val.void (s.space = .vector), tile := t, cands := [], short := [] }
    | some st =>
      if st.pat.isWrite then { val := Val.void (s.space = .vector), tile := t, cands := [], short := [] }
      else if st.popFails then
        { val := Val.void (s.space = .vector), tile := t,
          cands := [{ cause := 4, sub := 0, slot := i.slot.idx, value := BitVec.ofNat 64 k }], short := [] }
      else match st.buf with
        | [] => { val := Val.void (s.space = .vector), tile := t, cands := [], short := t.streamShort k st }
        | e :: rest =>
          { val := e.val,
            tile := { t with streams := ({ t.streams with
              regs := vset t.streams.regs k (some { st with
                buf := rest, popped := st.popped + 1, idx := if st.pat.kind = 1 then st.idx.tail else st.idx }) } : Streams).issueReads k t.eng.next },
            cands := [], short := [] }

/-- Read the source operands of an operation that is on, in order (R65). -/
def readSources (i : Issue) : List Source → Tile → List (Role × Val) × Tile × List Cand × List Wait
  | [], t => ([], t, [], [])
  | s :: rest, t =>
    let r := readSource t i s
    let q := readSources i rest r.tile
    ((s.role, r.val) :: q.1, q.2.1, r.cands ++ q.2.2.1, r.short ++ q.2.2.2)

/-- The destination specifier of an operation. -/
def destSpec : Dest → BitVec 6
  | .none => 63
  | .scalar d | .vector d | .accScalar d | .accVector d | .oldScalar d => d

/-- Reserve a position where a destination names a write stream (R66): the position, the tile, the trap or waits. -/
def reserve (t : Tile) (slot : Nat) (d : BitVec 6) : Option (Nat × Nat) × Tile × List Cand × List Wait :=
  match specStream d with
  | none => (none, t, [], [])
  | some k =>
    match vget t.streams.regs k with
    | none => (none, t, [], [])
    | some st =>
      if !st.pat.isWrite then (none, t, [], [])
      else if st.reserveFails then
        (none, t, [{ cause := 4, sub := 0, slot := slot, value := BitVec.ofNat 64 k }], [])
      else if 8 ≤ st.queue.length then (none, t, [], t.streamShort k st)
      else
        let st1 : Stream := { st with reserved := st.reserved + 1,
                                      queue := st.queue ++ [{ pos := st.reserved, val := none, after := t.eng.next, order := t.streams.seq }] }
        (some (st.serial, st.reserved),
         { t with streams := { t.streams with regs := vset t.streams.regs k (some st1), seq := t.streams.seq + 1 } }, [], [])

/-! ## Operand values by role -/

/-- The operand of a role. -/
def Env.val (e : Env) (r : Role) : Option Val := (e.vals.find? (fun p => p.1 = r)).map (·.2)

/-- The scalar operand of a role; VOID when the operation reads none. -/
def Env.scalar (e : Env) (r : Role) : Scalar :=
  match e.val r with | some (.sc x) => x | _ => zeroVoid

/-- The vector operand of a role; VOID when the operation reads none. -/
def Env.vector (e : Env) (r : Role) : VReg :=
  match e.val r with | some (.ve x) => x | _ => vvoid

/-- The A operand. -/
def Env.a (e : Env) : Scalar := e.scalar .A

/-- The B operand: with K = 1 the extension value or sext(IMM6, 6), else what its specifier reads (R133). -/
def Env.b (e : Env) : Scalar :=
  match e.iss.op.immB with
  | some imm => validWord (match e.iss.ext with | some x => x | none => imm.signExtend 64)
  | none => e.scalar .B

/-- The D operand, where D is read. -/
def Env.d (e : Env) : Scalar := e.scalar .D

/-! ## Results -/

/-- Put a result in flight at a latency, with the position that its destination reserves (R50, R66). -/
def Env.deliver (e : Env) (lat : Nat) (dest : BitVec 6) (r : Result) (s : State) : State :=
  s.mapMe fun t =>
    let q := reserve t e.iss.slot.idx dest
    q.2.1.setCtx { q.2.1.ctx with infl := q.2.1.ctx.infl ++
      [{ slot := e.iss.slot, issued := e.cycle, last := e.cycle + lat - 1, res := r, place := q.1 }] }

/-- A scalar push, written to the destination it names (R50). -/
def Env.pushScalar (e : Env) (lat : Nat) (x : Scalar) (s : State) : State :=
  e.deliver lat (destSpec e.iss.op.dest) (.scalar x.norm (destSpec e.iss.op.dest)) s

/-- A vector push, written to the destination it names (R50). -/
def Env.pushVector (e : Env) (lat : Nat) (x : VReg) (s : State) : State :=
  e.deliver lat (destSpec e.iss.op.dest) (.vector x (destSpec e.iss.op.dest)) s

/-- A guard-pair write at the end of the issue cycle (R62). -/
def Env.putGuards (e : Env) (j : Nat) (p : Guard × Guard) (s : State) : State :=
  e.deliver 1 63 (.guards j p.1 p.2) s

/-- A mask-pair write at the end of the next cycle (R63, R231). -/
def Env.putMasks (e : Env) (j : Nat) (p : BitVec 32 × BitVec 32) (s : State) : State :=
  e.deliver 2 63 (.masks j p.1 p.2) s

/-- POISON of a word at a place, charged to a unit of 20 Table 20.4, is consumed by an operation (R59): in a kernel, an event of
class 4 taken after the issue (R346, R424); in a handler, a handler fault (log 23). -/
def Env.consumeAt (e : Env) (unit detail : Nat) (s : State) : State :=
  if s.me.priv.active then s.mapMe fun t => t.handlerFault 5 0
  else s.mapMe fun t => { t with seg := { t.seg with pendEvents := t.seg.pendEvents ++
    [{ check := .poison, takenAfter := e.cycle, addr := e.addr, cycle := e.cycle, slot := e.iss.slot.idx, locs := [],
       copyA := [], copyB := [], unit := unit, detail := detail, doubles := 0 }] } }

/-- A value of a POISON tag is consumed by an operation (R59): the word that it arose from is charged. -/
def Env.consume (e : Env) (t : Tag) (s : State) : State :=
  match t with
  | .poison o => e.consumeAt o.unit o.place s
  | _ => s

/-- A poisoned word among `n` bytes of the scratchpad is consumed by an operation that reads a record there (R59): the scratchpad bank is
charged, at the first such word. -/
def Env.consumeRecord (e : Env) (a n : Nat) (s : State) : State :=
  e.consumeAt 4 (s.me.spad.firstBad a n) s

/-- What an operation does at an issue: what it raises and what it waits for when it is on, its effect when it is on,
and its effect when it is off. -/
structure OpSem where
  dyn : Env → State → List Cand
  wait : Env → State → List Wait
  run : Env → State → State
  off : Env → State → State
  deriving Inhabited

/-- An operation that raises nothing, waits for nothing, and has no effect when it is off. -/
def OpSem.plain (run : Env → State → State) : OpSem :=
  { dyn := fun _ _ => [], wait := fun _ _ => [], run := run, off := fun _ s => s }

/-- An operation that pushes a scalar; off, it pushes VOID (R57, R177). -/
def OpSem.scalar (lat : Nat) (run : Env → State → State) : OpSem :=
  { dyn := fun _ _ => [], wait := fun _ _ => [], run := run, off := fun e s => e.pushScalar lat zeroVoid s }

/-- An operation that pushes a vector; off, it pushes VOID in every lane (R57, R224). -/
def OpSem.vector (lat : Nat) (run : Env → State → State) : OpSem :=
  { dyn := fun _ _ => [], wait := fun _ _ => [], run := run, off := fun e s => e.pushVector lat vvoid s }

end Machine
end Sys2Proof
end

