-- ==== Sys2Proof/Machine/MxEngine.lean ====
section
/-! DEFINITION. The matrix engine at work (chapter 11): the format pairs, the steps of an operation, the rows it reads,
the arithmetic of a row, the dense schedule cycle by cycle, sparse operations whole, zeroing and draining. -/
namespace Sys2Proof.Machine

/-- The number of K positions of a step and the products formed per sc, for a legal format pair (11 Table 11.1). -/
def mxPair (afmt bfmt : Nat) : Option (Nat × Nat) :=
  let small := fun (f : Nat) => decide (3 ≤ f ∧ f ≤ 7)
  let half := fun (f : Nat) => decide (f = 1 ∨ f = 2)
  let int8 := fun (f : Nat) => decide (f = 8 ∨ f = 9)
  if afmt = 7 ∧ bfmt = 7 then some (128, 8192)
  else if small afmt && small bfmt then some (64, 4096)
  else if half afmt && half bfmt then some (32, 2048)
  else if int8 afmt && int8 bfmt then some (64, 4096)
  else none

/-- K positions of a step of a configuration. -/
def MxCfg.kc (c : MxCfg) : Nat := ((mxPair c.afmt c.bfmt).map Prod.fst).getD 32

/-- Products per sc of a configuration. -/
def MxCfg.perSc (c : MxCfg) : Nat := ((mxPair c.afmt c.bfmt).map Prod.snd).getD 2048

/-- Rows of an operation. -/
def MxCfg.rows (c : MxCfg) : Nat := c.rowsM1 + 1

/-- Whether an operation runs in sparse mode (R246). -/
def MxCfg.sparse (c : MxCfg) : Bool := c.abmpOn || c.bbmpOn

/-- The indices of step j, level 0 fastest (R249). -/
def stepIndices : List Nest → Nat → List (Nat × Nest)
  | [], _ => []
  | l :: rest, j => (j % l.bound, l) :: stepIndices rest (j / l.bound)

/-- The addresses of a step (R249). -/
structure StepAt where
  a : Nat
  b : Nat
  sa : Nat
  sb : Nat
  blk : Nat
  r : Nat
  c : Nat
  deriving DecidableEq, Repr, Inhabited

/-- A base field of the configuration. -/
def MxCfg.baseAt (c : MxCfg) (k : Nat) : Nat := vget c.base k

/-- The addresses of step j (R249). -/
def MxCfg.at_ (c : MxCfg) (j : Nat) : StepAt :=
  let xs := stepIndices (vlist c.nest) j
  let sum := fun (f : Nest → Nat) => xs.foldl (fun t p => t + p.1 * f p.2) 0
  { a := c.baseAt 0 + sum Nest.astr, b := c.baseAt 1 + sum Nest.bstr, sa := c.baseAt 2 + sum Nest.sastr,
    sb := c.baseAt 3 + sum Nest.sbstr, blk := (c.baseAt 4 + sum Nest.accstr) % 16,
    r := c.baseAt 5 + sum Nest.rowstr, c := c.baseAt 6 + sum Nest.colstr }

/-! ## Reading rows -/

/-- `n` elements of width `w` from a byte address, with the POISON of any byte they lie in (R85, R252). -/
def Store.elems (s : Store) (a w n : Nat) : List Nat × List Bool :=
  let bs := s.read a ((w * n + 7) / 8)
  ((List.range n).map fun k => elemAt bs w k,
   (List.range n).map fun k => s.anyPoison (a + w * k / 8) ((w * k + w - 1) / 8 - w * k / 8 + 1))

/-- Bit `e` of a bit array, and its POISON. -/
def Store.bit (s : Store) (base e : Nat) : Bool × Bool :=
  ((readCell s.bytes (base + e / 8)).getLsbD (e % 8), s.poisoned (base + e / 8))

/-- A 16-bit scale container at an address aligned down to 2, and its POISON (R249). -/
def Store.scale (s : Store) (a : Nat) : Nat × Bool :=
  (s.readLe (a / 2 * 2) 2, s.anyPoison (a / 2 * 2) 2)

/-- Whether a configuration reads scales (R249). -/
def MxCfg.scaled (c : MxCfg) : Bool := decide (3 ≤ c.afmt ∧ c.afmt ≤ 7)

/-- Pointwise or. -/
def orLists (a b : List Bool) : List Bool := List.zipWith (fun x y => x || y) a b

/-- B row k of step j with its bitmap bits and, when k is a multiple of 32, its scales (R249, Table 11.6). -/
def MxCfg.readB (c : MxCfg) (s : Store) (j k : Nat) : OpRow :=
  let p := c.at_ j
  let w := fmtWidth c.bfmt
  let e := s.elems (p.b + k * c.baseAt 8) w 64
  let e0 := ((p.b + k * c.baseAt 8 - c.baseAt 1) * 8) / w
  let bits := (List.range 64).map fun n => if c.bbmpOn then s.bit c.bbmp (e0 + n) else (true, false)
  let scs := if c.scaled && k % 32 = 0 then
      (List.range 64).map fun n => s.scale (p.sb + k / 32 * c.baseAt 10 + 2 * n) else []
  { codes := e.1, poison := orLists e.2 (bits.map Prod.snd), scales := scs.map Prod.fst,
    scalePoison := scs.map Prod.snd, bits := bits.map Prod.fst }

/-- POISON of an accumulator entry, at its byte offset in the layout of ectl.accout (R359; 20 Table 20.8). -/
def accPoison (k : Nat) : Tag := .poison { unit := 5, place := 4 * k }

/-- An accumulator entry (R242). -/
def Acc.get (a : Acc) (k : Nat) : Lane :=
  { v := ((a.vals.find? fun p => p.1 = k).map (·.2)).getD 0, tag := if a.poison.contains k then accPoison k else .valid }

/-- Write a listed value, keeping numbers rising and no zero listed. -/
def putVal : List (Nat × LaneBits) → Nat → LaneBits → List (Nat × LaneBits)
  | [], k, v => if v = 0 then [] else [(k, v)]
  | (a, b) :: rest, k, v =>
    if k < a then (if v = 0 then (a, b) :: rest else (k, v) :: (a, b) :: rest)
    else if k = a then (if v = 0 then rest else (k, v) :: rest)
    else (a, b) :: putVal rest k v

/-- Write an accumulator entry; under POISON its value is zero (log 24). -/
def Acc.put (a : Acc) (k : Nat) (x : Lane) : Acc :=
  if x.tag.isPoison then { vals := putVal a.vals k 0, poison := insertNat a.poison k }
  else { vals := putVal a.vals k x.v, poison := removeNat a.poison k }

/-- The canonical form of accumulator values: numbers rising from `lo`, no zero listed. -/
def valsWf : Nat → List (Nat × LaneBits) → Bool
  | _, [] => true
  | lo, (a, b) :: rest => decide (lo ≤ a) && decide (b ≠ 0) && valsWf (a + 1) rest

/-- Row `m` of a block. -/
def Acc.row (a : Acc) (blk m : Nat) : List Lane := (List.range 64).map fun n => a.get (blk * 4096 + m * 64 + n)

/-- Write row `m` of a block. -/
def Acc.putRow (a : Acc) (blk m : Nat) (xs : List Lane) : Acc :=
  ((List.range 64).zip xs).foldl (fun acc p => acc.put (blk * 4096 + m * 64 + p.1) p.2) a

/-- Every entry of a block zero and VALID (R260). -/
def Acc.zeroBlock (a : Acc) (blk : Nat) : Acc :=
  { vals := a.vals.filter fun p => p.1 / 4096 ≠ blk, poison := a.poison.filter fun k => k / 4096 ≠ blk }

/-- The down-converter (R251): an accumulator entry as an element code of AFMT, with the scale of its block. -/
def downConvert (afmt : Nat) (sa : Option (Nat × Nat)) (v : LaneBits) : Nat :=
  match elemFmt afmt with
  | some (.flt f) =>
    match sa with
    | some p => encodeFmt f (roundFmt f .rne true ((decodeFmt .f32 v.toNat).scaleBy (p.2, p.1)))
    | none => encodeFmt f (roundFmt f .rne true .nan)
  | some (.sint w) => (BitVec.ofInt w (satS w v.toInt)).toNat
  | some (.zint w) => (BitVec.ofInt w (satZ w v.toInt)).toNat
  | none => 0

/-- The scale that a container gives: exactly 1 where scales are not read (R249). -/
def scaleOf (scaled : Bool) (c : Nat) : Option (Nat × Nat) := if scaled then scaleUe8m1 c else some (1, 1)

/-- A row m of step j with its scales and bitmap bits, or its accumulator source row (R249, R251). -/
def MxCfg.readA (c : MxCfg) (s : Store) (acc : Acc) (j m : Nat) : OpRow :=
  let p := c.at_ j
  let w := fmtWidth c.afmt
  let kc := c.kc
  let scs := if c.scaled then (List.range (kc / 32)).map fun q => s.scale (p.sa + m * c.baseAt 9 + 2 * q) else []
  let e0 := ((p.a + m * c.baseAt 7 - c.baseAt 0) * 8) / w
  let bits := (List.range kc).map fun k => if c.abmpOn then s.bit c.abmp (e0 + k) else (true, false)
  let src : List Nat × List Bool :=
    if c.accSrc then
      let es := (List.range kc).map fun k => acc.get (p.a / 64 % 16 * 4096 + m * 64 + p.a % 64 + k)
      ((List.range kc).zip es |>.map fun e =>
        downConvert c.afmt (scaleOf c.scaled ((scs.map Prod.fst).getD (e.1 / 32) 0)) e.2.v,
       es.map fun l => l.tag.isPoison)
    else s.elems (p.a + m * c.baseAt 7) w kc
  { codes := src.1, poison := orLists src.2 (bits.map Prod.snd), scales := scs.map Prod.fst,
    scalePoison := scs.map Prod.snd, bits := bits.map Prod.fst }

/-! ## The arithmetic of a row (R249, R250, R252) -/

/-- The segment of a row of a shape snapshot, or none (R105). -/
def Shape.segOf (h : Shape) (r : Nat) : Option Nat :=
  let starts := 0 :: h.ends
  ((List.range h.ends.length).find? fun k => decide (starts.getD k 0 ≤ r ∧ r < h.ends.getD k 0))

/-- Whether row r and column c lie in one segment (R249). -/
def sameSeg (snap : Option Shape) (r c : Nat) : Bool :=
  match snap with
  | none => true
  | some h => match h.segOf r, h.segOf c with
    | some x, some y => x = y
    | _, _ => false

/-- One accumulator row after a step: every block in ascending order (R249, R250), POISON spread (R252). `bs` holds
the step's B rows in order. -/
def MxCfg.newRow (c : MxCfg) (snap : Option Shape) (p : StepAt) (m : Nat) (a : OpRow) (bs : List OpRow)
    (old : List Lane) : List Lane :=
  let kc := c.kc
  let aBad := a.poison.any id || a.scalePoison.any id
  (List.range 64).map fun n =>
    let o := old.getD n { v := 0, tag := .valid }
    let bBad := bs.any fun r => r.poison.getD n false || r.scalePoison.getD n false
    if o.tag.isPoison || aBad || bBad then { v := 0, tag := accPoison (p.blk * 4096 + m * 64 + n) }
    else
      let seg := sameSeg snap (p.r + m) (p.c + n)
      let v := (List.range (kc / 32)).foldl (fun (acc : LaneBits) q =>
        let ks := (List.range 32).map (fun i => 32 * q + i)
        let cand := ks.filter fun k => seg && a.bits.getD k true && (bs.getD k default).bits.getD n true
        let pairs := cand.map fun k => (a.codes.getD k 0, (bs.getD k default).codes.getD n 0)
        match elemFmt c.afmt, elemFmt c.bfmt with
        | some (.flt fa), some (.flt fb) =>
          BitVec.ofNat 32 (blockF acc.toNat (scaleOf c.scaled (a.scales.getD q 0))
            (scaleOf c.scaled ((bs.getD (32 * q) default).scales.getD n 0))
            (pairs.filterMap fun x => contributing (decodeFmt fa x.1) (decodeFmt fb x.2)))
        | some ea, some eb =>
          blockI acc (pairs.filterMap fun x =>
            let u := (elemValue ea x.1).rat.1
            let w := (elemValue eb x.2).rat.1
            if u = 0 ∨ w = 0 then none else some (u * w))
        | _, _ => acc) o.v
      { v := v, tag := .valid }

/-- The number of candidate triples of a step (R255). -/
def MxCfg.candidates (c : MxCfg) (snap : Option Shape) (p : StepAt) (as_ bs : List OpRow) : Nat :=
  (List.range c.rows).foldl (fun t m => (List.range 64).foldl (fun t n =>
    if sameSeg snap (p.r + m) (p.c + n) then
      t + ((List.range c.kc).filter fun k =>
        (as_.getD m default).bits.getD k true && (bs.getD k default).bits.getD n true).length
    else t) t) 0

/-! ## Dense commands, cycle by cycle (R253, R260, R261; Table 11.6) -/

/-- A list of rows keyed by number, looked up. -/
def rowAt (l : List (Nat × OpRow)) (k : Nat) : OpRow := ((l.find? fun p => p.1 = k).map (·.2)).getD default

/-- The reads that a dense go makes in schedule cycle `cyc`, the scratchpad and accumulator as at its start: B rows,
an A row, and the prior contents of a row, from which its new contents follow. -/
def MxCmd.goReads (x : MxCmd) (c : MxCfg) (snap : Option Shape) (s : Store) (acc : Acc) (cyc : Nat) : MxCmd :=
  let kc := c.kc
  let T := c.steps
  let off := cyc - x.start
  let x1 := if x.start ≤ cyc ∧ off < 64 * T then
      let j := off / 64
      let ks := (List.range kc).filter fun k => decide (64 * k / kc = off % 64)
      { x with brows := x.brows ++ ks.map fun k => (j * kc + k, c.readB s j k) }
    else x
  let offA := cyc - x.start - 64
  let x2 := if x.start + 64 ≤ cyc ∧ offA < 64 * T ∧ offA % 64 < c.rows then
      { x1 with arows := x1.arows ++ [(offA, c.readA s acc (offA / 64) (offA % 64))] }
    else x1
  let offP := cyc - x.start - 71
  if x.start + 71 ≤ cyc ∧ offP < 64 * T ∧ offP % 64 < c.rows then
    let j := offP / 64
    let m := offP % 64
    let p := c.at_ j
    let bs := (List.range kc).map fun k => rowAt x2.brows (j * kc + k)
    { x2 with
      wait := x2.wait ++ [(cyc + 1, c.newRow snap p m (rowAt x2.arows offP) bs (acc.row p.blk m))],
      arows := x2.arows.filter fun r => r.1 ≠ offP,
      brows := if m + 1 = c.rows then x2.brows.filter fun r => decide ((j + 1) * kc ≤ r.1) else x2.brows }
  else x2

/-- The reads of a dense command in schedule cycle `cyc`. -/
def MxCmd.reads (x : MxCmd) (s : Store) (acc : Acc) (cyc : Nat) : MxCmd :=
  if x.sparse || x.done || !x.fixed then x
  else match x.op with
    | .zero _ => x
    | .go c snap _ _ => x.goReads c snap s acc cyc
    | .drain _ blk _ rowsM1 _ _ =>
      if x.start ≤ cyc ∧ cyc ≤ x.start + rowsM1 then
        { x with wait := x.wait ++ [(cyc + 3, acc.row blk (cyc - x.start))] }
      else x

/-- An accumulator entry as a drained element code (R261). -/
def drainElem (fmt : Nat) (sat : Bool) (v : LaneBits) : Nat :=
  match elemFmt fmt with
  | some (.flt f) => encodeFmt f (roundFmt f .rne sat (decodeFmt .f32 v.toNat))
  | some (.sint w) => if sat then (BitVec.ofInt w (satS w v.toInt)).toNat else v.toNat % 2 ^ w
  | _ => v.toNat

/-- The scratchpad write of one drained row (R261): its bytes, and the 8-byte words that POISON entries poison. -/
def drainWrite (addr fmt : Nat) (sat : Bool) (row : List Lane) : SpadWrite :=
  let w := fmtWidth fmt
  let bs := packElems w (row.map fun l => drainElem fmt sat l.v)
  { cells := (List.range bs.length).zip bs |>.map fun p => (addr + p.1, p.2),
    poison := ((List.range row.length).zip row).foldl (fun acc p =>
      if p.2.tag.isPoison then
        insertNat (insertNat acc ((addr + w * p.1 / 8) / 8)) ((addr + (w * p.1 + w - 1) / 8) / 8) else acc) [] }

/-- What a command's cycle leaves: the command, the accumulator, the scratchpad writes, and for a go the step, row and
contents of rows just written (for the shadow row). -/
structure MxWrites where
  cmd : MxCmd
  acc : Acc
  spad : List SpadWrite
  deriving DecidableEq, Repr, Inhabited

/-- The writes of a dense command at the end of schedule cycle `cyc` (Table 11.6, R260, R261). -/
def MxCmd.writes (x : MxCmd) (acc : Acc) (cyc : Nat) : MxWrites :=
  if x.sparse || x.done || !x.fixed then { cmd := x, acc := acc, spad := [] }
  else
    let due := x.wait.filter fun r => decide (r.1 ≤ cyc)
    let x1 := { x with wait := x.wait.filter fun r => !decide (r.1 ≤ cyc) }
    match x.op with
    | .zero blk => { cmd := x1, acc := if x.start = cyc then acc.zeroBlock blk else acc, spad := [] }
    | .go c _ _ _ =>
      { cmd := x1, spad := [], acc := due.foldl (fun a r =>
          let o := r.1 - x.start - 72
          a.putRow (c.at_ (o / 64)).blk (o % 64) r.2) acc }
    | .drain addr _ fmt _ pitch sat =>
      { cmd := x1, acc := acc, spad := due.map fun r => drainWrite (addr + (r.1 - x.start - 3) * pitch) fmt sat r.2 }

/-- The cycle at whose end a dense command completes: I - 1 (R253, R257, R260, R261). -/
def MxCmd.lastCycle (x : MxCmd) : Nat :=
  match x.op with
  | .zero _ => x.start
  | .go c _ _ _ => x.start + 64 * c.steps + c.rows + 7
  | .drain _ _ _ rowsM1 _ _ => x.start + rowsM1 + 3

/-- Whether a command is an xgo of no steps, which forms nothing (R253, R255). -/
def MxCmd.empty (x : MxCmd) : Bool := match x.op with | .go c _ _ _ => decide (c.steps = 0) | _ => false

/-- The accumulator block that a command names first. -/
def MxCmd.block (x : MxCmd) : Nat :=
  match x.op with
  | .zero blk => blk
  | .go c _ _ _ => c.baseAt 4 % 16
  | .drain _ blk _ _ _ _ => blk

/-- A dense command's start cycle from the marks Fb and I, with the marks that it leaves (R253, R260, R261). -/
def MxCmd.scheduled (x : MxCmd) (fb i : Nat) : MxCmd × Nat × Nat :=
  let f := max (x.issue + 6) fb
  let z := max (x.issue + 6) i
  match x.op with
  | .zero _ => ({ x with start := z, fixed := true }, z + 1, z + 1)
  | .go c _ _ _ =>
    ({ x with start := f, fixed := true }, if c.steps = 0 then (fb, i) else (f + 64 * c.steps, f + 64 * c.steps + c.rows + 8))
  | .drain _ _ _ rowsM1 _ _ => ({ x with start := z, fixed := true }, z + rowsM1 + 4, z + rowsM1 + 4)

/-- The dense commands of a queue start in its order, up to the first sparse one that has not completed (R255; log 25). -/
def scheduleQueue : List MxCmd → Nat → Nat → List MxCmd × Nat × Nat
  | [], fb, i => ([], fb, i)
  | x :: rest, fb, i =>
    if x.sparse && !x.empty && !x.done then (x :: rest, fb, i)
    else if x.sparse || x.fixed then
      let r := scheduleQueue rest fb i
      (x :: r.1, r.2)
    else
      let p := x.scheduled fb i
      let r := scheduleQueue rest p.2.1 p.2.2
      (p.1 :: r.1, r.2)

/-- The start cycles that the queue allows are fixed. -/
def Matrix.schedule (m : Matrix) : Matrix :=
  let r := scheduleQueue m.queue m.fb m.i
  { m with queue := r.1, fb := r.2.1, i := r.2.2 }

/-- The reads of one schedule cycle of every dense command, in queue order. -/
def Tile.mxReads (t : Tile) : Tile :=
  let t := (t.mx.queue.filter fun x => !x.sparse && !x.empty && !x.done && x.fixed && decide (x.start = t.mx.cyc)).foldl
    (fun (t : Tile) x => t.traceAdd 3 x.block x.addr x.issue 0 x.segNo) t
  { t with mx := { t.mx with queue := t.mx.queue.map fun x => x.reads t.spad t.mx.acc t.mx.cyc } }

/-- A command completes: its end is traced, with its start where it has no steps (R454), it is marked, and its completion signal is applied, or held while the segment that issued it
is open (R257, R270). -/
def Tile.mxComplete (t : Tile) (place : BitVec 16) (x : MxCmd) : Tile :=
  let t0 := { t with mx := { t.mx with queue := t.mx.queue.map fun (y : MxCmd) => if y.n = x.n then { y with done := true } else y } }
  let t1 := (if x.empty then t0.traceAdd 3 x.block x.addr x.issue 0 x.segNo else t0).traceAdd 4 x.block x.addr x.issue 0 x.segNo
  match x.op with
  | .go _ _ (some sem) _ =>
    if x.signalled then t1
    else if x.segNo = t.seg.number then
      { t1 with eng := { t1.eng with held := t1.eng.held ++
          [{ id := t1.eng.next, addr := x.addr, cycle := x.issue, scope := 0, segNo := x.segNo, gate := x.gate, late := 0,
             ckCopy := none, matched := true, operands := [x.cmd], body := .mxsig sem }], next := t1.eng.next + 1 } }
    else { t1 with sems := { t1.sems with pend := t1.sems.pend ++
        [{ sem := sem, op := .raise 1,
           prod := some { kind := 4, place := place, obj := sem, addr := x.addr, gate := x.gate }, order := x.cmd }] } }
  | _ => t1

/-- The writes of one schedule cycle of every dense command, in queue order, the drains after the M slots' stores
(R261); commands whose last cycle it was complete; the engine's next cycle follows. -/
def Tile.mxWrites (t : Tile) (place : BitVec 16) : Tile :=
  let cyc := t.mx.cyc
  let t1 := t.mx.queue.foldl (fun (t : Tile) x =>
    let w := x.writes t.mx.acc cyc
    let t := w.spad.foldl Tile.scheduledWrite t
    { t with mx := { t.mx with acc := w.acc, queue := t.mx.queue.map fun y => if y.n = x.n then w.cmd else y } }) t
  let t2 := (t1.mx.queue.filter fun x => !x.sparse && !x.empty && !x.done && x.fixed && decide (x.lastCycle ≤ cyc)).foldl
    (fun t x => t.mxComplete place x) t1
  { t2 with mx := { t2.mx with cyc := cyc + 1 } }

/-- Whether the matrix commands of a tile have completed. -/
def Matrix.over_ (m : Matrix) : Bool := m.queue.all fun (x : MxCmd) => x.done || x.empty

/-! ## Sparse commands (R255, R256) -/

/-- The rows of a step, read at one instant. -/
def MxCfg.stepRows (c : MxCfg) (s : Store) (acc : Acc) (j : Nat) : List OpRow × List OpRow :=
  ((List.range c.rows).map fun m => c.readA s acc j m, (List.range c.kc).map fun k => c.readB s j k)

/-- The accumulator after step j of a sparse operation. -/
def MxCfg.sparseStep (c : MxCfg) (snap : Option Shape) (s : Store) (acc : Acc) (j : Nat) : Acc :=
  let p := c.at_ j
  let ab := c.stepRows s acc j
  ((List.range c.rows).zip ab.1).foldl (fun a r =>
    a.putRow p.blk r.1 (c.newRow snap p r.1 r.2 ab.2 (a.row p.blk r.1))) acc

/-- The clock periods that a sparse operation lasts (R255). -/
def MxCfg.sparseClk (c : MxCfg) (snap : Option Shape) (s : Store) (acc : Acc) : Nat :=
  16 + (List.range c.steps).foldl (fun t j =>
    let ab := c.stepRows s acc j
    let q := c.candidates snap (c.at_ j) ab.1 ab.2
    t + max 16 ((q + c.perSc - 1) / c.perSc)) 0 + 8

/-- The sparse command that may begin: presented, with every earlier command complete (R255). -/
def Matrix.sparseReady (m : Matrix) : Option MxCmd :=
  match m.queue.find? (fun x => !x.done && !x.empty) with
  | some x => if x.sparse && x.presented && x.clkLeft.isNone then some x else none
  | none => none

/-- The sparse command whose clock periods are over. -/
def Matrix.sparseOver (m : Matrix) : Option MxCmd := m.queue.find? fun x => !x.done && x.sparse && x.clkLeft = some 0

/-- A sparse command begins (R255). -/
def Tile.sparseStart (t : Tile) : Tile :=
  match t.mx.sparseReady with
  | none => t
  | some x => match x.op with
    | .go c snap _ _ =>
      let t := t.traceAdd 3 x.block x.addr x.issue 0 x.segNo
      { t with mx := { t.mx with queue := t.mx.queue.map fun y =>
          if y.n = x.n then { y with clkLeft := some (c.sparseClk snap t.spad t.mx.acc) } else y } }
    | _ => t

/-- A sparse command completes (R255): its steps are formed on the operands as they stand (R256, log 14), Fb and I become the
first schedule cycle that begins after it, and the dense commands behind it start from there (log 25). -/
def Tile.sparseComplete (t : Tile) (place : BitVec 16) : Tile :=
  match t.mx.sparseOver with
  | none => t
  | some x => match x.op with
    | .go c snap _ _ =>
      let acc := (List.range c.steps).foldl (fun a j => c.sparseStep snap t.spad a j) t.mx.acc
      let t1 := ({ t with mx := { t.mx with acc := acc, fb := t.mx.cyc, i := t.mx.cyc } }).mxComplete place x
      { t1 with mx := t1.mx.schedule }
    | _ => t

/-- Whether a command counts as incomplete at the start of schedule cycle `cyc` (R258). -/
def MxCmd.incomplete (x : MxCmd) (cyc : Nat) : Bool :=
  if x.empty then decide (cyc < x.issue + 5)
  else if x.sparse then !x.waited
  else !x.fixed || decide (cyc ≤ x.lastCycle)

/-- Commands that neither count as incomplete nor have work left leave the queue. -/
def Matrix.sweep (m : Matrix) (cyc : Nat) : Matrix :=
  { m with queue := m.queue.filter fun x => x.incomplete cyc || (!x.done && !x.empty) || decide (cyc < x.issue + 5) }

end Sys2Proof.Machine
end

