-- ==== Sys2Proof/Machine/Present.lean ====
section
/-! DEFINITION. Engine commands from their issue to their acceptance (R170, R267, R268, R270), the gating reference
that they carry (R317), and the comparison of two copies (R208, R210, R234, R424, R427). -/
namespace Sys2Proof.Machine

/-- The gating reference of a command that issues now (R317): the latest leg recorded, which takes its SEQ in recording
order (R318). -/
def Tile.gateRef (t : Tile) (place : BitVec 16) : Option LegRef :=
  if t.seg.legs.isEmpty then
    (if t.survey.legs.isEmpty then none else some { place := place, seq := t.survey.next - 1 })
  else some { place := place, seq := t.survey.next + BitVec.ofNat 32 t.seg.legs.length - 1 }

/-- The words of a command that the checker compares (R170). -/
def CmdBody.words : CmdBody → List Nat
  | .sbind n => [1, n]
  | .sunbind => [2]
  | .gpush n => [3, n]
  | .xfer x => [4, x.src.toNat, x.dst.toNat, x.rank, x.sem, x.count, x.tag.toNat, x.tagOff, x.dir, x.cls.toNat, x.tagw.toNat, x.sig.toNat,
      x.remote.toNat, x.group, x.rfmt, x.redop] ++
      (x.dims.map fun d => [d.1, (BitVec.ofInt 64 d.2.1).toNat, (BitVec.ofInt 64 d.2.2).toNat]).flatten
  | .ssig r s c => [7, r.getD 0, s, c]
  | .sinit s v => [8, s, v]
  | .atomic op va b d c _ => [10, va, b.toNat, d.toNat, c.toNat, op.ctorIdx]
  | .off => [11]
  | .fence m => [22, m.toNat]
  | .launch bs => 23 :: bs.map BitVec.toNat
  | .pref va => [24, va]
  | .matrix n => [25, n]
  | .mxsig k => [26, k]

/-- The words of an engine command that the checker compares (R170): those of its body, and the operands that its body leaves to the
engine it goes to. -/
def Cmd.words (c : Cmd) : List Nat := c.body.words ++ c.operands

/-- Whether a command is held to commit whole (12 Table 12.2); a place of a return stream that an atomic which is off
takes is held with it (R276). -/
def CmdBody.isHeld : CmdBody → Bool
  | .ssig _ _ _ | .sinit _ _ | .atomic _ _ _ _ _ _ | .launch _ | .off => true
  | .xfer x => x.isRsend
  | _ => false

/-- Elements at the given positions. -/
def pick (l : List Nat) (locs : List Nat) : List Nat := locs.map fun k => l.getD k 0

/-- Two copies are compared (R424, R427): a difference is an event of class 4, with the doubles region of a doubles mismatch (R209), and at
the compared issue of a pending decision the copies give its verdict; the unit of a checker mismatch is the checker where the decider's tile
copy equals the recorded tile copy (20 Table 20.4). The doubles region is that in force as the comparison is made, after the C slot of the bundle; it stands
in the event record, since no register has a field for it (DESIGN CHOICE, log 103). -/
def Tile.compared (t : Tile) (check : Check) (takenAfter addr cycle slot : Nat) (a b : List Nat) : Tile :=
  let diff := (List.range a.length).filter fun k => a.getD k 0 ≠ b.getD k 0
  let ev : Event :=
    { check := check, takenAfter := takenAfter, addr := addr, cycle := cycle, slot := slot,
      locs := diff, copyA := pick a diff, copyB := pick b diff, unit := 0, detail := 0,
      doubles := if check = .doubles then t.seg.doubles else 0 }
  let plain := if diff.isEmpty then t else { t with seg := { t.seg with pendEvents := t.seg.pendEvents ++ [ev] } }
  match t.seg.mode, t.seg.recorded, t.seg.verdict with
  | .decide, some r, none =>
    if r.check = check ∧ r.addr = addr ∧ r.cycle = cycle ∧ r.slot = slot then
      let code := if !diff.isEmpty then 8
        else if pick a r.locs = r.copyB then 1 else if pick a r.locs = r.copyA then 2 else 9
      let unit := if check = .checker ∧ pick a r.locs = r.copyA then 2 else 0
      { t with seg := { t.seg with reached := true, verdict := some (code, { r with takenAfter := takenAfter, unit := unit }) } }
    else plain
  | _, _, _ => plain

/-- The contents of an accumulator row as compared: value and tag. -/
def rowWords (l : List Lane) : List Nat := l.map fun x => 4 * x.v.toNat + x.tag.code

/-- The copy that an upset of the shadow row gives. -/
def upsetCopy (upset : Bool) (l : List Nat) : List Nat :=
  if upset then (match l with | x :: xs => (x + 4) :: xs | [] => []) else l

/-- The comparison of one step's shadow row (R264, R424): named by the xgo's bundle and issue, and by the step. -/
def Tile.compareRow (t : Tile) (x : MxCmd) (step takenAfter : Nat) (row : List Lane) (upset : Bool) : Tile :=
  t.compared .shadowRow takenAfter x.addr x.issue (7 + 16 * (step + 1)) (rowWords row) (upsetCopy upset (rowWords row))

/-- The shadow rows of a schedule cycle in which row ρ of a dense step is written (R264): compared at the end of the next. -/
def Tile.shadowRows (t : Tile) (upset : Bool) : Tile :=
  t.mx.queue.foldl (fun (t : Tile) (x : MxCmd) =>
    match x.op with
    | .go _ _ _ rho =>
      if x.sparse || x.done || !x.fixed then t
      else (x.wait.filter fun r => r.1 = t.mx.cyc && (r.1 - x.start - 72) % 64 = rho).foldl
        (fun (t : Tile) r => t.compareRow x ((r.1 - x.start - 72) / 64) (r.1 + 1) r.2 upset) t
    | _ => t) t

/-- Row ρ as each step of a sparse operation writes it (R264): the accumulator after the steps so far. -/
def MxCfg.sparseRows (c : MxCfg) (snap : Option Shape) (s : Store) (rho : Nat) : Nat → Nat → Acc → List (Nat × List Lane)
  | 0, _, _ => []
  | n + 1, j, acc =>
    let a := c.sparseStep snap s acc j
    (j, a.row (c.at_ j).blk rho) :: c.sparseRows snap s rho n (j + 1) a

/-- The shadow rows of a sparse operation that completes (R264), each against row ρ as its step writes it, from the scratchpad and the
accumulator on which the operation is formed. -/
def Tile.sparseShadow (t : Tile) (x : MxCmd) (s : Store) (acc : Acc) (upset : Bool) : Tile :=
  match x.op with
  | .go c snap _ rho => (c.sparseRows snap s rho c.steps 0 acc).foldl (fun (t : Tile) r =>
      t.compareRow x r.1 (t.mx.cyc - 1) r.2 upset) t
  | _ => t

/-- An engine command joins the commands within the checker lag (R170), with the operand words that its body does not hold. -/
def Tile.addCmd (t : Tile) (place : BitVec 16) (e : Env) (operands : List Nat) (body : CmdBody) : Tile :=
  { t with
    eng := { t.eng with
      lag := t.eng.lag ++ [
        { id := t.eng.next, addr := e.addr, cycle := e.cycle, scope := e.hdr.scope,
          segNo := t.seg.number, gate := t.gateRef place, late := t.inp.checkerLate.headD 0, ckCopy := none,
          matched := false, operands := operands, body := body }],
      next := t.eng.next + 1 },
    inp := { t.inp with checkerLate := t.inp.checkerLate.tail } }

/-- A command that an operation issues, with the operand words that its body does not hold. -/
def Env.issueCmdWith (e : Env) (operands : List Nat) (body : CmdBody) (s : State) : State :=
  s.mapMe fun t => t.addCmd (s.place s.cur) e operands body

/-- A command that an operation issues. -/
def Env.issueCmd (e : Env) (body : CmdBody) (s : State) : State := e.issueCmdWith [] body s

/-- One issue of a command of a held kind, on or off (R268). -/
def State.countHeld (s : State) : State :=
  s.mapMe fun t => { t with seg := { t.seg with heldCount := t.seg.heldCount + 1 } }

/-- A fresh entry of the command queue. -/
def Active.start (c : Cmd) : Active :=
  { cmd := c, rd := 0, wr := 0, got := [], gotPoison := [], loc := none, locs := [], fault := none, reported := false,
    sent := false, done := false, rewound := false }

/-- What acceptance does with a presented command (R170, R268, R270, R274, R275, R292); one whose segment a ctxsave has closed is released
(R357, R418). -/
def Tile.accept (t : Tile) (place : BitVec 16) (c : Cmd) : Tile :=
  match c.body with
  | .sbind serial => { t with streams := t.streams.mapSerial serial fun st => { st with presented := true } }
  | .sunbind => t
  | .gpush serial => { t with streams := t.streams.mapSerial serial fun st =>
      { st with idx := st.idx.map fun i => if i.cmd = c.id then { i with presented := true } else i } }
  | .pref _ => t
  | .matrix n =>
    let t1 := { t with mx := { t.mx with
      queue := t.mx.queue.map fun (x : MxCmd) => if x.n = n then { x with presented := true } else x,
      lastDense := ((t.mx.queue.find? fun (x : MxCmd) => x.n = n).map fun (x : MxCmd) => !x.sparse).getD t.mx.lastDense } }
    match t1.mx.queue.find? (fun (x : MxCmd) => x.n = n) with
    | some x => if x.empty then t1.mxComplete place x else t1
    | none => t1
  | b =>
    let t1 := match b with
      | .xfer x => t.traceAdd 1 0 c.addr c.cycle (x.dims.headD (0, 0, 0)).1 c.segNo
      | _ => t
    if b.isHeld then
      (if c.segNo < t1.seg.number then { t1 with eng := { t1.eng with released := t1.eng.released ++ (if b = .off then [] else [c]) } }
       else { t1 with eng := { t1.eng with held := t1.eng.held ++ [c] } })
    else { t1 with eng := { t1.eng with queue := t1.eng.queue ++ [Active.start c] } }

/-- Whether acceptance of a command needs an entry of the command queue, which stream, copy and atomic traffic share (R268): every command
does that is not held to commit and goes to no matrix engine. One that is performed at once (12 Table 12.2) gives the entry back. -/
def CmdBody.needsEntry (b : CmdBody) : Bool :=
  match b with
  | .matrix _ | .mxsig _ => false
  | _ => !b.isHeld

/-- Whether the checker's copy of a command differs, so that it never reaches its engine (R170, R423). -/
def Cmd.differs (c : Cmd) : Bool := decide (c.ckCopy.getD c.words ≠ c.words)

/-- Present the commands whose lag has passed (R170): those issued at t with the end of t + 4 behind, in issue order,
while the checker's copy is there and matches, and the queue accepts them. -/
def presentLoop (place : BitVec 16) : Nat → Tile → Tile
  | 0, t => t
  | n + 1, t =>
    match t.eng.lag with
    | [] => t
    | c :: rest =>
      if c.cycle + 5 ≤ t.mx.cyc ∧ (c.late = 0 ∨ t.img.coverage = 0) ∧
          ¬ (c.body.needsEntry ∧ 64 ≤ t.eng.queue.length) then
        let t1 := if t.img.coverage = 0 ∨ c.matched then t
          else t.compared .checker (c.cycle + 4) c.addr c.cycle 8 c.words (c.ckCopy.getD c.words)
        if t.img.coverage ≠ 0 ∧ c.differs then { t1 with eng := { t1.eng with lag := { c with matched := true } :: rest } }
        else presentLoop place n (({ t1 with eng := { t1.eng with lag := rest } } : Tile).accept place c)
      else t

/-- Presentation of every command that is due. -/
def Tile.present (t : Tile) (place : BitVec 16) : Tile := presentLoop place t.eng.lag.length t

/-- Whether a command's presentation is overdue, which freezes the tile (R170, R268). -/
def Tile.lagHeld (t : Tile) : Bool :=
  match t.eng.lag with
  | [] => false
  | c :: _ => decide (c.cycle + 5 ≤ t.mx.cyc)

end Sys2Proof.Machine
end

