-- ==== Sys2Proof/Machine/Frame.lean ====
section
/-! DEFINITION. One issue: the checks of everything that issues together, the trap, freeze or handler fault they end
in, the effects, and the end of the clock period (R30 to R33, R51, R57, R69, R70, R120, R345, R360). -/
namespace Sys2Proof.Machine

/-- What issues together: the header and address of the bundle, the address after it, whether this issue presents the
bundle's words, the operations of the slots in order, and what the bundle raises as a whole (R156, R157). -/
structure Batch where
  hdr : Header
  addr : Nat
  next : Nat
  first : Bool
  ops : List (Issue × OpSem)
  extra : List Cand := []
  deriving Inhabited

/-- The access size in bytes of a post-increment form (R136). -/
def accessSize : Instr → Nat
  | .ldS8 _ | .ldZ8 _ | .stZ8 _ => 1
  | .ldS16 _ | .ldZ16 _ | .stZ16 _ => 2
  | .ldS32 _ | .ldZ32 _ | .stZ32 _ => 4
  | .vld _ | .vst _ => 128
  | .vlds _ | .vsts _ => 4
  | _ => 8

/-- The IMM6 offset or stride of BMODE 0b01, scaled (R136). -/
def memImm : Instr → Option Word
  | .ldS8 f | .ldZ8 f | .ldS16 f | .ldZ16 f | .ldS32 f | .ldZ32 f | .ldZ64 f | .stZ8 f | .stZ16 f | .stZ32 f
  | .stZ64 f | .vld f | .vst f | .vlds f | .vsts f => if f.bm = 1 then some (f.b.signExtend 64) else none
  | _ => none

/-- The offset operand of an M-slot access: the scaled immediate, or B (R136). -/
def Env.offset (e : Env) : Scalar :=
  match memImm e.iss.op with
  | some x => validWord (x * BitVec.ofNat 64 (accessSize e.iss.op))
  | none => e.scalar .B

/-- The environment of an operation, with the address and step that a presenting post-increment form latches from A
and from its offset; off, both VOID (R136). -/
def mkEnv (b : Batch) (cycle : Nat) (on : Bool) (i : Issue) (vals : List (Role × Val)) : Env :=
  let e : Env := { iss := i, hdr := b.hdr, addr := b.addr, next := b.next, cycle := cycle, vals := vals }
  if i.op.postInc && i.first then
    { e with iss := { i with latch := if on then e.a else zeroVoid, stepBy := if on then e.offset else zeroVoid } }
  else e

/-- Uses that handler mode forbids, with the sub-code of R338 (R360); `none` where it allows the use. -/
def handlerForbids (i : Issue) : Option Nat :=
  match i.slot.kind with
  | .X | .V => if i.first then some 0 else none
  | _ =>
    if (i.sources.any fun s => (specStream s.spec).isSome) || (specStream (destSpec i.op.dest)).isSome then some 4
    else match i.op with
      | .semwImmediate _ | .semwRegister _ | .waitw _ | .stepMark _ | .brk _ | .trap _ | .sys _ | .endItem _
      | .lbrk _ => some 0
      | .sbind _ | .sunbind _ | .gpush _ | .copy _ | .send _ | .rsend _ | .ssigR _ | .aadd _ | .aminS64 _ | .aminZ64 _
      | .amaxS64 _ | .amaxZ64 _ | .aand _ | .aor _ | .axor _ | .axch _ | .acas _ | .afaddF32 _ | .afaddBf16 _
      | .launch _ | .pref _ => some 0
      | .vld _ | .vst _ | .vlds _ | .vsts _ | .vldx _ | .vstx _ | .vldr _ | .hbind _ | .hunbind _ => some 0
      | _ => none

/-- A handler-fault candidate: CAUSE numbers from 256 on stand for HF_CODEs (17 Table 17.4). -/
def hfCand (slot code sub : Nat) : Cand := { cause := 256 + code, sub := sub, slot := slot, value := 0 }

/-- Candidates and the waits of what has been checked so far, on the tile with the pops made so far. -/
structure Checked where
  state : State
  cands : List Cand
  short : List Wait
  deriving Inhabited

/-- Check one operation (R57, R345): what its specifiers raise, and when it is on what it reads early, what its pops
and reservations meet, what it raises by its operands where none of them is short, and what it waits for. -/
def checkOp (b : Batch) (c : Checked) (p : Issue × OpSem) : Checked :=
  let t := c.state.me
  let i := p.1
  let st := if t.priv.active then (match handlerForbids i with | some n => [hfCand i.slot.idx 1 n] | none => [])
    else staticCands t i
  if opOn b.hdr t.ctx i.op then
    let rd := readSources i i.sources t
    let rv := reserve rd.2.1 i.slot.idx (destSpec i.op.dest)
    let s1 := c.state.setMe rv.2.1
    let e := mkEnv b t.ctx.cycle true i rd.1
    let known := rd.2.2.2.isEmpty && (!t.priv.active || st.isEmpty)
    let early := if t.priv.active then [] else earlyCands t i
    let dyn := if known then p.2.dyn e c.state else []
    let wait := if known && st.isEmpty && rd.2.2.1.isEmpty then p.2.wait e c.state else []
    { state := s1, cands := c.cands ++ st ++ early ++ rd.2.2.1 ++ rv.2.2.1 ++ dyn,
      short := c.short ++ rd.2.2.2 ++ rv.2.2.2 ++ wait }
  else
    let rv := reserve t i.slot.idx (destSpec i.op.dest)
    { state := c.state.setMe rv.2.1, cands := c.cands ++ st ++ rv.2.2.1, short := c.short ++ rv.2.2.2 }

/-- Check everything that issues together. -/
def checkAll (b : Batch) (s : State) : Checked := b.ops.foldl (checkOp b) { state := s, cands := [], short := [] }

/-- The safe-distance and segment-length checks of an issue of the kernel (R156, R157). -/
def boundCands (t : Tile) (h : Header) : List Cand :=
  if t.priv.active then []
  else
    (if !h.safe && decide (t.img.safeDist ≤ t.k.cycle - t.seg.safeMark) then
      [{ cause := 2, sub := 8, slot := 15, value := BitVec.ofNat 64 t.img.safeDist }] else []) ++
    (if !h.seg && decide (t.img.segMax ≤ t.k.cycle - t.seg.entryCycle) then
      [{ cause := 2, sub := 9, slot := 15, value := BitVec.ofNat 64 t.img.segMax }] else [])

/-- Whether one candidate comes before another in the order of R345: by cause, sub-cause and slot. -/
def Cand.before (a b : Cand) : Bool :=
  if a.cause ≠ b.cause then decide (a.cause < b.cause)
  else if a.sub ≠ b.sub then decide (a.sub < b.sub)
  else decide (a.slot < b.slot)

/-- The candidate that is reported (R345); for the declared-bound sub-causes 0x6 and 0x7 the value is the lowest byte
offset of the bundle (R214). -/
def pickCand (l : List Cand) : Option Cand :=
  let best := l.foldl (fun (m : Option Cand) c => match m with
    | none => some c
    | some x => if c.before x then some c else some x) none
  best.map fun x =>
    if x.cause = 2 ∧ (x.sub = 6 ∨ x.sub = 7) then
      let low := (l.filter fun c => c.cause = 2 && c.sub = x.sub).foldl
        (fun v c => if c.value.toNat < v.toNat then c.value else v) x.value
      { x with value := low }
    else x

/-- An issue-time cause takes the tile to its handler (R343, R348); in a handler it is a handler fault with the CAUSE's
low bits as HF_SUB (R360). -/
def State.raiseCand (s : State) (c : Cand) (addr : Nat) : State :=
  if s.me.priv.active then
    s.mapMe fun t => if 256 ≤ c.cause then t.handlerFault (c.cause - 256) c.sub else t.handlerFault 1 (c.cause % 16)
  else
    (s.mapMe fun t => if t.k.pos.mode = .xfer then { t with k := { t.k with pos := Position.fresh t.k.pos.addr } } else t).takeTrap
      { cause := c.cause, sub := c.sub, slot := c.slot, async := false, value := c.value, addr := addr, cycle := s.me.k.cycle,
        shape := c.shape }

/-- One clock period of the acting tile: in a handler charged as the trap is (R348). -/
def State.clk (s : State) : State := if s.me.priv.active then (s.mapMe Tile.chargeTrap).tickMe else s.tickMe

/-- One replay of an issue: 3 clk, charged to replay at the depth of the issue (R32, R173, R175). -/
def State.replayOnce (s : State) (depth : Nat) : State :=
  let s1 := ((s.freezeAt 2 depth).freezeAt 2 depth).freezeAt 2 depth
  s1.mapMe fun t => { t with counters := { t.counters with replays := t.counters.replays + 1 },
                             margin := { t.margin with replays := t.margin.replays + 1 } }

/-- `n` replays. -/
def State.replay (depth : Nat) : Nat → State → State
  | 0, s => s
  | n + 1, s => State.replay depth n (s.replayOnce depth)

/-- WALL_TIME at a tile: the master counter at the start of its clock period (R30, R445). -/
def State.wallAt (s : State) (t : Tile) : Nat := s.master (t.clock / 1000)

/-- The station of an operation that is satisfied in the present clock period, without having frozen (R315, R454). -/
def State.station (s : State) (raiser : Option Producer) : Station :=
  let now := s.me.clock / 1000
  { began := now, till := now, wall := s.wallAt s.me, raiser := raiser }

/-- The semaphore of a semw (R203). -/
def semwOf : Instr → Option Nat
  | .semwImmediate f => some f.sem.toNat
  | .semwRegister f => some f.sem.toNat
  | _ => none

/-- The stations of an issue that has not frozen for them (R315, R454), satisfied in the clock period before its replays, with the last
raisers as they stand then (R316). -/
def State.noteStations (s : State) (b : Batch) : State :=
  s.mapMe fun t => { t with survey := { t.survey with waits := { t.survey.waits with
    sem := t.survey.waits.sem.or ((b.ops.findSome? fun p => semwOf p.1.op).map fun k => s.station (vget t.sems.raiser k)),
    xw := t.survey.waits.xw.or (some (s.station none)) } } }

/-- The replays that the physical world gives an issue (R32; log 10). They follow the clock period in which the waits of the issue are
satisfied (R33), and its effects are those of the issue that finally takes place (R192). -/
def State.replays (s : State) (b : Batch) (depth : Nat) : State :=
  let s1 := s.mapMe fun t => { t with inp := { t.inp with replays := t.inp.replays.tail } }
  match s.me.inp.replays.headD 0 with
  | 0 => s1
  | n => (s1.noteStations b).replay depth n

/-- The latched address after an issue (R70): one step further, on or off. -/
def stepLatch (i : Issue) : Scalar :=
  { v := i.latch.v + i.stepBy.v, tag := i.latch.tag.join i.stepBy.tag }

/-- The sticky operation that an issue leaves (R69, R125): a one-shot operation leaves NOP. -/
def stickyAfter (i : Issue) : Sticky :=
  if i.op.oneShot then Sticky.nop
  else if i.op.postInc then { op := i.op, ext := i.ext, latch := stepLatch i, stepBy := i.stepBy }
  else { op := i.op, ext := i.ext, latch := zeroVoid, stepBy := zeroVoid }

/-- Run one operation (R57): its effect when it is on, its off form when it is off; its sticky slot steps. -/
def runOp (b : Batch) (s : State) (p : Issue × OpSem) : State :=
  let t := s.me
  let i := p.1
  let on := opOn b.hdr t.ctx i.op
  let rd := if on then readSources i i.sources t else ([], t, [], [])
  let e := mkEnv b t.ctx.cycle on i rd.1
  let s1 := s.setMe rd.2.1
  let s2 := if on then p.2.run e s1 else p.2.off e s1
  s2.mapMe fun t => t.setCtx { t.ctx with sticky := vset t.ctx.sticky i.slot.idx (stickyAfter e.iss) }

/-- Run everything that issues together, in slot order. -/
def runAll (b : Batch) (s : State) : State := b.ops.foldl (runOp b) s

/-- The words of a context that a chkctl compares (R208): every named scalar register with its tag, and every guard. -/
def compareWords (c : Ctx) : List Nat :=
  (vlist c.n).map (fun x => 4 * x.v.toNat + x.tag.code) ++ (vlist c.g).map fun g => 2 * b2n g.val + b2n g.void

/-- The checker's copies of the shadow context run the same issue where they differ from the tile's (R340): their results, and a
mismatch where a signal, an initialisation or a transfer comes out different, or where a chkctl of the issue finds registers or guards that differ at
the end of its cycle (R208), at every coverage level. A mismatch is a handler fault (R360), and the bundle has no effect. -/
def runShadowChecker (b : Batch) (s s' : State) : State :=
  match s.me.shadowCheck with
  | none => s'
  | some ck =>
    let t := s.me
    let r := (runAll b (s.setMe { t with priv := { t.priv with
      shadow := { t.priv.shadow with n := ck.n, sq := ck.sq, g := ck.g, infl := ck.infl } } })).me
    s'.mapMe fun u =>
      let u1 := { u with shadowCheck := some r.priv.shadow }
      let ended := fun (c : Ctx) => compareWords (c.arrivals (u.priv.shadow.cycle + 1))
      if r.sems.pend = u.sems.pend ∧ r.priv.ectl = u.priv.ectl ∧ (u.dfr.compare = false ∨ ended r.priv.shadow = ended u.priv.shadow) then u1
      else u1.handlerFault 5 0

/-- The checker's copies run the same issue where they differ from the tile's (R208): their results, and the words of
commands that come out different. -/
def runChecker (b : Batch) (s s' : State) : State :=
  if s.me.priv.active then runShadowChecker b s s' else
  match s.me.checker with
  | none => s'
  | some (ck, cv) =>
    let t := s.me
    let k2 := { t.k with n := ck.n, sq := ck.sq, g := ck.g, infl := ck.infl }
    let s2 := runAll b (s.setMe { t with k := k2, vec := cv })
    let r := s2.me
    let copy := fun (c : Cmd) => match r.eng.lag.find? (fun (d : Cmd) => d.id = c.id) with
      | some d => if d.words = c.words then c else { c with ckCopy := some d.words }
      | none => c
    s'.mapMe fun u =>
      { u with checker := some (r.k, r.vec), eng := { u.eng with lag := u.eng.lag.map copy } }

/-! ## The end of the clock period -/

/-- The words of the named vector registers that a chkctl compares (R208): every lane with its tag (R47). -/
def VecState.compareWords (v : VecState) : List Nat :=
  ((vlist v.v).map fun r => (vlist r).map fun (l : Lane) => 4 * l.v.toNat + l.tag.code).flatten

/-- The comparison that a chkctl of the issue asks for, at the end of its cycle (R208); none at C0. -/
def Tile.checkCopies (t : Tile) (addr cycle : Nat) : Tile :=
  if t.dfr.compare ∧ t.img.coverage ≠ 0 then
    let c := t.checker.getD (t.k, t.vec)
    t.compared .checker (cycle + 4) addr cycle 2 (compareWords t.k ++ t.vec.compareWords) (compareWords c.1 ++ c.2.compareWords)
  else t

/-- One cycle of the kernel ends (R50, R160, R170, R171): the matrix engine's reads, the stores in slot order, the
engine's writes, the sequencer, the arrivals, the presentation of commands, the checker's comparison. -/
def Tile.endCycle (t : Tile) (place : BitVec 16) (addr : Nat) : Tile :=
  let cyc := t.k.cycle
  let t1 := { t with mx := { t.mx with cyc := cyc } }
  let t2 := t1.mxReads
  let t3 := t2.dfr.writes.foldl Tile.scheduledWrite t2
  let t4 := (t3.shadowRows t3.dfr.rowUpset).mxWrites place
  let t5 := { t4 with k := { t4.k with seq := t4.dfr.seq.getD t4.k.seq, cycle := cyc + 1 } }
  let t6 := t5.arrivals
  let t7 := t6.checkCopies addr cyc
  let t8 := t7.present place
  { t8 with mx := t8.mx.sweep (cyc + 1), run := t8.run.map fun (r : Run) => { r with sc := r.sc + 1 }, dfr := Deferred.none }

/-- One cycle of the handler ends (R338, R339, R354): its stores, its sequencer, its arrivals, the pop of the
signal log that a read of 0x130 makes (R342). Handler writes to the kernel's bytes are scheduled writes (R420). -/
def Tile.endHandlerCycle (t : Tile) : Tile :=
  let t1 := t.dfr.writes.foldl Tile.handlerWrite t
  let c := t1.priv.shadow
  let t2 := { t1 with priv := { t1.priv with shadow := { c with seq := t1.dfr.seq.getD c.seq, cycle := c.cycle + 1 } } }
  let t3 := if t2.dfr.popSig then
      { t2 with priv := { t2.priv with
          sigCount := (t2.priv.sigLog.head?.map SigEntry.count).getD t2.priv.sigCount,
          sigLog := t2.priv.sigLog.tail, sigLost := false } }
    else t2
  { t3.shadowArrivals with dfr := Deferred.none }

/-- What follows the last issue and last wait cycle of a bundle (R156, R211): the safe mark, and the segment entry that
a closing asks for. -/
def Tile.atBoundary (t : Tile) : Tile :=
  let p := t.k.pos
  if p.boundary then
    { t with seg := { t.seg with safeMark := if p.safe then t.k.cycle else t.seg.safeMark,
                                 pendingEntry := t.seg.pendingEntry || p.closes } }
  else t

/-- The position that an issue leaves (R120, R164, R196): the rest of the bundle, or the transfer that its C operation
takes. -/
def nextPosition (b : Batch) (old : Position) (d : Deferred) (depth held : Nat) : Position :=
  let left := if b.first then b.hdr.rep.toNat else old.issues - 1
  let closes := (!b.first && old.closes) || d.closes || (left = 0 && decide (64 ≤ held))
  let base : Position :=
    { mode := .cont, addr := b.addr, issues := left, waits := b.hdr.wait.toNat, bubbles := 0,
      choice := .fall, depth := depth, safe := b.hdr.safe, closes := closes,
      boundary := left = 0 && b.hdr.wait.toNat = 0 }
  match d.pos with
  | some p => { base with mode := p.mode, addr := p.addr, bubbles := p.bubbles, choice := p.choice }
  | none => base

/-- The issue counted at its depth, slot by slot (R175). -/
def Counters.countIssue (c : Counters) (depth : Nat) (ops : List (Issue × OpSem)) : Counters :=
  (List.range 9).foldl (fun c k =>
    if ops.any (fun p => p.1.slot.idx = k && p.1.op ≠ .nop) then c.bump depth (1 + k) 1 else c.bump depth (10 + k) 1)
    (c.bump depth 0 1)

/-- The element that stands for a result that an end discards: VOID. -/
def Stream.voidElem (st : Stream) : Elem := if st.pat.isVector then .vector vvoid else .scalar zeroVoid

/-- The positions reserved for results that an end discards (R169) leave their memory bytes unchanged (log 46). -/
def Streams.discardReserved (ss : Streams) : Streams :=
  let f := fun (st : Stream) => { st with queue := st.queue.map fun r => { r with val := some (r.val.getD st.voidElem) } }
  { ss with regs := vmk 8 fun k => (vget ss.regs k).map f, old := ss.old.map f }

/-- The issue that a pending decision compares has been made (R426). -/
def Tile.noteReached (t : Tile) (addr cycle : Nat) : Tile :=
  match t.seg.mode, t.seg.recorded with
  | .decide, some r => if r.addr = addr ∧ r.cycle = cycle then { t with seg := { t.seg with reached := true } } else t
  | _, _ => t

/-- Finish an issue of the kernel: counters, position, the end of the cycle, and its clock period. -/
def State.finishIssue (s : State) (b : Batch) : State :=
  let t := s.me
  let depth := min t.k.depth 6
  let pos := nextPosition b t.k.pos t.dfr depth t.seg.heldCount
  let ended := t.dfr.ended
  let t1 := { t with counters := t.counters.countIssue depth b.ops }
  let t2 := (t1.noteReached b.addr t.k.cycle).endCycle (s.place s.cur) b.addr
  let t3 := ({ t2 with k := { t2.k with pos := pos } }).atBoundary
  let t4 := if ended then
      { t3 with
        k := { t3.k with
          infl := [], cycle := t.k.cycle, seq := { t3.k.seq with loops := [] }, pos := { t3.k.pos with waits := 0 } },
        streams := t3.streams.discardReserved, run := t3.run.map fun (r : Run) => { r with itemEnded := true },
        dbg := { t3.dbg with skip := false } }
    else { t3 with dbg := { t3.dbg with skip := false } }
  (s.setMe t4).tickMe

/-- Finish an issue of the handler. -/
def State.finishHandlerIssue (s : State) (b : Batch) : State :=
  let t := s.me
  let c := t.priv.shadow
  let pos := nextPosition b c.pos t.dfr (min c.depth 6) 0
  let t1 := t.endHandlerCycle
  ((s.setMe { t1 with priv := { t1.priv with shadow := { t1.priv.shadow with pos := pos } } }).mapMe
    Tile.chargeTrap).tickMe

/-- A frozen clock period joins the waits of the bundle about to issue (R315): the clk by the cause that it is charged to. -/
def Waits.freeze (v : Waits) (cause : Nat) : Waits :=
  { v with semClk := v.semClk + (if cause = 6 then 1 else 0), streamClk := v.streamClk + (if cause = 5 then 1 else 0) }

/-- A frozen clock period of a tile has ended, which began at a raw count: what it waited for is satisfied in the next at the earliest, which
starts at `till` and finds the given last raisers (R315, R316). Of several streams of one direction the first in slot order stands. -/
def Waits.next (v : Waits) (began till wall : Nat) (place : BitVec 16) (raiser : Vector (Option Producer) 64) (ws : List Wait) : Waits :=
  let met := fun (old : Option Station) (r : Option Producer) =>
    some ({ began := (old.map Station.began).getD began, till := till, wall := wall, raiser := r } : Station)
  ws.foldr (fun w (v : Waits) => match w with
    | .xlat | .wall => v
    | .sem k => if k < 64 then { v with sem := met v.sem (vget raiser k) } else { v with xw := met v.xw Option.none }
    | .streamEmpty p => { v with read := some (wall, { p with place := place }) }
    | .streamFull p => { v with write := some (wall, { p with place := place }) }) v

/-- The semaphore that an issue waits for, 64 for an xwait. -/
def semOf (ws : List Wait) : Option Nat := ws.findSome? fun w => match w with | .sem k => some k | _ => none

/-- The watchdog in a frozen clock period of `ns` wall time before an issue (R344): it counts while the wait of a semw or an xwait is
unsatisfied, from zero where that freeze begins, and holds its value while no count is to advance. -/
def Tile.watch (t : Tile) (sem : Option Nat) (ns : Nat) : Tile :=
  match sem with
  | none => { t with priv := { t.priv with waitSem := none, wdogNs := 0 } }
  | some k => { t with priv := { t.priv with
      waitSem := some k, wdogNs := (if t.priv.waitSem.isNone then 0 else t.priv.wdogNs) + ns } }

/-- The tile on which the context of a rank stands, if any (R381). -/
def RankPlace.tile : RankPlace → Option TileNo
  | .onTile t | .saving t _ | .restoring t _ => some t
  | _ => none

/-- Whether a gang has a rank on a halted die (R453). -/
def State.gangHalted (s : State) (g : Gang) : Bool :=
  g.ranks.any fun p => match p.tile with | some t => (s.die (dieOf t)).halted | none => false

/-- The gang of a run. -/
def State.gangOf (s : State) (r : Run) : Option Gang :=
  (s.launch r.launch).bind fun (l : Launch) => l.gangs.find? fun (g : Gang) => g.index = r.gang

/-- Whether the gang of a tile's run has a rank on a halted die (R453). -/
def State.haltPaused (s : State) (t : Tile) : Bool :=
  match t.run.bind s.gangOf with
  | some g => s.gangHalted g
  | none => false

/-- A frozen clock period before an issue, charged to a cause, with what the issue waits for (R30, R34): counted for the survey
(R315), and for the watchdog while it is armed (R344) and no rank of the gang stands on a halted die (R453); in a handler the period is the
trap's. -/
def State.waitFreeze (s : State) (cause : Nat) (ws : List Wait) : State :=
  if s.me.priv.active then s.clk else
  let s1 := (s.mapMe fun t => { t with survey := { t.survey with waits := t.survey.waits.freeze cause } }).freezeMe cause
  let now := s1.wallAt s1.me
  s1.mapMe fun t =>
    let counts := t.priv.wdogEn && decide (t.priv.wdogLimit ≠ 0) && !s1.haltPaused t
    let waits := t.survey.waits.next (s.me.clock / 1000) (t.clock / 1000) now (s.place s.cur) t.sems.raiser ws
    ({ t with survey := { t.survey with waits := waits } } : Tile).watch (semOf ws) (if counts then now - s.wallAt s.me else 0)

/-- Legs published with consecutive SEQ values; the store keeps the latest 128 (R318, R319). -/
def Survey.publish (v : Survey) (legs : List Leg) : Survey :=
  let new := ((List.range legs.length).zip legs).map fun p => { p.2 with seq := v.next + BitVec.ofNat 32 p.1 }
  let all := v.legs ++ new
  { v with legs := all.drop (all.length - 128), next := v.next + BitVec.ofNat 32 legs.length }

/-- A leg joins a segment's legs, before those of the same issue that Table 14.1 names later (R315). -/
def Segment.addLeg (g : Segment) (leg : Leg) : Segment :=
  let later := fun (x : Leg) => decide (x.cycle = leg.cycle ∧ x.addr = leg.addr ∧ leg.kind < x.kind)
  { g with legs := g.legs.filter (fun x => !later x) ++ [leg] ++ g.legs.filter later }

/-- The leg of a stream station (R315): it arrives in the clock period in which the stream is no longer short, and its clk are those
charged to stream empty or full. -/
def streamLeg (s : State) (addr kind : Nat) (w : Nat × Producer) : Leg :=
  { arrive := w.1, waitClk := s.me.survey.waits.streamClk, cycle := s.me.k.cycle, place := s.place s.cur, addr := addr, kind := kind,
    obj := w.2.obj, prod := some w.2, seq := 0 }

/-- The legs of the streams for which the issue has waited (R315). -/
def State.streamLegs (s : State) (addr : Nat) : State :=
  if s.me.priv.active then s
  else
    let v := s.me.survey.waits
    let l3 := (v.read.map (streamLeg s addr 3)).toList
    let l4 := (v.write.map (streamLeg s addr 4)).toList
    s.mapMe fun t => { t with seg := (l3 ++ l4).foldl Segment.addLeg t.seg }

/-- The trace record of a work item's start (R454), which a rewind of its segment discards and its first bundle makes again (R455). -/
def Tile.traceStart (t : Tile) (entry : Nat) : Tile := t.traceAdd 8 0 entry 0 0 t.seg.number

/-- The launch-gate leg of a work item is published in the clock period in which its first bundle issues, where its first
step starts (R315, R318, R320); its trace record (R454), and the launch's START_NS (18 Table 18.5). -/
def State.publishGate (s : State) : State :=
  if s.me.priv.active then s
  else match s.me.run.bind fun (r : Run) => r.gate.map fun p => (r, p) with
    | none => if (s.me.run.map Run.retrace).getD false then
        s.mapMe fun t => { t.traceStart t.img.entry with run := t.run.map fun (r : Run) => { r with retrace := false } }
      else s
    | some (r, p) =>
      let now := s.wallAt s.me
      let leg : Leg :=
        { arrive := now, waitClk := 0, cycle := 0, place := s.place s.cur, addr := r.img.entry, kind := 5, obj := 0, prod := some p,
          seq := 0 }
      let s1 := s.mapMe fun t =>
        { t.traceStart r.img.entry with
          survey := { t.survey.publish [leg] with stepStart := now, stepCycle := 0 }, run := some { r with gate := none } }
      s1.mapLaunch r.launch fun l => { l with start := if l.start = 0 then now else l.start }

/-- An issue ends its waits (R315, R344). -/
def Tile.waitsOver (t : Tile) : Tile :=
  { t with survey := { t.survey with waits := Waits.none }, priv := { t.priv with waitSem := none, wdogNs := 0 } }

/-- Everything that issues together issues (R345): it traps on the first failing check, or the tile freezes for a clock
period on a wait, or its stations are noted, its replays follow (R33), and it takes effect and its cycle ends. A wait freezes before causes
later than the declared bound are judged (log 20). In a handler a failing check, consumed POISON or a checker mismatch of the issue is a
handler fault and nothing takes effect (R360). -/
def issueBatch (b : Batch) (s : State) : State :=
  let c := checkAll b s
  match pickCand (b.extra ++ c.cands), charged c.short with
  | some x, none => s.raiseCand x b.addr
  | some x, some w => if x.cause ≤ 2 then s.raiseCand x b.addr else s.waitFreeze w.cause c.short
  | none, some w => s.waitFreeze w.cause c.short
  | none, none =>
    if s.me.priv.active then
      let s1 := runChecker b s (runAll b s)
      if s1.me.priv.parked ∧ ¬ s.me.priv.parked then s.mapMe fun t => t.handlerFault s1.me.priv.hfault 0 else s1.finishHandlerIssue b
    else
      let s1 := (s.publishGate.streamLegs b.addr).replays b (min s.me.k.depth 6)
      ((runChecker b s1 (runAll b s1)).mapMe Tile.waitsOver).finishIssue b

/-- The bundle that an operation named alone stands in: the header, slot and extension value of the state, at the
tile's position, with what that bundle raises as a whole (R156, R157). -/
def aloneBatch (op : Instr) (sem : OpSem) (s : State) : Batch :=
  let a := s.me.ctx.pos.addr
  { hdr := s.curHdr, addr := a, next := a + s.curHdr.len, first := true,
    ops := [({ slot := s.curSlot, op := op, ext := s.curExt, first := true, latch := zeroVoid, stepBy := zeroVoid }, sem)],
    extra := boundCands s.me s.curHdr }

/-- An operation issues alone: its word checks first (R143), then as everything that issues together does. -/
def State.alone (s : State) (op : Instr) (sem : OpSem) : State :=
  match op.wordFault s.curExt.isSome with
  | some n => s.raiseCand { cause := 1, sub := n, slot := s.curSlot.idx, value := (encode op).setWidth 64 } s.me.ctx.pos.addr
  | none => issueBatch (aloneBatch op sem s) s

/-- The meaning of an operation that issues alone. -/
def issueAlone (op : Instr) (sem : OpSem) (s : State) : Host.Outcome State Fault Refusal := .next (s.alone op sem)

end Sys2Proof.Machine
end

