-- ==== Sys2Proof/Machine/Regs.lean ====
section
/-! DEFINITION. What a read of a control register returns: the kernel's view (02 Table 2.3) and the privileged space
(17 Table 17.1, 19 Table 19.5, 20 Table 20.9, 22 Table 22.1), by number, without the side effect of the read. -/
namespace Sys2Proof.Machine

/-- A number as a register value. -/
def word (n : Nat) : Word := BitVec.ofNat 64 n

/-- The kernel's view of a tile's control registers (R77, 02 Table 2.3); an unassigned number reads zero. -/
def State.readKernel (s : State) (tn : TileNo) (n : Nat) : Word :=
  let t := s.tile tn
  let r := t.run
  if 0x008 ≤ n ∧ n ≤ 0x00E then word (vget t.counters.freeze (n - 0x008))
  else if 0x020 ≤ n ∧ n ≤ 0x02F then (r.map fun x => vget x.mailbox (n - 0x020)).getD 0
  else match n with
    | 0x000 => word t.k.cycle
    | 0x001 => word (s.wallAt t)
    | 0x002 => word t.counters.replays
    | 0x010 => (r.map Run.wid).getD 0
    | 0x011 => word ((r.map Run.rank).getD 0)
    | 0x012 => word ((r.map Run.gangTiles).getD 0)
    | 0x013 => word tn.val
    | 0x014 => t.margin.mode.setWidth 64
    | 0x015 => word t.img.coverage
    | 0x016 => word (b2n t.priv.earlyTrap)
    | 0x017 => word t.seg.entryAddr
    | 0x018 => t.sems.overflow
    | _ => 0

/-- The RESUME register (R349; 17 Table 17.1): the position of the kernel context. -/
def Position.resume (p : Position) : Word :=
  word (p.addr % 2 ^ 32 + p.issues % 32 * 2 ^ 32 + p.waits % 8 * 2 ^ 37 + p.bubbles % 8 * 2 ^ 40 +
    (match p.mode with | .fresh => 0 | .cont => 1 | .xfer => 2) * 2 ^ 43)

/-- Register 0x100 (17 Table 17.1). -/
def TrapRegs.word0 (r : TrapRegs) : Word :=
  word (r.cause % 256 + r.sub % 16 * 256 + r.slot % 16 * 4096 + b2n r.async * 65536)

/-- The head of the signal log as register 0x130 shows it (R342). -/
def Priv.sigWord (p : Priv) : Word :=
  match p.sigLog with
  | [] => word (b2n p.sigLost * 2 ^ 62)
  | e :: _ => word (2 ^ 63 + b2n p.sigLost * 2 ^ 62 + e.src.toNat * 2 ^ 32 + b2n e.st * 64 + e.sem % 64)

/-- STOP_VALUE and STOP_KIND (22 Table 22.1). -/
def Debug.stopWord (d : Debug) : Word := word (d.stopValue.toNat * 2 ^ 32 + d.stopKind % 8)

/-- A debug comparator's word (22 Table 22.1). -/
def Comparator.word0 (c : Comparator) : Word := word (b2n c.en * 2 ^ 63 + b2n c.cyc * 2 ^ 62 + c.addr.toNat)

/-- A privileged register of one tile (Tables 17.1, 19.5, 20.9, 22.1); `none` for a register of the partition and for
an unassigned number. -/
def State.readTileReg (s : State) (tn : TileNo) (n : Nat) : Option Word :=
  let t := s.tile tn
  let p := t.priv
  if 0x178 ≤ n ∧ n ≤ 0x17F then
    let c := vget t.dbg.comps ((n - 0x178) / 2)
    some (if n % 2 = 0 then c.word0 else c.cycle)
  else match n with
    | 0x100 => some p.trap.word0
    | 0x101 => some p.trap.value
    | 0x102 => some (word (p.trap.addr % 2 ^ 32))
    | 0x103 => some (word p.trap.cycle)
    | 0x108 => some t.k.pos.resume
    | 0x110 => some (word (b2n p.wdogEn * 4 + b2n p.debugArmed * 2 + b2n p.earlyTrap))
    | 0x112 => some (p.wdogLimit.setWidth 64)
    | 0x118 => some (p.ctxState.setWidth 64)
    | 0x119 => some (word p.shadow.cycle)
    | 0x130 => some p.sigWord
    | 0x131 => some (p.sigCount.setWidth 64)
    | 0x138 => some (word (p.ef.kind % 16 + b2n p.ef.handler * 128))
    | 0x139 => some (word (p.ef.va % 2 ^ 57))
    | 0x13A => some (word (p.ef.addr % 2 ^ 32))
    | 0x13B => some (word p.ef.cycle)
    | 0x140 => some (word (p.ectl.length % 256 + b2n (p.ectl.any fun e => e.fault.isSome) * 256))
    | 0x148 => some (word (p.hfault % 256))
    | 0x154 => some (word (t.xlat.walkVa % 2 ^ 57))
    | 0x155 => some t.xlat.walkInfo
    | 0x157 => some t.xlat.walkData
    | 0x15C => some (word (p.ef.detail % 16 * 2 ^ 16 + p.ef.reqTag % 4096))
    | 0x160 => some (word (t.seg.undo.length * 256 + (match t.seg.mode with | .run => 0 | .unprot => 1 | .decide => 2)))
    | 0x161 => some (word t.seg.rewinds)
    | 0x162 => some (word (t.seg.lastUnit * 65536 + t.seg.lastCause * 256 + t.seg.lastVerdict))
    | 0x163 => some (word (b2n p.errTrapEn))
    | 0x172 => some t.dbg.stopWord
    | 0x173 => some (word (t.dbg.stopAddr % 2 ^ 32))
    | 0x174 => some (word t.dbg.stopCycle)
    | 0x175 => some (word t.dbg.dump)
    | _ => none

/-- MIG_STAT.BUSY of a partition (R402): a migration of it is under way at some die, or a command waits for an engine. -/
def State.migBusy (s : State) (p : PartNo) : Bool :=
  (s.part p).xl.migCmd.isSome || (vlist s.dies).any fun d => match d.mig with | some m => m.part = p | none => false

/-- A privileged register of a partition (Tables 17.1, 19.5, 22.1). -/
def State.readPartReg (s : State) (pn : PartNo) (n : Nat) : Word :=
  let p := s.part pn
  let r := p.rings
  let x := p.xl
  match n with
  | 0x120 => word (r.ringBase)
  | 0x121 => word (r.ringPages + b2n r.ctrsEn * 2 ^ 32 + b2n r.ringOverwrite * 2 ^ 33)
  | 0x122 => r.ringHead
  | 0x123 => r.ringTail
  | 0x124 => r.ringDrops
  | 0x150 => word (x.root + x.walkMode.toNat)
  | 0x151 => word (x.migThresh * 2 ^ 32 + x.migDecay * 2 ^ 16 + x.migMode.toNat)
  | 0x153 => word (b2n x.xlBusy)
  | 0x159 => word (x.hfillTile * 2 ^ 16 + b2n x.hfillEngine)
  | 0x15A => word (x.missBase + x.missSlotsM1)
  | 0x15B => x.missHead.setWidth 64
  | 0x15F => word (x.migCount.toNat * 2 ^ 32 + x.migResult * 16 + b2n (s.migBusy pn))
  | 0x171 => word (p.dbgSel * 2 ^ 16)
  | 0x180 => word r.traceBase
  | 0x181 => word (r.traceMask.toNat * 2 ^ 32 + r.traceSlots)
  | 0x182 => r.traceHead
  | 0x183 => r.traceDrops
  | 0x188 => word (b2n r.divStop * 4 + r.divMode.toNat)
  | 0x189 => word r.divLog
  | 0x18A => word r.divRef
  | 0x18B => word r.divRpt
  | 0x18C => word (r.divWritten.toNat * 2 ^ 32 + r.divMissed.toNat * 2 ^ 16 + b2n p.diverged)
  | _ => 0

/-- What rdctl returns (R191, R338, R341): in a kernel and for numbers up to 0x0FF the kernel's view, in a handler the
privileged space. -/
def State.readCtl (s : State) (n : Nat) : Word :=
  if n ≤ 0x0FF then s.readKernel s.cur n
  else match s.readTileReg s.cur n with
    | some v => v
    | none => s.readPartReg (s.partOf s.cur) n

end Sys2Proof.Machine
end

