-- ==== Sys2Proof/Machine/Control.lean ====
section
/-! DEFINITION. The C-slot operations of a kernel (chapter 09): branches, calls, loops, waits, marks, traps, the end
of a work item, checks and commits; and how the sequencer chooses the next bundle (R196). -/
namespace Sys2Proof.Machine

/-! ## The sequencer -/

/-- The bytes of the bundle whose header stands at an address of a store (R117). -/
def bundleLen (mem : List Host.Cell) (a : Nat) : Nat :=
  (Header.ofWord (BitVec.ofNat 32 (leNat (readCells mem a 4)))).len

/-- The active levels of the current frame, innermost first (R195). -/
def Sequencer.frame (q : Sequencer) : List Loop := q.loops.takeWhile fun l => l.frame = q.rets.length

/-- What the fall-through from `a` gives, `nxt` being the address after the bundle at `a` (R196): the levels that remain
and the next bundle, or the last address that is passed (R141). -/
def continueAfter (f : Nat) (a nxt : Nat) : List Loop → List Loop × Except Nat Nat
  | [] => ([], .ok nxt)
  | lv :: rest =>
    if lv.frame ≠ f then (lv :: rest, .ok nxt)
    else if lv.last ≠ a then
      if a < lv.last ∧ lv.last < nxt then (lv :: rest, .error lv.last) else (lv :: rest, .ok nxt)
    else if lv.x + 1 < lv.n then ({ lv with x := lv.x + 1 } :: rest, .ok lv.first)
    else continueAfter f a nxt rest

/-- The fall-through of a sequencer (R196). -/
def Sequencer.fallThrough (q : Sequencer) (a nxt : Nat) : Sequencer × Except Nat Nat :=
  let r := continueAfter q.rets.length a nxt q.loops
  ({ q with loops := r.1 }, r.2)

/-- The code that the issuing context fetches from: the scratchpad, or the handler store (R118, R338). -/
def Tile.code (t : Tile) : List Host.Cell := if t.priv.active then t.priv.handlers else t.spad.bytes

/-- A level's last address that is passed (R141, R142): the bundle that contains it, the cycle of its last issue, and the
address. -/
structure Passed where
  addr : Nat
  cycle : Nat
  last : Nat
  deriving DecidableEq, Repr, Inhabited

/-- The pending choice resolved (R196): a completed bundle gives way to the next, or the level's last address that is
passed is reported with the bundle that contains it and its last issue (R141). Where that bundle never issued, since a zero-trip loop or
an lbrk chose the level's last address (R200, R201), the manual names no last issue: the model reports that bundle's address and the cycle of
the last issue made, and the handler resumes at the bundle that made the choice (DESIGN CHOICE, log 77). -/
def Tile.resolve (t : Tile) : Tile × Option Passed :=
  let c := t.ctx
  let p := c.pos
  if p.mode ≠ .cont ∨ p.issues ≠ 0 ∨ p.waits ≠ 0 then (t, none)
  else
    let a := match p.choice with | .after l => l | _ => p.addr
    match p.choice with
    | .passed l cyc => (t, some { addr := p.addr, cycle := cyc, last := l })
    | _ =>
      let r := c.seq.fallThrough a (a + bundleLen t.code a)
      match r.2 with
      | .error l =>
        let w := (Header.ofWord (BitVec.ofNat 32 (leNat (readCells t.code p.addr 4)))).wait.toNat
        (t, some { addr := a, cycle := c.cycle - 1 - w, last := l })
      | .ok n => (t.setCtx { c with seq := r.1, pos := Position.fresh n }, none)

/-- A taken transfer's position (R164): its target, with the bubbles that a preparation at cycle `p` leaves. -/
def transferTo (e : Env) (target : Nat) (p : Option Nat) : Position :=
  let t0 := e.cycle + e.hdr.wait.toNat + 1
  { Position.fresh target with mode := .xfer, bubbles := (p.map fun c => c + 7 - t0).getD 0 }

/-- A C operation leaves a sequencer and a position to the end of the cycle (R52, R196). -/
def State.putSeq (s : State) (q : Sequencer) (p : Option Position) : State :=
  s.mapMe fun t => { t with dfr := { t.dfr with seq := some q, pos := p } }

/-- Continue after `last` (R200, R201). -/
def choiceAfter (last : Nat) : Position := { Position.fresh 0 with mode := .cont, choice := .after last }

/-- The position of a completed bundle at `addr` whose choice is to be made as after `last`. -/
def Env.after (e : Env) (last : Nat) : Position := { choiceAfter last with addr := e.addr }

/-! ## Shared forms -/

/-- A C operation with an operand that R59 has it consume: VOID turns it off, POISON is consumed (R194). -/
def consuming (x : Env → Scalar) (run off : Env → State → State) : Env → State → State := fun e s =>
  match (x e).tag with
  | .poison o => e.consume (.poison o) s
  | .void => off e s
  | .valid => run e s

/-- An issue-time cause of a C operation. -/
def cCand (cause sub : Nat) (v : Word) : Cand := { cause := cause, sub := sub, slot := 2, value := v }

/-- An after-issue cause (R169, R206, R346). -/
def Env.after_ (e : Env) (cause : Nat) (v : Word) (s : State) : State :=
  s.mapMe fun t => { t with priv := { t.priv with after := t.priv.after ++
    [{ cause := cause, sub := 0, slot := 2, value := v, addr := e.addr, cycle := e.cycle }] } }

/-- prep (R197): the target of an entry, and the trap of a target that is not a multiple of 4 (R141). -/
def prepSem (entry : BitVec 2) (target : Env → Scalar) : OpSem :=
  let load : Env → State → State := consuming target (fun e s =>
    let q := s.me.ctx.seq
    let tg : Target := { addr := (target e).v, p := some e.cycle }
    s.putSeq { q with targets := vset q.targets entry.toNat tg } none) (fun _ s => s)
  { OpSem.plain load with
    dyn := fun e _ =>
      if (target e).tag = .valid ∧ (target e).v.toNat % 4 ≠ 0 then [cCand 1 0xB (target e).v] else [] }

/-- R197: a target at a word offset from the bundle. -/
def semPrepOffset (f : FormCBo) : OpSem :=
  prepSem f.e fun e => validWord (word e.addr + f.off.signExtend 64 * 4)

/-- prep with an offset (R197). -/
def execPrepOffset (f : FormCBo) (s : State) : Host.Outcome State Fault Refusal :=
  issueAlone (.prepOffset f) (semPrepOffset f) s

/-- R197: a target from A. -/
def semPrepRegister (f : FormCBr) : OpSem := prepSem f.e Env.a

/-- prep with a register (R197). -/
def execPrepRegister (f : FormCBr) (s : State) : Host.Outcome State Fault Refusal :=
  issueAlone (.prepRegister f) (semPrepRegister f) s

/-- The levels that a taken br leaves (R198): every level of the current frame whose body does not contain the target
is popped. -/
def popOutside (f target : Nat) : List Loop → List Loop
  | [] => []
  | lv :: rest =>
    if lv.frame ≠ f then lv :: rest
    else if lv.first ≤ target ∧ target ≤ lv.last then lv :: popOutside f target rest
    else popOutside f target rest

/-- br (R198): a taken br pops the levels whose bodies do not contain its target. -/
def semBr (f : FormCE) : OpSem :=
  OpSem.plain fun e s =>
    let q := s.me.ctx.seq
    let tg := vget q.targets f.e.toNat
    s.putSeq { q with loops := popOutside q.rets.length tg.addr.toNat q.loops } (some (transferTo e tg.addr.toNat tg.p))

/-- br (R198). -/
def execBr (f : FormCE) (s : State) : Host.Outcome State Fault Refusal := issueAlone (.br f) (semBr f) s

/-- call (R198): the return entry is pushed; with eight occupied, sequencer trap 0x5. -/
def semCall (f : FormCE) : OpSem :=
  { OpSem.plain (fun e s =>
      let q := s.me.ctx.seq
      let tg := vget q.targets f.e.toNat
      s.putSeq { q with rets := { addr := e.addr, cycle := e.cycle } :: q.rets } (some (transferTo e tg.addr.toNat tg.p))) with
    dyn := fun _ s => if 8 ≤ s.me.ctx.seq.rets.length then [cCand 6 5 8] else [] }

/-- call (R198). -/
def execCall (f : FormCE) (s : State) : Host.Outcome State Fault Refusal := issueAlone (.call f) (semCall f) s

/-- ret (R199): the current frame's levels and the top return entry are popped, and the call bundle falls through in
the caller's frame; with the stack empty, sequencer trap 0x6. -/
def semRet (_f : FormGZ) : OpSem :=
  { OpSem.plain (fun e s =>
      let t := s.me
      let q := t.ctx.seq
      match q.rets with
      | [] => s
      | r :: rest =>
        let q1 : Sequencer := { q with loops := q.loops.dropWhile (fun l => l.frame = q.rets.length), rets := rest }
        let x := q1.fallThrough r.addr (r.addr + bundleLen t.code r.addr)
        match x.2 with
        | .ok n => s.putSeq x.1 (some (transferTo e n (some r.cycle)))
        | .error l => s.putSeq q1 (some { Position.fresh r.addr with mode := .cont, choice := .passed l r.cycle })) with
    dyn := fun _ s => if s.me.ctx.seq.rets.isEmpty then [cCand 6 6 0] else [] }

/-- ret (R199). -/
def execRet (f : FormGZ) (s : State) : Host.Outcome State Fault Refusal := issueAlone (.ret f) (semRet f) s

/-- The trip count of a loop (R200): a specifier, or MAILBOX_k, which a handler reads as the kernel's view (R338). -/
def loopCount (f : FormCL) (e : Env) (s : State) : Scalar :=
  if f.k then validWord (s.readKernel s.cur (0x020 + f.cnt.toNat % 16)) else e.a

/-- The last bundle address of a loop's body (R200). -/
def Env.loopLast (e : Env) (f : FormCL) : Nat := e.next + 4 * f.last.toNat

/-- loop (R200): a level is pushed, or the body is skipped. A POISON count is that of a loop that is on, so the checks that do not read it
come before its consumption (R345). -/
def semLoop (f : FormCL) : OpSem :=
  let skip : Env → State → State := fun e s => s.putSeq s.me.ctx.seq (some (e.after (e.loopLast f)))
  { dyn := fun e s =>
      let q := s.me.ctx.seq
      let n := loopCount f e s
      if n.tag = .void then []
      else
        (if 6 ≤ q.loops.length then [cCand 6 1 6] else []) ++
        (match q.frame with
          | lv :: _ => if lv.last < e.loopLast f then [cCand 6 2 (word (e.loopLast f))] else []
          | [] => []) ++
        (if n.tag = .valid ∧ 0xFFFFFFFF < n.v.toNat then [cCand 6 3 (n.v >>> 32)] else [])
    wait := fun _ _ => []
    run := fun e s =>
      let n := loopCount f e s
      let q := s.me.ctx.seq
      match n.tag with
      | .poison o => e.consume (.poison o) s
      | .void => skip e s
      | .valid =>
        if n.v = 0 then skip e s
        else s.putSeq { q with loops :=
          { first := e.next, last := e.loopLast f, n := n.v.toNat, x := 0, frame := q.rets.length } :: q.loops } none
    off := skip }

/-- loop (R200). -/
def execLoop (f : FormCL) (s : State) : Host.Outcome State Fault Refusal := issueAlone (.loop f) (semLoop f) s

/-- lbrk (R201): the k-th level of the current frame and every level inside it are left. -/
def semLbrk (f : FormCV) : OpSem :=
  { OpSem.plain (fun e s =>
      let q := s.me.ctx.seq
      match q.frame[f.lvl.toNat]? with
      | some lv => s.putSeq { q with loops := q.loops.drop (f.lvl.toNat + 1) } (some (e.after lv.last))
      | none => s) with
    dyn := fun _ s => if s.me.ctx.seq.frame.length ≤ f.lvl.toNat then [cCand 6 4 (f.lvl.setWidth 64)] else [] }

/-- lbrk (R201). -/
def execLbrk (f : FormCV) (s : State) : Host.Outcome State Fault Refusal := issueAlone (.lbrk f) (semLbrk f) s

/-! ## Waits (R203, R204) -/

/-- semw (R203): the declared bound, a count above 32 bits, the freeze until the count suffices, the decrement at the
end of the period, and the survey leg of the station (R315). -/
def semwSem (sem : BitVec 6) (n : Env → Scalar) : OpSem :=
  let k := sem.toNat
  { dyn := fun e s =>
      (if (n e).tag ≠ .void ∧ s.me.img.nsems ≤ k then [cCand 2 4 (word k)] else []) ++
      (if (n e).tag = .valid ∧ 0xFFFFFFFF < (n e).v.toNat then [cCand 6 7 ((n e).v >>> 32)] else [])
    wait := fun e s =>
      if (n e).tag = .valid ∧ (n e).v.toNat ≤ 0xFFFFFFFF ∧ (vget s.me.sems.cnt k).toNat < (n e).v.toNat then [.sem k] else []
    run := consuming n (fun e s =>
      s.mapMe fun t0 =>
        let at_ := t0.survey.waits.sem.getD (s.station (vget t0.sems.raiser k))
        let t := t0.traceWait at_ k e.addr e.cycle
        let leg : Leg :=
          { arrive := at_.wall, waitClk := t.survey.waits.semClk, cycle := e.cycle, place := s.place s.cur, addr := e.addr,
            kind := 1, obj := k, prod := at_.raiser, seq := 0 }
        let drop : SemChange := { sem := k, op := .lower (n e).v.toNat, prod := none, order := 0 }
        let zero := decide ((n e).v = 0)
        { t with
          sems := { t.sems with pend := if zero then t.sems.pend else t.sems.pend ++ [drop] },
          seg := { t.seg.addLeg leg with
            lowered := if zero then t.seg.lowered else t.seg.lowered ++ [(k, (n e).v.toNat)] } }) (fun _ s => s)
    off := fun _ s => s }

/-- semw with an immediate count. -/
def semSemwImmediate (f : FormCWi) : OpSem := semwSem f.sem fun _ => validWord (f.n.setWidth 64)

/-- semw with an immediate count (R203). -/
def execSemwImmediate (f : FormCWi) (s : State) : Host.Outcome State Fault Refusal :=
  issueAlone (.semwImmediate f) (semSemwImmediate f) s

/-- semw with the count in B. -/
def semSemwRegister (f : FormCWr) : OpSem := semwSem f.sem Env.b

/-- semw with the count in B (R203). -/
def execSemwRegister (f : FormCWr) (s : State) : Host.Outcome State Fault Refusal :=
  issueAlone (.semwRegister f) (semSemwRegister f) s

/-- waitw (R204): frozen until a clock period starts with WALL_TIME at or above A. -/
def semWaitw (_f : FormCA) : OpSem :=
  { OpSem.plain (consuming Env.a (fun _ s => s) (fun _ s => s)) with
    wait := fun e s => if e.a.tag = .valid ∧ s.wallAt s.me < e.a.v.toNat then [.wall] else [] }

/-- waitw (R204). -/
def execWaitw (f : FormCA) (s : State) : Host.Outcome State Fault Refusal := issueAlone (.waitw f) (semWaitw f) s

/-! ## Marks, traps and the end (R205 to R207) -/

/-- The counters of R324 as one list, set by set. -/
def Counters.list (c : Counters) : List Nat := ((vlist c.sets).map vlist).flatten

/-- step (R205, R320): a step mark is recorded, with the counters at its issue (R324; log 27: before the issue's own
bundle is counted). -/
def semStepMark (f : FormCI) : OpSem :=
  OpSem.plain fun e s => s.mapMe fun t =>
    let m : StepMark :=
      { id := f.imm, addr := e.addr, cycle := e.cycle, wall := s.wallAt t, counters := t.counters.list }
    ({ t with seg := { t.seg with marks := t.seg.marks ++ [m] } }).traceAdd 7 0 e.addr e.cycle f.imm.toNat t.seg.number

/-- step (R205). -/
def execStepMark (f : FormCI) (s : State) : Host.Outcome State Fault Refusal := issueAlone (.stepMark f) (semStepMark f) s

/-- brk (R206): the breakpoint, a debug stop when debug is armed (R449). -/
def semBrk (f : FormCI) : OpSem :=
  OpSem.plain fun e s =>
    if s.me.priv.debugArmed then s.mapMe fun t => { t with dbg := { t.dbg with brkCode := some f.imm.toNat } }
    else e.after_ 0x12 (f.imm.setWidth 64) s

/-- brk (R206). -/
def execBrk (f : FormCI) (s : State) : Host.Outcome State Fault Refusal := issueAlone (.brk f) (semBrk f) s

/-- trap (R206): the user trap, after the issue. -/
def semTrap (f : FormCI) : OpSem := OpSem.plain fun e s => e.after_ 0x10 (f.imm.setWidth 64) s

/-- trap (R206). -/
def execTrap (f : FormCI) (s : State) : Host.Outcome State Fault Refusal := issueAlone (.trap f) (semTrap f) s

/-- sys (R206): the system call, after the issue. -/
def semSys (f : FormCI) : OpSem := OpSem.plain fun e s => e.after_ 0x11 (f.imm.setWidth 64) s

/-- sys (R206). -/
def execSys (f : FormCI) (s : State) : Host.Outcome State Fault Refusal := issueAlone (.sys f) (semSys f) s

/-- end (R169, R207): this issue's cycle is the work item's last. -/
def semEndItem (_f : FormGZ) : OpSem :=
  OpSem.plain fun _ s => s.mapMe fun t => { t with dfr := { t.dfr with ended := true } }

/-- end (R207). -/
def execEndItem (f : FormGZ) (s : State) : Host.Outcome State Fault Refusal := issueAlone (.endItem f) (semEndItem f) s

/-! ## Checking and segments (R208 to R211) -/

/-- chkctl (R208): with COMPARE the checker compares registers and guards at the end of the cycle. -/
def semChkctl (f : FormCK) : OpSem :=
  OpSem.plain fun _ s => if f.cmp then s.mapMe fun t => { t with dfr := { t.dfr with compare := true } } else s

/-- chkctl (R208). -/
def execChkctl (f : FormCK) (s : State) : Host.Outcome State Fault Refusal := issueAlone (.chkctl f) (semChkctl f) s

/-- dblctl (R209): the doubles region, which belongs to the kernel context; in a handler the kernel context is frozen (R340) and keeps
its region (log 78). -/
def semDblctl (f : FormCI) : OpSem :=
  OpSem.plain fun _ s => if s.me.priv.active then s else s.mapMe fun t => { t with seg := { t.seg with doubles := f.imm } }

/-- dblctl (R209). -/
def execDblctl (f : FormCI) (s : State) : Host.Outcome State Fault Refusal := issueAlone (.dblctl f) (semDblctl f) s

/-- The words that a doubles compare looks at (R210): equal for equal tags that are not VALID. -/
def doubleWords (x y : Tag × Nat) : Nat × Nat :=
  if x.1.code = y.1.code ∧ x.1 ≠ .valid then (x.1.code, x.1.code) else (4 * x.2 + x.1.code, 4 * y.2 + y.1.code)

/-- ctrap (R210): the doubles compare of A and B; a mismatch is taken after the cycle (R169). In a handler, whose segment is none, it
compares without an event (log 78). -/
def semCtrap (_f : FormGAB) : OpSem :=
  OpSem.plain fun e s => if s.me.priv.active then s else s.mapMe fun t =>
    let w := doubleWords (e.a.tag, e.a.v.toNat) (e.b.tag, e.b.v.toNat)
    t.compared .doubles e.cycle e.addr e.cycle 2 [w.1] [w.2]

/-- ctrap (R210). -/
def execCtrap (f : FormGAB) (s : State) : Host.Outcome State Fault Refusal := issueAlone (.ctrap f) (semCtrap f) s

/-- commit (R211): the segment closes after the bundle. -/
def semCommit (_f : FormGZ) : OpSem :=
  OpSem.plain fun _ s => s.mapMe fun t => { t with dfr := { t.dfr with closes := true } }

/-- commit (R211). -/
def execCommit (f : FormGZ) (s : State) : Host.Outcome State Fault Refusal := issueAlone (.commit f) (semCommit f) s

end Sys2Proof.Machine
end

