-- ==== Sys2Proof/Machine/Vector.lean ====
section
/-! DEFINITION. The V-slot operations of format VA (chapter 10): the frame of R224, the element placement of R212, and
each operation over them. -/
namespace Sys2Proof.Machine

/-! ## Elements in lanes (R212) -/

/-- The element of width `w` that a lane holds (10 Table 10.1). -/
def laneElem (w : Nat) (x : LaneBits) : Nat := x.toNat % 2 ^ w

/-- An element code placed in a lane (10 Table 10.1): a signed element narrower than 32 bits is sign-extended, every other
zero-extended. -/
def placeElem (ef : ElemFmt) (c : Nat) : LaneBits :=
  match ef with
  | .flt f => BitVec.ofNat 32 (c % 2 ^ f.width)
  | .sint w => BitVec.ofInt 32 (sextN c w)
  | .zint w => BitVec.ofNat 32 (c % 2 ^ w)

/-- The value of a lane's element (R212, R102). -/
def laneValue (ef : ElemFmt) (x : LaneBits) : Ext := elemValue ef (laneElem ef.width x)

/-- A floating result rounded by rne and placed (R102, R212). -/
def rneLane (f : Fmt) (x : Ext) : LaneBits := placeElem (.flt f) (rneCode f x)

/-- The type of a floating operation (R139). -/
def fltOf (t : BitVec 2) : Fmt := match t.toNat with | 0 => .f32 | 1 => .bf16 | _ => .f16

/-! ## The frame (R224) -/

/-- The mask that an operation names. -/
def State.mask (s : State) (m : BitVec 3) : Mask := vget s.me.vec.m m.toNat

/-- Lane `l` of a vector operand. -/
def Env.lane (e : Env) (r : Role) (l : Nat) : Lane := vget (e.vector r) l

/-- The lanes of R224: off lanes VOID, lanes with a tag that is not VALID carrying it, the others their result. -/
def laneFrame (m : Mask) (tag : Nat → Tag) (val : Nat → LaneBits) : VReg :=
  vmk 32 fun l =>
    if !m.on l then { v := 0, tag := .void }
    else match tag l with
      | .valid => { v := val l, tag := .valid }
      | tg => { v := 0, tag := tg }

/-- A lane operation of any operands (R224): its latency, its mask, the tags that feed a lane and the lane's result. -/
def laneSem (lat : Nat) (m : BitVec 3) (tag : Env → Nat → Tag) (val : Env → Nat → LaneBits) : OpSem :=
  OpSem.vector lat fun e s => e.pushVector lat (laneFrame (s.mask m) (tag e) (val e)) s

/-- A lane operation of A alone. -/
def lane1 (lat : Nat) (m : BitVec 3) (f : LaneBits → LaneBits) : OpSem :=
  laneSem lat m (fun e l => (e.lane .A l).tag) fun e l => f (e.lane .A l).v

/-- A lane operation of A and B. -/
def lane2 (lat : Nat) (m : BitVec 3) (f : LaneBits → LaneBits → LaneBits) : OpSem :=
  laneSem lat m (fun e l => (e.lane .A l).tag.join (e.lane .B l).tag) fun e l => f (e.lane .A l).v (e.lane .B l).v

/-- A lane operation of A, B and D. -/
def lane3 (lat : Nat) (m : BitVec 3) (f : LaneBits → LaneBits → LaneBits → LaneBits) : OpSem :=
  laneSem lat m (fun e l => ((e.lane .A l).tag.join (e.lane .B l).tag).join (e.lane .D l).tag) fun e l =>
    f (e.lane .A l).v (e.lane .B l).v (e.lane .D l).v

/-- A floating lane operation of A and B (R230). -/
def flt2 (lat : Nat) (t : BitVec 2) (m : BitVec 3) (f : Ext → Ext → Ext) : OpSem :=
  lane2 lat m fun a b => rneLane (fltOf t) (f (laneValue (.flt (fltOf t)) a) (laneValue (.flt (fltOf t)) b))

/-- A floating lane operation of A, B and D (R230). -/
def flt3 (lat : Nat) (t : BitVec 2) (m : BitVec 3) (f : Ext → Ext → Ext → Ext) : OpSem :=
  lane3 lat m fun a b d => rneLane (fltOf t)
    (f (laneValue (.flt (fltOf t)) a) (laneValue (.flt (fltOf t)) b) (laneValue (.flt (fltOf t)) d))

/-- A vector compare (R231): a mask pair; POISON in an on lane is consumed, that of the lowest such lane (log 22). -/
def vcmpSem (m : BitVec 3) (j : BitVec 2) (f : LaneBits → LaneBits → Bool) : OpSem :=
  { dyn := fun _ _ => [], wait := fun _ _ => [],
    run := fun e s =>
      let k := s.mask m
      let tag := fun l => (e.lane .A l).tag.join (e.lane .B l).tag
      match ((List.range 32).filter k.on).find? fun l => (tag l).isPoison with
      | some l => e.consume (tag l) s
      | none => e.putMasks j.toNat (maskPair ((List.range 32).map fun l =>
        if k.on l && decide (tag l = .valid) then some (f (e.lane .A l).v (e.lane .B l).v) else none)) s
    off := fun e s => e.putMasks j.toNat (maskPair (List.replicate 32 none)) s }

/-! ## Single functions -/

/-- The conversion pairs of 05 Table 5.6: target and source. -/
def cvtPair (pair : Nat) : ElemFmt × ElemFmt :=
  match pair with
  | 0 => (.flt .f32, .flt .bf16) | 1 => (.flt .f32, .flt .f16) | 2 => (.flt .bf16, .flt .f32)
  | 3 => (.flt .f16, .flt .f32) | 4 => (.flt .bf16, .flt .f16) | 5 => (.flt .f16, .flt .bf16)
  | 6 => (.flt .f32, .sint 32) | 7 => (.flt .f32, .zint 32) | 8 => (.sint 32, .flt .f32)
  | 9 => (.zint 32, .flt .f32) | 10 => (.flt .bf16, .sint 32) | 11 => (.sint 32, .flt .bf16)
  | 12 => (.flt .f32, .flt .e4m3) | 13 => (.flt .f32, .flt .e5m2) | 14 => (.flt .f32, .flt .e3m2)
  | 15 => (.flt .f32, .flt .e2m3) | 16 => (.flt .f32, .flt .e2m1) | 17 => (.flt .e4m3, .flt .f32)
  | 18 => (.flt .e5m2, .flt .f32) | 19 => (.flt .e3m2, .flt .f32) | 20 => (.flt .e2m3, .flt .f32)
  | 21 => (.flt .e2m1, .flt .f32) | 22 => (.sint 16, .sint 32) | 23 => (.zint 16, .sint 32)
  | 24 => (.sint 8, .sint 32) | _ => (.zint 8, .sint 32)

/-- Whether a pair widens, so that SAT has no effect (R137). -/
def cvtWidens (pair : Nat) : Bool := pair = 0 || pair = 1 || (12 ≤ pair && pair ≤ 16)

/-- An element converted (R94, R137; 03 Table 3.5): the code of the target. -/
def convertElem (dst src : ElemFmt) (mode : RMode) (sat : Bool) (c : Nat) : Nat :=
  let x := elemValue src c
  match dst, src with
  | .flt f, _ => encodeFmt f (roundFmt f mode sat x)
  | .sint w, .flt _ => (BitVec.ofInt w (extToInt mode (-(2 ^ (w - 1) : Nat)) ((2 ^ (w - 1) : Nat) - 1) x)).toNat
  | .zint w, .flt _ => (BitVec.ofInt w (extToInt mode 0 ((2 ^ w : Nat) - 1) x)).toNat
  | .sint w, _ => if sat then (BitVec.ofInt w (satS w x.rat.1)).toNat else c % 2 ^ w
  | .zint w, _ => if sat then (BitVec.ofInt w (satZ w x.rat.1)).toNat else c % 2 ^ w

/-- A lane converted by a pair (R232). -/
def convertLane (pair : Nat) (mode : RMode) (sat : Bool) (x : LaneBits) : LaneBits :=
  let p := cvtPair pair
  placeElem p.1 (convertElem p.1 p.2 mode (sat && !cvtWidens pair) (laneElem p.2.width x))

/-- Byte `j` of a lane. -/
def laneByte (x : LaneBits) (j : Nat) : Nat := x.toNat / 256 ^ j % 256

/-- Lane `l` of vperm (R228): its four bytes, and the join of B's tag with the tags of the A lanes that they name. -/
def permLane (e : Env) (l : Nat) : Tag × LaneBits :=
  let b := e.lane .B l
  let sels := (List.range 4).map (laneByte b.v)
  let tag := tagJoin (b.tag :: (sels.filter (· < 128)).map fun k => (e.lane .A (k / 4)).tag)
  let bytes := sels.map fun k => if k < 128 then laneByte (e.lane .A (k / 4)).v (k % 4) else 0
  (tag, BitVec.ofNat 32 (leNat (bytes.map (BitVec.ofNat 8))))

/-! ## Table interpolation (R235 to R237) -/

/-- A load's view of `n` scratchpad bytes for vitp (R237): VOID where they do not lie wholly below SCRATCH_BYTES, POISON
where one is poisoned; the bytes count where the tag is VALID. -/
def vitpRead (t : Tile) (a n : Nat) : Tag × List Byte :=
  if t.img.scratch < a + n then (.void, [])
  else (t.spad.tagOf 4 a n, t.spad.read a n)

/-- The entry index and the fraction of an input (R236); none where u is NaN. -/
def vitpIndex (x x0 : Ext) (stepE : Int) (nm1 : Nat) (lo hi : Bool) : Option (Nat × Ext) :=
  let u := (x.sub x0).scaleBy (pow2 (-stepE))
  let top := Ext.ofInt nm1
  if u.isNan then none
  else if u.cmp (.zero false) = .lt then some (0, if lo then u else .zero false)
  else if u.cmp top ≠ .lt then some (nm1, if hi then u.sub top else .zero false)
  else
    let j := (u.rat.1.toNat) / u.rat.2
    some (j, u.sub (Ext.ofInt j))

/-- One lane of vitp (R236, R237): the input's format, and the descriptor's bytes. -/
def vitpLane (t : Tile) (f : Fmt) (desc : List Byte) (x : LaneBits) : Lane :=
  let x0 := decodeFmt .f32 (leNat (desc.take 4))
  let w1 := leNat ((desc.drop 4).take 4)
  let table := leNat ((desc.drop 8).take 4) / 8 * 8
  let nan : Lane := { v := rneLane f .nan, tag := .valid }
  let xv := laneValue (.flt f) x
  if xv.isNan || x0.isNan then nan
  else match vitpIndex xv x0 (sextN w1 8) (w1 / 2 ^ 16 % 4096) (w1.testBit 28) (w1.testBit 29) with
    | none => nan
    | some (j, fr) =>
      let r := vitpRead t (table + 8 * j) 8
      match r.1 with
      | .valid =>
        let y := decodeFmt .f32 (leNat (r.2.take 4))
        let v := if fr.isZero then y else y.add ((decodeFmt .f32 (leNat (r.2.drop 4))).mul fr)
        { v := rneLane f v, tag := .valid }
      | tg => { v := 0, tag := tg }

/-- vitp (R235 to R237): a descriptor that does not lie wholly below SCRATCH_BYTES makes every lane that is on VOID; otherwise the lane's operands
decide, with the descriptor's POISON joined (log 28). -/
def vitpSem (m : BitVec 3) (f : Fmt) : OpSem :=
  OpSem.vector 6 fun e s =>
    let t := s.me
    let b := e.b
    let d := vitpRead t (b.v.toNat / 16 * 16) 16
    let dtag := if b.tag = .valid then d.1 else b.tag
    let k := s.mask m
    e.pushVector 6 (vmk 32 fun l =>
      let x := e.lane .A l
      if !k.on l || (b.tag = .valid && d.1 = .void) then { v := 0, tag := .void }
      else match x.tag.join dtag with
        | .valid => vitpLane t f d.2 x.v
        | tg => { v := 0, tag := tg }) s

/-! ## The operations -/

/-- R226: a. -/
def semVmov (f : FormVU) : OpSem :=
  lane1 2 f.m id

/-- vmov: R226: a. -/
def execVmov (f : FormVU) (s : State) : Host.Outcome State Fault Refusal :=
  issueAlone (.vmov f) (semVmov f) s

/-- R227: the mask selects a or b, lane by lane; G alone turns the operation off. -/
def semVsel (f : FormVA) : OpSem :=
  OpSem.vector 2 fun e s =>
    let k := s.mask f.m
    e.pushVector 2 (vmk 32 fun l =>
      if k.voids.getLsbD l then { v := 0, tag := .void }
      else
        let x := if k.vals.getLsbD l then e.lane .A l else e.lane .B l
        if x.tag = .void then { v := 0, tag := .void } else x) s

/-- vsel: R227: the mask selects a or b, lane by lane; G alone turns the operation off. -/
def execVsel (f : FormVA) (s : State) : Host.Outcome State Fault Refusal :=
  issueAlone (.vsel f) (semVsel f) s

/-- R234: the doubles compare of each on lane, taken after cycle t + 1. -/
def semVchk (f : FormVK) : OpSem :=
  OpSem.plain fun e s => s.mapMe fun t =>
    let k := vget t.vec.m f.m.toNat
    let ws := (List.range 32).map fun l =>
      if k.on l then doubleWords ((e.lane .A l).tag, (e.lane .A l).v.toNat) ((e.lane .B l).tag, (e.lane .B l).v.toNat)
      else (0, 0)
    t.compared .doubles (e.cycle + 1) e.addr e.cycle e.iss.slot.idx (ws.map Prod.fst) (ws.map Prod.snd)

/-- vchk: R234: the doubles compare of each on lane, taken after cycle t + 1. -/
def execVchk (f : FormVK) (s : State) : Host.Outcome State Fault Refusal :=
  issueAlone (.vchk f) (semVchk f) s

/-- R232: the conversion of a pair, with a mode and SAT. -/
def semVcvt (f : FormVT) : OpSem :=
  lane1 3 f.m (convertLane f.pair.toNat (RMode.ofCode f.r.toNat) f.sat)

/-- vcvt: R232: the conversion of a pair, with a mode and SAT. -/
def execVcvt (f : FormVT) (s : State) : Host.Outcome State Fault Refusal :=
  issueAlone (.vcvt f) (semVcvt f) s

/-- R226: a AND b. -/
def semVand (f : FormVA) : OpSem :=
  lane2 2 f.m (· &&& ·)

/-- vand: R226: a AND b. -/
def execVand (f : FormVA) (s : State) : Host.Outcome State Fault Refusal :=
  issueAlone (.vand f) (semVand f) s

/-- R226: a OR b. -/
def semVor (f : FormVA) : OpSem :=
  lane2 2 f.m (· ||| ·)

/-- vor: R226: a OR b. -/
def execVor (f : FormVA) (s : State) : Host.Outcome State Fault Refusal :=
  issueAlone (.vor f) (semVor f) s

/-- R226: a XOR b. -/
def semVxor (f : FormVA) : OpSem :=
  lane2 2 f.m (· ^^^ ·)

/-- vxor: R226: a XOR b. -/
def execVxor (f : FormVA) (s : State) : Host.Outcome State Fault Refusal :=
  issueAlone (.vxor f) (semVxor f) s

/-- R226: (a × 2^n) mod 2^32. -/
def semVshl (f : FormVA) : OpSem :=
  lane2 2 f.m fun a b => a <<< (b.toNat % 32)

/-- vshl: R226: (a × 2^n) mod 2^32. -/
def execVshl (f : FormVA) (s : State) : Host.Outcome State Fault Refusal :=
  issueAlone (.vshl f) (semVshl f) s

/-- R226: floor(a / 2^n). -/
def semVshrZ32 (f : FormVA) : OpSem :=
  lane2 2 f.m fun a b => a >>> (b.toNat % 32)

/-- vshr.z32: R226: floor(a / 2^n). -/
def execVshrZ32 (f : FormVA) (s : State) : Host.Outcome State Fault Refusal :=
  issueAlone (.vshrZ32 f) (semVshrZ32 f) s

/-- R226: floor(sa / 2^n) mod 2^32. -/
def semVshrS32 (f : FormVA) : OpSem :=
  lane2 2 f.m fun a b => a.sshiftRight (b.toNat % 32)

/-- vshr.s32: R226: floor(sa / 2^n) mod 2^32. -/
def execVshrS32 (f : FormVA) (s : State) : Host.Outcome State Fault Refusal :=
  issueAlone (.vshrS32 f) (semVshrS32 f) s

/-- R228: the bytes of A permuted by the bytes of B. -/
def semVperm (f : FormVA) : OpSem :=
  laneSem 3 f.m (fun e l => (permLane e l).1) fun e l => (permLane e l).2

/-- vperm: R228: the bytes of A permuted by the bytes of B. -/
def execVperm (f : FormVA) (s : State) : Host.Outcome State Fault Refusal :=
  issueAlone (.vperm f) (semVperm f) s

/-- R229: a lane k, k from b lane 0. -/
def semVbcast (f : FormVA) : OpSem :=
  let k := fun (e : Env) => (e.lane .B 0).v.toNat % 32
  laneSem 2 f.m (fun e _ => (e.lane .A (k e)).tag.join (e.lane .B 0).tag) fun e _ => (e.lane .A (k e)).v

/-- vbcast: R229: a lane k, k from b lane 0. -/
def execVbcast (f : FormVA) (s : State) : Host.Outcome State Fault Refusal :=
  issueAlone (.vbcast f) (semVbcast f) s

/-- R226: (a + b) mod 2^32. -/
def semVaddS32 (f : FormVA) : OpSem :=
  lane2 2 f.m (· + ·)

/-- vadd.s32: R226: (a + b) mod 2^32. -/
def execVaddS32 (f : FormVA) (s : State) : Host.Outcome State Fault Refusal :=
  issueAlone (.vaddS32 f) (semVaddS32 f) s

/-- R226: (a - b) mod 2^32. -/
def semVsubS32 (f : FormVA) : OpSem :=
  lane2 2 f.m (· - ·)

/-- vsub.s32: R226: (a - b) mod 2^32. -/
def execVsubS32 (f : FormVA) (s : State) : Host.Outcome State Fault Refusal :=
  issueAlone (.vsubS32 f) (semVsubS32 f) s

/-- R226: (a × b) mod 2^32. -/
def semVmulS32 (f : FormVA) : OpSem :=
  lane2 3 f.m (· * ·)

/-- vmul.s32: R226: (a × b) mod 2^32. -/
def execVmulS32 (f : FormVA) (s : State) : Host.Outcome State Fault Refusal :=
  issueAlone (.vmulS32 f) (semVmulS32 f) s

/-- R226: sat_s32(sa + sb) mod 2^32. -/
def semVaddsS32 (f : FormVA) : OpSem :=
  lane2 2 f.m fun a b => BitVec.ofInt 32 (satS 32 (a.toInt + b.toInt))

/-- vadds.s32: R226: sat_s32(sa + sb) mod 2^32. -/
def execVaddsS32 (f : FormVA) (s : State) : Host.Outcome State Fault Refusal :=
  issueAlone (.vaddsS32 f) (semVaddsS32 f) s

/-- R226: a if sa ≤ sb, else b. -/
def semVminS32 (f : FormVA) : OpSem :=
  lane2 2 f.m fun a b => if a.toInt ≤ b.toInt then a else b

/-- vmin.s32: R226: a if sa ≤ sb, else b. -/
def execVminS32 (f : FormVA) (s : State) : Host.Outcome State Fault Refusal :=
  issueAlone (.vminS32 f) (semVminS32 f) s

/-- R226: a if a ≤ b, else b. -/
def semVminZ32 (f : FormVA) : OpSem :=
  lane2 2 f.m fun a b => if a.toNat ≤ b.toNat then a else b

/-- vmin.z32: R226: a if a ≤ b, else b. -/
def execVminZ32 (f : FormVA) (s : State) : Host.Outcome State Fault Refusal :=
  issueAlone (.vminZ32 f) (semVminZ32 f) s

/-- R226: a if sa ≥ sb, else b. -/
def semVmaxS32 (f : FormVA) : OpSem :=
  lane2 2 f.m fun a b => if b.toInt ≤ a.toInt then a else b

/-- vmax.s32: R226: a if sa ≥ sb, else b. -/
def execVmaxS32 (f : FormVA) (s : State) : Host.Outcome State Fault Refusal :=
  issueAlone (.vmaxS32 f) (semVmaxS32 f) s

/-- R226: a if a ≥ b, else b. -/
def semVmaxZ32 (f : FormVA) : OpSem :=
  lane2 2 f.m fun a b => if b.toNat ≤ a.toNat then a else b

/-- vmax.z32: R226: a if a ≥ b, else b. -/
def execVmaxZ32 (f : FormVA) (s : State) : Host.Outcome State Fault Refusal :=
  issueAlone (.vmaxZ32 f) (semVmaxZ32 f) s

/-- R231: a signed compare into a mask pair. -/
def semVcmpS32 (f : FormVC) : OpSem :=
  vcmpSem f.m f.j fun a b => cmpInt f.cond.toNat a.toInt b.toInt

/-- vcmp.s32: R231: a signed compare into a mask pair. -/
def execVcmpS32 (f : FormVC) (s : State) : Host.Outcome State Fault Refusal :=
  issueAlone (.vcmpS32 f) (semVcmpS32 f) s

/-- R231: an unsigned compare into a mask pair. -/
def semVcmpZ32 (f : FormVC) : OpSem :=
  vcmpSem f.m f.j fun a b => cmpNat f.cond.toNat a.toNat b.toNat

/-- vcmp.z32: R231: an unsigned compare into a mask pair. -/
def execVcmpZ32 (f : FormVC) (s : State) : Host.Outcome State Fault Refusal :=
  issueAlone (.vcmpZ32 f) (semVcmpZ32 f) s

/-- R229: lane k of A to the scalar queue, VOID where lane k is masked off. -/
def semVext (f : FormVA) : OpSem :=
  OpSem.scalar 3 fun e s =>
    let k := e.b.v.toNat % 32
    let x := e.lane .A k
    let tg := if (s.mask f.m).on k then x.tag.join e.b.tag else .void
    e.pushScalar 3 { v := if tg = .valid then x.v.setWidth 64 else 0, tag := tg } s

/-- vext: R229: lane k of A to the scalar queue, VOID where lane k is masked off. -/
def execVext (f : FormVA) (s : State) : Host.Outcome State Fault Refusal :=
  issueAlone (.vext f) (semVext f) s

/-- R229: lane k receives a, every other on lane d. -/
def semVins (f : FormVA) : OpSem :=
  let k := fun (e : Env) => e.b.v.toNat % 32
  laneSem 2 f.m (fun e l => if l = k e then e.a.tag.join e.b.tag else (e.lane .D l).tag.join e.b.tag) fun e l =>
    if l = k e then e.a.v.setWidth 32 else (e.lane .D l).v

/-- vins: R229: lane k receives a, every other on lane d. -/
def execVins (f : FormVA) (s : State) : Host.Outcome State Fault Refusal :=
  issueAlone (.vins f) (semVins f) s

/-- R233: the reciprocal seed. -/
def semVrcpF32 (f : FormVU) : OpSem :=
  lane1 4 f.m fun a => BitVec.ofNat 32 (rcpSeed a.toNat)

/-- vrcp.f32: R233: the reciprocal seed. -/
def execVrcpF32 (f : FormVU) (s : State) : Host.Outcome State Fault Refusal :=
  issueAlone (.vrcpF32 f) (semVrcpF32 f) s

/-- R233: the reciprocal square-root seed. -/
def semVrsqF32 (f : FormVU) : OpSem :=
  lane1 4 f.m fun a => BitVec.ofNat 32 (rsqSeed a.toNat)

/-- vrsq.f32: R233: the reciprocal square-root seed. -/
def execVrsqF32 (f : FormVU) (s : State) : Host.Outcome State Fault Refusal :=
  issueAlone (.vrsqF32 f) (semVrsqF32 f) s

/-- R235 to R237: table interpolation in f32. -/
def semVitpF32 (f : FormVA) : OpSem :=
  vitpSem f.m .f32

/-- vitp.f32: R235 to R237: table interpolation in f32. -/
def execVitpF32 (f : FormVA) (s : State) : Host.Outcome State Fault Refusal :=
  issueAlone (.vitpF32 f) (semVitpF32 f) s

/-- R235 to R237: table interpolation in bf16. -/
def semVitpBf16 (f : FormVA) : OpSem :=
  vitpSem f.m .bf16

/-- vitp.bf16: R235 to R237: table interpolation in bf16. -/
def execVitpBf16 (f : FormVA) (s : State) : Host.Outcome State Fault Refusal :=
  issueAlone (.vitpBf16 f) (semVitpBf16 f) s

/-- R230: rne(a + b). -/
def semVaddF (f : FormVF) : OpSem :=
  flt2 4 f.t f.m Ext.add

/-- vadd: R230: rne(a + b). -/
def execVaddF (f : FormVF) (s : State) : Host.Outcome State Fault Refusal :=
  issueAlone (.vaddF f) (semVaddF f) s

/-- R230: rne(a - b). -/
def semVsubF (f : FormVF) : OpSem :=
  flt2 4 f.t f.m Ext.sub

/-- vsub: R230: rne(a - b). -/
def execVsubF (f : FormVF) (s : State) : Host.Outcome State Fault Refusal :=
  issueAlone (.vsubF f) (semVsubF f) s

/-- R230: rne(a × b). -/
def semVmulF (f : FormVF) : OpSem :=
  flt2 4 f.t f.m Ext.mul

/-- vmul: R230: rne(a × b). -/
def execVmulF (f : FormVF) (s : State) : Host.Outcome State Fault Refusal :=
  issueAlone (.vmulF f) (semVmulF f) s

/-- R230: rne(d + a × b), one rounding. -/
def semVfma (f : FormVF) : OpSem :=
  flt3 5 f.t f.m fun a b d => d.add (a.mul b)

/-- vfma: R230: rne(d + a × b), one rounding. -/
def execVfma (f : FormVF) (s : State) : Host.Outcome State Fault Refusal :=
  issueAlone (.vfma f) (semVfma f) s

/-- R230: rne(d - a × b), one rounding. -/
def semVfnma (f : FormVF) : OpSem :=
  flt3 5 f.t f.m fun a b d => d.sub (a.mul b)

/-- vfnma: R230: rne(d - a × b), one rounding. -/
def execVfnma (f : FormVF) (s : State) : Host.Outcome State Fault Refusal :=
  issueAlone (.vfnma f) (semVfnma f) s

/-- R230, R93: the lesser. -/
def semVminF (f : FormVF) : OpSem :=
  flt2 2 f.t f.m Ext.min

/-- vmin: R230, R93: the lesser. -/
def execVminF (f : FormVF) (s : State) : Host.Outcome State Fault Refusal :=
  issueAlone (.vminF f) (semVminF f) s

/-- R230, R93: the greater. -/
def semVmaxF (f : FormVF) : OpSem :=
  flt2 2 f.t f.m Ext.max

/-- vmax: R230, R93: the greater. -/
def execVmaxF (f : FormVF) (s : State) : Host.Outcome State Fault Refusal :=
  issueAlone (.vmaxF f) (semVmaxF f) s

/-- R231, R93: a floating compare into a mask pair. -/
def semVcmpF (f : FormVFC) : OpSem :=
  let fm := ElemFmt.flt (fltOf f.t)
  vcmpSem f.m f.j fun a b => extCompare f.cond.toNat (laneValue fm a) (laneValue fm b)

/-- vcmp: R231, R93: a floating compare into a mask pair. -/
def execVcmpF (f : FormVFC) (s : State) : Host.Outcome State Fault Refusal :=
  issueAlone (.vcmpF f) (semVcmpF f) s

end Sys2Proof.Machine
end

