-- ==== Sys2Proof/Machine/MSlot.lean ====
section
/-! DEFINITION. The M-slot operations (chapter 10): addresses, bounds and tags, scalar and vector accesses, local
atomics, the ragged load and the binding of shapes. -/
namespace Sys2Proof.Machine

/-! ## Addresses, bounds and tags (R213 to R216) -/

/-- The address of a scalar or contiguous access with its tag: A plus the offset, or the latched address (R213). -/
def Env.address (e : Env) : Scalar :=
  if e.iss.op.postInc then e.iss.latch
  else
    let a := e.a
    let o := e.offset
    { v := a.v + o.v, tag := a.tag.join o.tag }

/-- An address aligned down to a multiple of `z`. -/
def alignDown (a z : Nat) : Nat := a - a % z

/-- The addresses of the lanes of a contiguous vector access (R220). -/
def Env.blockLanes (e : Env) : List (Nat × Tag) :=
  let a := e.address
  (List.range 32).map fun l => (alignDown a.v.toNat 4 + 4 * l, a.tag)

/-- The addresses of the lanes of a strided vector access (R220). -/
def Env.strideLanes (e : Env) : List (Nat × Tag) :=
  let a := e.a
  let o := e.offset
  (List.range 32).map fun l => (alignDown (a.v + o.v * BitVec.ofNat 64 l).toNat 4, a.tag.join o.tag)

/-- The addresses of the lanes of an indexed vector access (R220). -/
def Env.indexLanes (e : Env) : List (Nat × Tag) :=
  let a := e.a
  (List.range 32).map fun l =>
    let x := e.lane .B l
    (alignDown (a.v + x.v.setWidth 64).toNat 4, a.tag.join x.tag)

/-- The least of a list of numbers. -/
def leastOf : List Nat → Option Nat
  | [] => none
  | a :: rest => some (rest.foldl min a)

/-- What the touched byte ranges raise (R214; R338 in a handler), each with the lowest byte that fails. -/
def boundsCands (t : Tile) (slot : Nat) (write : Bool) (rs : List (Nat × Nat)) : List Cand :=
  if t.priv.active then
    (if rs.any fun r => decide (0x600000 < r.1 + r.2) then [hfCand slot 1 2] else [])
  else
    let lim := t.img.scratch
    let c0 := t.img.codeOff
    let c1 := c0 + t.img.codeLen
    let above := rs.filterMap fun r => if lim < r.1 + r.2 then some (max r.1 lim) else none
    let code := rs.filterMap fun r => if write ∧ r.1 < c1 ∧ c0 < r.1 + r.2 then some (max r.1 c0) else none
    (match leastOf above with | some a => [{ cause := 2, sub := 6, slot := slot, value := word a }] | none => []) ++
    (match leastOf code with | some a => [{ cause := 2, sub := 7, slot := slot, value := word a }] | none => [])

/-- The ranges of the lanes that a load touches. -/
def loadRanges (z : Nat) (ls : List (Nat × Tag)) : List (Nat × Nat) :=
  ls.filterMap fun l => if l.2 = .valid then some (l.1, z) else none

/-- The ranges of the lanes that a store touches (R214): data that is VOID is not written. The bytes of a lane whose data is POISON, which the
store consumes and does not write, are checked (DESIGN CHOICE, log 104). -/
def storeRanges (z : Nat) (ls : List ((Nat × Tag) × (Nat × Tag))) : List (Nat × Nat) :=
  ls.filterMap fun l => if l.1.2 = .valid ∧ l.2.2 ≠ .void then some (l.1.1, z) else none

/-! ## Loads (R219, R220) -/

/-- A word read from the scratchpad as at the start of the cycle, POISON by R215. -/
def loadBytes (t : Tile) (a z : Nat) : Nat × Tag :=
  if t.spad.anyPoison a z then (0, t.spad.tagOf 4 a z) else (t.spad.readLe a z, .valid)

/-- A scalar load of `z` bytes (R219). -/
def loadSem (z : Nat) (signed : Bool) : OpSem :=
  { OpSem.scalar 4 (fun e s =>
      let a := e.address
      e.pushScalar 4 (match a.tag with
        | .valid =>
          let r := loadBytes s.me (alignDown a.v.toNat z) z
          { v := if signed then BitVec.ofInt 64 (sextN r.1 (8 * z)) else word r.1, tag := r.2 }
        | tg => { v := 0, tag := tg }) s) with
    dyn := fun e s => boundsCands s.me e.iss.slot.idx false
      (loadRanges z [(alignDown e.address.v.toNat z, e.address.tag)]) }

/-- A vector load of the given lanes (R220). -/
def vloadSem (lat : Nat) (lanes : Env → List (Nat × Tag)) : OpSem :=
  { OpSem.vector lat (fun e s =>
      let ls := lanes e
      let t := s.me
      e.pushVector lat (vmk 32 fun l =>
        let a := ls.getD l (0, .void)
        match a.2 with
        | .valid => let r := loadBytes t a.1 4; { v := BitVec.ofNat 32 r.1, tag := r.2 }
        | tg => { v := 0, tag := tg }) s) with
    dyn := fun e s => boundsCands s.me e.iss.slot.idx false (loadRanges 4 (lanes e)) }

/-! ## Stores (R219, R220) -/

/-- The cells of `z` bytes of a value. -/
def cellsOf (a z v : Nat) : List Host.Cell := (List.range z).zip (leBytes z v) |>.map fun p => (a + p.1, p.2)

/-- A store leaves a write to the end of the cycle (R160). -/
def State.putWrite (s : State) (cs : List Host.Cell) : State :=
  if cs.isEmpty then s
  else s.mapMe fun t => { t with dfr := { t.dfr with writes := t.dfr.writes ++ [{ cells := cs, poison := [] }] } }

/-- The POISON that a store consumes (R59, R216): of the first word or lane whose address, or whose data under a VALID address, is POISON. -/
def storePoison (ls : List ((Nat × Tag) × (Nat × Tag))) : Option Tag :=
  ls.findSome? fun l => if l.1.2.isPoison then some l.1.2 else if l.1.2 = .valid ∧ l.2.2.isPoison then some l.2.2 else none

/-- A store of words or lanes of `z` bytes: addresses with the data and its tag (R216). -/
def storeSem (z : Nat) (lanes : Env → List ((Nat × Tag) × (Nat × Tag))) : OpSem :=
  { OpSem.plain (fun e s =>
      let ls := lanes e
      match storePoison ls with
      | some tg => e.consume tg s
      | none => s.putWrite ((ls.filter fun l => decide (l.1.2 = .valid) && decide (l.2.2 = .valid)).map fun l =>
        cellsOf l.1.1 z l.2.1).flatten) with
    dyn := fun e s => boundsCands s.me e.iss.slot.idx true (storeRanges z (lanes e)) }

/-- A scalar store of `z` bytes (R219). -/
def scalarStoreSem (z : Nat) : OpSem :=
  storeSem z fun e => [((alignDown e.address.v.toNat z, e.address.tag), (e.d.v.toNat, e.d.tag))]

/-- A vector store of the given lanes (R220). -/
def vstoreSem (lanes : Env → List (Nat × Tag)) : OpSem :=
  storeSem 4 fun e => (lanes e).zip ((List.range 32).map fun l => ((e.lane .D l).v.toNat, (e.lane .D l).tag))

/-! ## Local atomics (R223) -/

/-- The scratchpad as the stores of M0 in this cycle leave it, which M1's atomic reads (R160, R223). -/
def Tile.spadAfterM0 (t : Tile) : Store := t.dfr.writes.foldl Store.apply t.spad

/-- A local atomic (R223): its new value from the old one, b and d. -/
def localAtomicSem (f : Word → Word → Word → Word) : OpSem :=
  let tag := fun (e : Env) =>
    if e.a.tag = .void then Tag.void else tagJoin (e.vals.map fun p => match p.2 with | .sc x => x.tag | .ve _ => .valid)
  { OpSem.scalar 4 (fun e s =>
      match tag e with
      | .poison o => e.consume (.poison o) s
      | .void => e.pushScalar 4 zeroVoid s
      | .valid =>
        let ea := alignDown e.a.v.toNat 8
        let m := s.me.spadAfterM0
        if m.anyPoison ea 8 then e.pushScalar 4 { v := 0, tag := m.tagOf 4 ea 8 } s
        else
          let old := word (m.readLe ea 8)
          e.pushScalar 4 (validWord old) (s.putWrite (cellsOf ea 8 (f old e.b.v e.d.v).toNat))) with
    dyn := fun e s => if tag e = .valid then boundsCands s.me e.iss.slot.idx true [(alignDown e.a.v.toNat 8, 8)] else [] }

/-! ## Shapes (R103 to R115, R221, R222) -/

/-- The first row of segment k (R105). -/
def Shape.segStart (h : Shape) (k : Nat) : Nat := if k = 0 then 0 else h.ends.getD (k - 1) 0
/-- The number of elements of segment k (R105). -/
def Shape.segElems (h : Shape) (k : Nat) : Nat := (h.ends.getD k 0 - h.segStart k) * h.rowLen

/-- A shape trap of shape register `h` (R113). -/
def shapeCand (h slot sub v : Nat) : Cand := { cause := 5, sub := sub, slot := slot, value := word v, shape := some h }

/-- Whether naming a shape register is an early read that traps, in place of using the previous binding (R108). -/
def Tile.shapeEarly (t : Tile) (h : Nat) : Bool := t.priv.earlyTrap && t.k.bindPending t.k.cycle h

/-- Segment index and element offset of an operand b (R221, R238). -/
def segIndex (b : Word) : Nat × Nat := (b.toNat % 2 ^ 32, b.toNat / 2 ^ 32)

/-- The lanes in the segment (R221, R238). -/
def Shape.lanes (h : Shape) (b : Word) : Nat := min 32 (h.segElems (segIndex b).1 - (segIndex b).2)

/-- What a segment-indexed operation raises (R113, R221, R238), `tag` being that of its operands. -/
def segCands (t : Tile) (slot h : Nat) (tag : Tag) (b : Word) : List Cand :=
  if t.shapeEarly h then []
  else match vget t.shapes h with
    | none => [shapeCand h slot 1 0]
    | some sh => if tag = .valid ∧ sh.ends.length ≤ (segIndex b).1 then [shapeCand h slot 8 (segIndex b).1] else []

/-- Bit position and width of the element of lane l of vldr (R221). -/
def Shape.bitPos (h : Shape) (a b : Word) (l : Nat) : Nat :=
  let i := segIndex b
  8 * a.toNat + fmtWidth h.fmt * (h.segStart i.1 * h.rowLen + i.2 + l)

/-- The bytes that an element at a bit position touches. -/
def bitRange (w p : Nat) : Nat × Nat := (p / 8, (p + w - 1) / 8 - p / 8 + 1)

/-- An element of width `w` at a bit position, POISON by R215 (R85). -/
def loadBits (t : Tile) (w p : Nat) : Nat × Tag :=
  let r := bitRange w p
  if t.spad.anyPoison r.1 r.2 then (0, t.spad.tagOf 4 r.1 r.2) else (t.spad.readLe r.1 r.2 / 2 ^ (p % 8) % 2 ^ w, .valid)

/-- What a shape record at a base raises (04 Table 4.3): a word that would lie beyond the physical scratchpad reads as zero for the checks before
0x7, and of two words with a reserved field that is not zero 0x2 reports the first (DESIGN CHOICE, log 93). -/
def recordCands (m : Store) (scratch base h slot : Nat) : List Cand :=
  let w0 := m.readLe base 4
  let w1 := m.readLe (base + 4) 4
  let fmt := w0 % 16
  let row := w0 / 256
  let n := w1 % 1024
  let inside := decide (base + 8 ≤ Config.spadBytes)
  let ends := (List.range n).map fun k => m.readLe (base + 8 + 4 * k) 4
  let bad := (List.range (n - 1)).find? fun k => decide (ends.getD (k + 1) 0 < ends.getD k 0)
  (if !inside then []
   else
    (if w0 / 16 % 16 ≠ 0 then [shapeCand h slot 2 base] else if w1 / 1024 ≠ 0 then [shapeCand h slot 2 (base + 4)] else []) ++
    (if 14 ≤ fmt then [shapeCand h slot 3 fmt] else []) ++
    (if row = 0 ∨ row * fmtWidth fmt % 8 ≠ 0 then [shapeCand h slot 4 row] else []) ++
    (if 512 < n then [shapeCand h slot 5 n] else []) ++
    (match bad with | some k => [shapeCand h slot 6 (k + 1)] | none => [])) ++
  (if base % 64 ≠ 0 ∨ !inside ∨ scratch < base + 8 + 4 * n then [shapeCand h slot 7 (base % 2 ^ 32)] else [])

/-- The snapshot of the record at a base (R107). -/
def recordShape (m : Store) (base : Nat) : Shape :=
  let w0 := m.readLe base 4
  { fmt := w0 % 16, rowLen := w0 / 256,
    ends := (List.range (m.readLe (base + 4) 4 % 1024)).map fun k => m.readLe (base + 8 + 4 * k) 4 }

/-! ## The operations -/

/-- R219: 1 byte, sign-extended. -/
def semLdS8 (_f : FormMA) : OpSem :=
  loadSem 1 true

/-- ld.s8: R219: 1 byte, sign-extended. -/
def execLdS8 (f : FormMA) (s : State) : Host.Outcome State Fault Refusal :=
  issueAlone (.ldS8 f) (semLdS8 f) s

/-- R219: 1 byte, zero-extended. -/
def semLdZ8 (_f : FormMA) : OpSem :=
  loadSem 1 false

/-- ld.z8: R219: 1 byte, zero-extended. -/
def execLdZ8 (f : FormMA) (s : State) : Host.Outcome State Fault Refusal :=
  issueAlone (.ldZ8 f) (semLdZ8 f) s

/-- R219: 2 bytes, sign-extended. -/
def semLdS16 (_f : FormMA) : OpSem :=
  loadSem 2 true

/-- ld.s16: R219: 2 bytes, sign-extended. -/
def execLdS16 (f : FormMA) (s : State) : Host.Outcome State Fault Refusal :=
  issueAlone (.ldS16 f) (semLdS16 f) s

/-- R219: 2 bytes, zero-extended. -/
def semLdZ16 (_f : FormMA) : OpSem :=
  loadSem 2 false

/-- ld.z16: R219: 2 bytes, zero-extended. -/
def execLdZ16 (f : FormMA) (s : State) : Host.Outcome State Fault Refusal :=
  issueAlone (.ldZ16 f) (semLdZ16 f) s

/-- R219: 4 bytes, sign-extended. -/
def semLdS32 (_f : FormMA) : OpSem :=
  loadSem 4 true

/-- ld.s32: R219: 4 bytes, sign-extended. -/
def execLdS32 (f : FormMA) (s : State) : Host.Outcome State Fault Refusal :=
  issueAlone (.ldS32 f) (semLdS32 f) s

/-- R219: 4 bytes, zero-extended. -/
def semLdZ32 (_f : FormMA) : OpSem :=
  loadSem 4 false

/-- ld.z32: R219: 4 bytes, zero-extended. -/
def execLdZ32 (f : FormMA) (s : State) : Host.Outcome State Fault Refusal :=
  issueAlone (.ldZ32 f) (semLdZ32 f) s

/-- R219: 8 bytes. -/
def semLdZ64 (_f : FormMA) : OpSem :=
  loadSem 8 false

/-- ld.z64: R219: 8 bytes. -/
def execLdZ64 (f : FormMA) (s : State) : Host.Outcome State Fault Refusal :=
  issueAlone (.ldZ64 f) (semLdZ64 f) s

/-- R219: the low 1 byte of D. -/
def semStZ8 (_f : FormMA) : OpSem :=
  scalarStoreSem 1

/-- st.z8: R219: the low 1 byte of D. -/
def execStZ8 (f : FormMA) (s : State) : Host.Outcome State Fault Refusal :=
  issueAlone (.stZ8 f) (semStZ8 f) s

/-- R219: the low 2 bytes of D. -/
def semStZ16 (_f : FormMA) : OpSem :=
  scalarStoreSem 2

/-- st.z16: R219: the low 2 bytes of D. -/
def execStZ16 (f : FormMA) (s : State) : Host.Outcome State Fault Refusal :=
  issueAlone (.stZ16 f) (semStZ16 f) s

/-- R219: the low 4 bytes of D. -/
def semStZ32 (_f : FormMA) : OpSem :=
  scalarStoreSem 4

/-- st.z32: R219: the low 4 bytes of D. -/
def execStZ32 (f : FormMA) (s : State) : Host.Outcome State Fault Refusal :=
  issueAlone (.stZ32 f) (semStZ32 f) s

/-- R219: the low 8 bytes of D. -/
def semStZ64 (_f : FormMA) : OpSem :=
  scalarStoreSem 8

/-- st.z64: R219: the low 8 bytes of D. -/
def execStZ64 (f : FormMA) (s : State) : Host.Outcome State Fault Refusal :=
  issueAlone (.stZ64 f) (semStZ64 f) s

/-- R220: 128 contiguous bytes. -/
def semVld (_f : FormMA) : OpSem :=
  vloadSem 5 Env.blockLanes

/-- vld: R220: 128 contiguous bytes. -/
def execVld (f : FormMA) (s : State) : Host.Outcome State Fault Refusal :=
  issueAlone (.vld f) (semVld f) s

/-- R220: 128 contiguous bytes. -/
def semVst (_f : FormMA) : OpSem :=
  vstoreSem Env.blockLanes

/-- vst: R220: 128 contiguous bytes. -/
def execVst (f : FormMA) (s : State) : Host.Outcome State Fault Refusal :=
  issueAlone (.vst f) (semVst f) s

/-- R220: 32 words at a stride. -/
def semVlds (_f : FormMA) : OpSem :=
  vloadSem 5 Env.strideLanes

/-- vlds: R220: 32 words at a stride. -/
def execVlds (f : FormMA) (s : State) : Host.Outcome State Fault Refusal :=
  issueAlone (.vlds f) (semVlds f) s

/-- R220: 32 words at a stride. -/
def semVsts (_f : FormMA) : OpSem :=
  vstoreSem Env.strideLanes

/-- vsts: R220: 32 words at a stride. -/
def execVsts (f : FormMA) (s : State) : Host.Outcome State Fault Refusal :=
  issueAlone (.vsts f) (semVsts f) s

/-- R220: 32 words at offsets from a vector. -/
def semVldx (_f : FormDAB) : OpSem :=
  vloadSem 6 Env.indexLanes

/-- vldx: R220: 32 words at offsets from a vector. -/
def execVldx (f : FormDAB) (s : State) : Host.Outcome State Fault Refusal :=
  issueAlone (.vldx f) (semVldx f) s

/-- R220: 32 words at offsets from a vector. -/
def semVstx (_f : FormDAB) : OpSem :=
  vstoreSem Env.indexLanes

/-- vstx: R220: 32 words at offsets from a vector. -/
def execVstx (f : FormDAB) (s : State) : Host.Outcome State Fault Refusal :=
  issueAlone (.vstx f) (semVstx f) s

/-- R221: elements of a segment of a packed tensor, lanes outside it VOID. With EARLY_TRAP 1 within the latency of a bind, its bytes are checked
against SCRATCH_BYTES by the previous binding (DESIGN CHOICE, log 91). -/
def semVldr (f : FormHDAB) : OpSem :=
  let h := f.h.toNat
  let tag := fun (e : Env) => e.a.tag.join e.b.tag
  { OpSem.vector 6 (fun e s =>
      let t := s.me
      match vget t.shapes h with
      | none => e.pushVector 6 vvoid s
      | some sh =>
        if tag e ≠ .valid then e.pushVector 6 (splat 0 (tag e)) s
        else
          let w := fmtWidth sh.fmt
          e.pushVector 6 (vmk 32 fun l =>
            if l < sh.lanes e.b.v then
              let r := loadBits t w (sh.bitPos e.a.v e.b.v l)
              { v := if r.2 = .valid then placeElem ((elemFmt sh.fmt).getD (.zint 8)) r.1 else 0, tag := r.2 }
            else { v := 0, tag := .void }) s) with
    dyn := fun e s =>
      let t := s.me
      segCands t e.iss.slot.idx h (tag e) e.b.v ++
      match vget t.shapes h with
      | none => []
      | some sh =>
        if tag e = .valid ∧ (segIndex e.b.v).1 < sh.ends.length then
          boundsCands t e.iss.slot.idx false ((List.range (sh.lanes e.b.v)).map fun l =>
            bitRange (fmtWidth sh.fmt) (sh.bitPos e.a.v e.b.v l))
        else [] }

/-- vldr: R221: elements of a segment of a packed tensor, lanes outside it VOID. -/
def execVldr (f : FormHDAB) (s : State) : Host.Outcome State Fault Refusal :=
  issueAlone (.vldr f) (semVldr f) s

/-- R106 to R109: the record at A is checked, and its snapshot fills entry k at the end of cycle t + 39. -/
def semHbind (f : FormHA) : OpSem :=
  { OpSem.plain (fun e s =>
      let base := e.a.v.toNat
      match e.a.tag with
      | .void => s
      | .poison o => e.consume (.poison o) s
      | .valid =>
        let sh := recordShape s.me.spad base
        if s.me.spad.anyPoison base (8 + 4 * sh.ends.length) then e.consumeRecord base (8 + 4 * sh.ends.length) s
        else e.deliver 40 63 (.bind f.h.toNat sh) s) with
    dyn := fun e s =>
      if e.a.tag = .valid then recordCands s.me.spad s.me.img.scratch e.a.v.toNat f.h.toNat e.iss.slot.idx else [] }

/-- hbind: R106 to R109: the record at A is checked, and its snapshot fills entry k at the end of cycle t + 39. -/
def execHbind (f : FormHA) (s : State) : Host.Outcome State Fault Refusal :=
  issueAlone (.hbind f) (semHbind f) s

/-- R109: the register is unbound from the next cycle on, and binds in flight are discarded. That of a register that is unbound, or within the
latency of a bind of it, raises nothing (DESIGN CHOICE, log 90). -/
def semHunbind (f : FormH0) : OpSem :=
  OpSem.plain fun e s => e.deliver 1 63 (.unbind f.h.toNat) s

/-- hunbind: R109: the register is unbound from the next cycle on, and binds in flight are discarded. -/
def execHunbind (f : FormH0) (s : State) : Host.Outcome State Fault Refusal :=
  issueAlone (.hunbind f) (semHunbind f) s

/-- R223: the word at A becomes old + b; its old value is pushed. -/
def semLadd (_f : FormDAB) : OpSem :=
  localAtomicSem fun old b _ => old + b

/-- ladd: R223: the word at A becomes old + b; its old value is pushed. -/
def execLadd (f : FormDAB) (s : State) : Host.Outcome State Fault Refusal :=
  issueAlone (.ladd f) (semLadd f) s

/-- R223: the word at A becomes the lesser, signed; its old value is pushed. -/
def semLminS64 (_f : FormDAB) : OpSem :=
  localAtomicSem fun old b _ => if old.toInt ≤ b.toInt then old else b

/-- lmin.s64: R223: the word at A becomes the lesser, signed; its old value is pushed. -/
def execLminS64 (f : FormDAB) (s : State) : Host.Outcome State Fault Refusal :=
  issueAlone (.lminS64 f) (semLminS64 f) s

/-- R223: the word at A becomes the lesser, unsigned; its old value is pushed. -/
def semLminZ64 (_f : FormDAB) : OpSem :=
  localAtomicSem fun old b _ => if old.toNat ≤ b.toNat then old else b

/-- lmin.z64: R223: the word at A becomes the lesser, unsigned; its old value is pushed. -/
def execLminZ64 (f : FormDAB) (s : State) : Host.Outcome State Fault Refusal :=
  issueAlone (.lminZ64 f) (semLminZ64 f) s

/-- R223: the word at A becomes the greater, signed; its old value is pushed. -/
def semLmaxS64 (_f : FormDAB) : OpSem :=
  localAtomicSem fun old b _ => if b.toInt ≤ old.toInt then old else b

/-- lmax.s64: R223: the word at A becomes the greater, signed; its old value is pushed. -/
def execLmaxS64 (f : FormDAB) (s : State) : Host.Outcome State Fault Refusal :=
  issueAlone (.lmaxS64 f) (semLmaxS64 f) s

/-- R223: the word at A becomes the greater, unsigned; its old value is pushed. -/
def semLmaxZ64 (_f : FormDAB) : OpSem :=
  localAtomicSem fun old b _ => if b.toNat ≤ old.toNat then old else b

/-- lmax.z64: R223: the word at A becomes the greater, unsigned; its old value is pushed. -/
def execLmaxZ64 (f : FormDAB) (s : State) : Host.Outcome State Fault Refusal :=
  issueAlone (.lmaxZ64 f) (semLmaxZ64 f) s

/-- R223: the word at A becomes b; its old value is pushed. -/
def semLxch (_f : FormDAB) : OpSem :=
  localAtomicSem fun _ b _ => b

/-- lxch: R223: the word at A becomes b; its old value is pushed. -/
def execLxch (f : FormDAB) (s : State) : Host.Outcome State Fault Refusal :=
  issueAlone (.lxch f) (semLxch f) s

/-- R223: the word at A becomes b where the old value is d; its old value is pushed. -/
def semLcas (_f : FormDAB) : OpSem :=
  localAtomicSem fun old b d => if old = d then b else old

/-- lcas: R223: the word at A becomes b where the old value is d; its old value is pushed. -/
def execLcas (f : FormDAB) (s : State) : Host.Outcome State Fault Refusal :=
  issueAlone (.lcas f) (semLcas f) s

end Sys2Proof.Machine
end

