-- ==== Sys2Proof/Machine/Ragged.lean ====
section
/-! DEFINITION. The segmented vector operations (R238 to R241): the elements of one segment of a ragged tensor summed,
compared, scanned and normalised. -/
namespace Sys2Proof.Machine

/-- The floating format of a segmented result (10 Table 10.6). -/
def segFlt (ef : ElemFmt) : Fmt :=
  match ef with
  | .flt f => if f = .bf16 then .bf16 else if f = .f16 then .f16 else .f32
  | _ => .f32

/-- A result in the format of sums, extrema, scans and shifts (10 Table 10.6); `shift` makes it that of vssmx. -/
def segResult (ef : ElemFmt) (shift : Bool) (x : Ext) : LaneBits :=
  match ef with
  | .flt _ => rneLane (segFlt ef) x
  | .sint _ => BitVec.ofInt 32 (satS 32 x.rat.1)
  | .zint _ => if shift then BitVec.ofInt 32 (satS 32 x.rat.1) else BitVec.ofInt 32 (satZ 32 x.rat.1)

/-- The sum of terms (R240): NaN, infinities and the sign of zero as exact addition gives them. -/
def sumExt : List Ext → Ext
  | [] => .zero false
  | x :: xs => xs.foldl Ext.add x

/-- The least input (R93). -/
def minExt : List Ext → Ext
  | [] => .zero false
  | x :: xs => xs.foldl Ext.min x

/-- The greatest input (R93). -/
def maxExt : List Ext → Ext
  | [] => .zero false
  | x :: xs => xs.foldl Ext.max x

/-- Whether a value is a finite number or a zero. -/
def Ext.finite : Ext → Bool
  | .fin _ _ _ | .zero _ => true
  | _ => false

/-- The mean (R240). -/
def meanExt (xs : List Ext) : Ext := (sumExt xs).divNat xs.length

/-- The variance over the population (R115, R240). Of a segment of one element R115 and R241 say +0, and R240 that an infinite or NaN
element gives NaN; of one element that is infinite or NaN the manual says both, and which of the two stays open (a free value, log 81). -/
def varExt (xs : List Ext) : Ext :=
  if xs.all Ext.finite then
    let m := meanExt xs
    (sumExt (xs.map fun x => (x.sub m).mul (x.sub m))).divNat xs.length
  else if xs.length = 1 ∧ Config.loneVarianceZero then .zero false
  else .nan

/-- A segmented operation (R238): `lane` gives the tag of a written lane and its value from the element format, the tags
and the values of the in-segment lanes; `empty` gives the result of an empty segment (R241). -/
def segSem (lat : Nat) (h : BitVec 3) (empty : Env → State → State)
    (lane : ElemFmt → List Tag → List Ext → Nat → Tag × LaneBits) : OpSem :=
  { OpSem.vector lat (fun e s =>
      match vget s.me.shapes h.toNat with
      | none => e.pushVector lat vvoid s
      | some sh =>
        if e.b.tag ≠ .valid then e.pushVector lat (splat 0 e.b.tag) s
        else
          let n := sh.lanes e.b.v
          if n = 0 then empty e s
          else
            let ef := (elemFmt sh.fmt).getD (.zint 8)
            let tags := (List.range n).map fun l => (e.lane .A l).tag
            let xs := (List.range n).map fun l => laneValue ef (e.lane .A l).v
            e.pushVector lat (vmk 32 fun l =>
              let r := lane ef tags xs l
              { v := if r.1 = .valid then r.2 else 0, tag := r.1 }) s) with
    dyn := fun e s => segCands s.me e.iss.slot.idx h.toNat e.b.tag e.b.v }

/-- An empty segment's VOID result (R241). -/
def emptyVoid (lat : Nat) : Env → State → State := fun e s => e.pushVector lat vvoid s

/-- A reduction: one value in every lane. -/
def reduceSem (lat : Nat) (h : BitVec 3) (empty : Env → State → State) (f : ElemFmt → List Ext → LaneBits) : OpSem :=
  segSem lat h empty fun ef tags xs _ => (tagJoin tags, f ef xs)

/-- R240: the sum of the segment in every lane; zero for an empty one. -/
def semVssum (f : FormHDAB) : OpSem :=
  reduceSem 6 f.h (fun e s => e.pushVector 6 (splat 0 .valid) s) fun ef xs => segResult ef false (sumExt xs)

/-- vssum: R240: the sum of the segment in every lane; zero for an empty one. -/
def execVssum (f : FormHDAB) (s : State) : Host.Outcome State Fault Refusal :=
  issueAlone (.vssum f) (semVssum f) s

/-- R240: the least element in every lane. -/
def semVsmin (f : FormHDAB) : OpSem :=
  reduceSem 6 f.h (emptyVoid 6) fun ef xs => segResult ef false (minExt xs)

/-- vsmin: R240: the least element in every lane. -/
def execVsmin (f : FormHDAB) (s : State) : Host.Outcome State Fault Refusal :=
  issueAlone (.vsmin f) (semVsmin f) s

/-- R240: the greatest element in every lane. -/
def semVsmax (f : FormHDAB) : OpSem :=
  reduceSem 6 f.h (emptyVoid 6) fun ef xs => segResult ef false (maxExt xs)

/-- vsmax: R240: the greatest element in every lane. -/
def execVsmax (f : FormHDAB) (s : State) : Host.Outcome State Fault Refusal :=
  issueAlone (.vsmax f) (semVsmax f) s

/-- R240: the running sums of the segment. -/
def semVsscan (f : FormHDAB) : OpSem :=
  segSem 8 f.h (emptyVoid 8) fun ef tags xs l =>
    if l < xs.length then (tagJoin (tags.take (l + 1)), segResult ef false (sumExt (xs.take (l + 1)))) else (.void, 0)

/-- vsscan: R240: the running sums of the segment. -/
def execVsscan (f : FormHDAB) (s : State) : Host.Outcome State Fault Refusal :=
  issueAlone (.vsscan f) (semVsscan f) s

/-- R240: the mean in every lane. -/
def semVsmean (f : FormHDAB) : OpSem :=
  reduceSem 8 f.h (emptyVoid 8) fun ef xs => rneLane (segFlt ef) (meanExt xs)

/-- vsmean: R240: the mean in every lane. -/
def execVsmean (f : FormHDAB) (s : State) : Host.Outcome State Fault Refusal :=
  issueAlone (.vsmean f) (semVsmean f) s

/-- R240: the variance in every lane. -/
def semVsvar (f : FormHDAB) : OpSem :=
  reduceSem 10 f.h (emptyVoid 10) fun ef xs => rneLane (segFlt ef) (varExt xs)

/-- vsvar: R240: the variance in every lane. -/
def execVsvar (f : FormHDAB) (s : State) : Host.Outcome State Fault Refusal :=
  issueAlone (.vsvar f) (semVsvar f) s

/-- R240: each element less the greatest; an empty segment pushes VOID and leaves D unwritten (R241). -/
def semVssmx (f : FormHDAB) : OpSem :=
  segSem 10 f.h (fun e s => e.deliver 10 (destSpec e.iss.op.dest) (.vectorPush vvoid (destSpec e.iss.op.dest)) s) fun ef tags xs l =>
    if l < xs.length then (tagJoin tags, segResult ef true ((xs.getD l .nan).sub (maxExt xs))) else (.void, 0)

/-- vssmx: R240: each element less the greatest; an empty segment pushes VOID and leaves D unwritten (R241). -/
def execVssmx (f : FormHDAB) (s : State) : Host.Outcome State Fault Refusal :=
  issueAlone (.vssmx f) (semVssmx f) s

end Sys2Proof.Machine
end

