-- ==== Sys2Proof/Machine/XSlot.lean ====
section
/-! DEFINITION. The X-slot operations (chapter 11): configuration writes, matrix commands at issue with their checks,
the wait and the status word. -/
namespace Sys2Proof.Machine

/-- A matrix trap's candidate (R265; 11 Table 11.9). -/
def matrixCand (sub v : Nat) : Cand := { cause := 7, sub := sub, slot := 7, value := word v }

/-- Change the configuration table at the end of the issue cycle (R161, R247): no other slot reads it. -/
def State.configure (s : State) (f : MxCfg → MxCfg) : State :=
  s.mapMe fun t => { t with mx := { t.mx with cfg := f t.mx.cfg } }

/-- A configuration write of a value (R247): VOID does nothing, POISON is consumed. -/
def configSem (check : Nat → List Cand) (f : Nat → MxCfg → MxCfg) : OpSem :=
  { OpSem.plain (consuming Env.a (fun e s => s.configure (f e.a.v.toNat)) (fun _ s => s)) with
    dyn := fun e _ => if e.a.tag = .valid then check e.a.v.toNat else [] }

/-- The range check of a field (R247). -/
def rangeCand (top v : Nat) : List Cand := if top < v then [matrixCand 2 (v % 2 ^ 32)] else []

/-- The greatest value of a nest field (11 Table 11.3). -/
def nestTop (k : Nat) : Nat := match k with | 0 => 65535 | 3 => 15 | _ => 2 ^ 24 - 1

/-- A nest level with a field replaced (11 Table 11.3). -/
def Nest.put (l : Nest) (k v : Nat) : Nest :=
  match k with
  | 0 => { l with bound := v } | 1 => { l with astr := v } | 2 => { l with bstr := v } | 3 => { l with accstr := v }
  | 4 => { l with sastr := v } | 5 => { l with sbstr := v } | 6 => { l with rowstr := v } | _ => { l with colstr := v }

/-- What an xfmt value raises (R244, R247). -/
def fmtCands (v : Nat) : List Cand :=
  (if (mxPair (v % 16) (v / 16 % 16)).isNone then [matrixCand 1 (v % 2 ^ 32)] else []) ++
  (if 2 ^ 14 ≤ v then [matrixCand 2 (v % 2 ^ 32)] else [])

/-! ## Matrix commands at issue -/

/-- The number of commands incomplete at a cycle (R258). -/
def Matrix.pending (m : Matrix) (cyc : Nat) : Nat := (m.queue.filter fun x => x.incomplete cyc).length

/-- Sub-cause 0x7 (R258). -/
def fullCand (s : State) : List Cand := if 8 ≤ s.me.mx.pending s.me.k.cycle then [matrixCand 7 8] else []

/-- The words of a matrix command that the checker compares (R170): its operands and the configuration that it runs with. -/
def MxOp.words : MxOp → List Nat
  | .zero blk => [blk]
  | .go c _ sem rho =>
    ((vlist c.nest).map fun l => [l.bound, l.astr, l.bstr, l.accstr, l.sastr, l.sbstr, l.rowstr, l.colstr]).flatten ++ vlist c.base ++
    [c.afmt, c.bfmt, c.rowsM1, c.accSrc.toNat, c.abmp, c.bbmp, c.abmpOn.toNat, c.bbmpOn.toNat, c.sdiag.getD 8, sem.getD 64, rho]
  | .drain addr blk fmt rowsM1 pitch sat => [addr, blk, fmt, rowsM1, pitch, sat.toNat]

/-- A matrix command joins the queue, where its start cycle and the marks follow, and is issued as an engine command
(R170, R242, R253). -/
def Env.issueMatrix (e : Env) (x : MxCmd) (s : State) : State :=
  (s.mapMe fun t =>
    { t with mx := ({ t.mx with queue := t.mx.queue ++ [{ x with n := t.mx.next, cmd := t.eng.next }], next := t.mx.next + 1 }).schedule }) |>
    e.issueCmdWith x.op.words (.matrix s.me.mx.next)

/-- A matrix command that issues now. -/
def Env.matrixCmd (e : Env) (s : State) (op : MxOp) (sparse : Bool) : MxCmd :=
  { n := 0, cmd := 0, issue := e.cycle, addr := e.addr, op := op, sparse := sparse, start := 0, fixed := false, clkLeft := none,
    segNo := s.me.seg.number, brows := [], arows := [], wait := [], presented := false, done := false,
    waited := false, signalled := false, gate := s.me.gateRef (s.place s.cur) }

/-- The greatest address of a base and a stride field over a nest: x_l = BOUND_l - 1 (R265). -/
def MxCfg.top (c : MxCfg) (base : Nat) (f : Nest → Nat) : Nat :=
  (vlist c.nest).foldl (fun a l => a + (l.bound - 1) * f l) (c.baseAt base)

/-- The highest bytes that an operation of at least one step reads in the scratchpad (11 Table 11.9, 0x3). -/
def MxCfg.tops (c : MxCfg) : List Nat :=
  let arow := c.top 0 Nest.astr + c.rowsM1 * c.baseAt 7
  let brow := c.top 1 Nest.bstr + (c.kc - 1) * c.baseAt 8
  let wa := fmtWidth c.afmt
  let wb := fmtWidth c.bfmt
  [brow + 8 * wb - 1] ++
  (if c.accSrc then [] else [arow + c.kc * wa / 8 - 1]) ++
  (if c.scaled then
    [(c.top 2 Nest.sastr + c.rowsM1 * c.baseAt 9 + 2 * (c.kc / 32 - 1)) / 2 * 2 + 1,
     (c.top 3 Nest.sbstr + (c.kc / 32 - 1) * c.baseAt 10 + 126) / 2 * 2 + 1] else []) ++
  (if c.abmpOn then [c.abmp + ((arow - c.baseAt 0) * 8 / wa + c.kc - 1) / 8] else []) ++
  (if c.bbmpOn then [c.bbmp + ((brow - c.baseAt 1) * 8 / wb + 63) / 8] else [])

/-- For levels from the outermost in, by their bounds and strides: the residues modulo 64 of an address from which some
choice of the remaining indices reaches a column c0 with c0 + kc > 64. -/
def badTable (kc : Nat) : List (Nat × Nat) → List Bool
  | [] => (List.range 64).map fun r => decide (64 < r + kc)
  | (b, st) :: inner =>
    let tab := badTable kc inner
    (List.range 64).map fun r => (List.range (min b 64)).any fun x => tab.getD ((r + x * st) % 64) false

/-- The column c0 of the first step, in nest order, whose accumulator source crosses the block (R251, 0x4). An index
enters only modulo 64, so the first step has every index below 64. -/
def firstBad (kc : Nat) : List (Nat × Nat) → Nat → Option Nat
  | [], r => if 64 < r + kc then some r else none
  | (b, st) :: inner, r =>
    let tab := badTable kc inner
    match (List.range (min b 64)).find? fun x => tab.getD ((r + x * st) % 64) false with
    | some x => firstBad kc inner ((r + x * st) % 64)
    | none => none

/-- What an xgo raises by its configuration (11 Table 11.9); with no step it checks nothing beyond 0x7. -/
def MxCfg.goCands (c : MxCfg) (scratch : Nat) : List Cand :=
  if c.steps = 0 then []
  else
    let above := c.tops.filter fun a => decide (scratch ≤ a)
    (if above.isEmpty then [] else [matrixCand 3 (above.foldl max 0)]) ++
    (if c.accSrc then
      match firstBad c.kc ((vlist c.nest).reverse.map fun l => (l.bound, l.astr)) (c.baseAt 0 % 64) with
      | some r => [matrixCand 4 r]
      | none => []
    else [])

/-- The fields of an xdrain descriptor (11 Table 11.7). -/
structure DrainDesc where
  blk : Nat
  fmt : Nat
  sat : Bool
  rowsM1 : Nat
  pitch : Nat
  reserved : Bool
  deriving DecidableEq, Repr, Inhabited

/-- The fields of a descriptor value. -/
def drainDesc (v : Nat) : DrainDesc :=
  { blk := v % 16, fmt := v / 16 % 16, sat := v.testBit 8, rowsM1 := v / 2 ^ 10 % 64, pitch := v / 2 ^ 16 % 2 ^ 24,
    reserved := v.testBit 9 || decide (2 ^ 40 ≤ v) }

/-- The formats that a drain writes (11 Table 11.7). -/
def drainFmtOk (f : Nat) : Bool := decide (f < 5) || f = 8 || f = 0xA || f = 0xC

/-- What an xdrain raises by its operands (11 Table 11.9). -/
def drainCands (t : Tile) (a v : Nat) : List Cand :=
  let d := drainDesc v
  let nb := 8 * fmtWidth d.fmt
  let c0 := t.img.codeOff
  let c1 := c0 + t.img.codeLen
  let last := a + d.rowsM1 * d.pitch + nb - 1
  let low := leastOf ((List.range (d.rowsM1 + 1)).filterMap fun m =>
    let r := a + m * d.pitch
    if r < c1 ∧ c0 < r + nb then some (max r c0) else none)
  (if d.reserved || !drainFmtOk d.fmt then [matrixCand 5 (v % 2 ^ 32)] else []) ++
  (if !drainFmtOk d.fmt then []
   else (if t.img.scratch ≤ last then [matrixCand 3 last] else []) ++
     (match low with | some x => [matrixCand 6 x] | none => []))

/-- The commands that an xwait at a cycle may not wait for (R262). -/
def Matrix.waitBars (m : Matrix) (cyc : Nat) : List MxCmd :=
  m.queue.filter fun x => (x.incomplete cyc && (!x.sparse || x.empty)) || decide (cyc ≤ x.issue + 4)

/-- The xstat word (11 Table 11.8). -/
def Matrix.status (m : Matrix) (cyc : Nat) : Word :=
  word (b2n (decide (cyc < m.i) && m.lastDense) +
    2 * b2n (m.queue.any fun x => x.sparse && x.presented && !x.done) + 2 ^ 8 * m.pending cyc + 2 ^ 16 * m.shadowNext)

/-! ## The operations -/

/-- R245: a field of a nest level. -/
def semXnest (f : FormXN) : OpSem :=
  configSem (rangeCand (nestTop f.sel.toNat)) fun v c =>
    { c with nest := vset c.nest f.f.toNat ((vget c.nest f.f.toNat).put f.sel.toNat v) }

/-- xnest: R245: a field of a nest level. -/
def execXnest (f : FormXN) (s : State) : Host.Outcome State Fault Refusal :=
  issueAlone (.xnest f) (semXnest f) s

/-- R245: a base field. -/
def semXbase (f : FormXB) : OpSem :=
  configSem (rangeCand (if f.sel = 4 then 15 else 2 ^ 24 - 1)) fun v c => { c with base := vset c.base f.sel.toNat v }

/-- xbase: R245: a base field. -/
def execXbase (f : FormXB) (s : State) : Host.Outcome State Fault Refusal :=
  issueAlone (.xbase f) (semXbase f) s

/-- R244: the formats and the rows. -/
def semXfmt (_f : FormXA) : OpSem :=
  configSem fmtCands fun v c => { c with afmt := v % 16, bfmt := v / 16 % 16, rowsM1 := v / 2 ^ 8 % 64 }

/-- xfmt: R244: the formats and the rows. -/
def execXfmt (f : FormXA) (s : State) : Host.Outcome State Fault Refusal :=
  issueAlone (.xfmt f) (semXfmt f) s

/-- R246: the source of A rows. -/
def semXsrc (f : FormXS) : OpSem :=
  OpSem.plain fun _ s => s.configure fun c => { c with accSrc := decide (f.sel = 1) }

/-- xsrc: R246: the source of A rows. -/
def execXsrc (f : FormXS) (s : State) : Host.Outcome State Fault Refusal :=
  issueAlone (.xsrc f) (semXsrc f) s

/-- R246: a bitmap base, or sparse mode off. -/
def semXbmp (f : FormXB) : OpSem :=
  if f.sel = 2 then OpSem.plain fun _ s => s.configure fun c => { c with abmpOn := false, bbmpOn := false }
  else configSem (rangeCand (2 ^ 24 - 1)) fun v c =>
    if f.sel = 0 then { c with abmp := v, abmpOn := true } else { c with bbmp := v, bbmpOn := true }

/-- xbmp: R246: a bitmap base, or sparse mode off. -/
def execXbmp (f : FormXB) (s : State) : Host.Outcome State Fault Refusal :=
  issueAlone (.xbmp f) (semXbmp f) s

/-- R246: segment-diagonal mode. -/
def semXsdiag (f : FormXF) : OpSem :=
  OpSem.plain fun _ s => s.configure fun c => { c with sdiag := if f.sel = 1 then some f.f.toNat else none }

/-- xsdiag: R246: segment-diagonal mode. -/
def execXsdiag (f : FormXF) (s : State) : Host.Outcome State Fault Refusal :=
  issueAlone (.xsdiag f) (semXsdiag f) s

/-- R260: a block becomes zero and VALID at the end of cycle max(t + 6, I). -/
def semXzero (_f : FormXA) : OpSem :=
  { OpSem.plain (consuming Env.a (fun e s =>
      e.issueMatrix (e.matrixCmd s (.zero e.a.v.toNat) false) s) (fun _ s => s)) with
    dyn := fun e s => if e.a.tag = .void then [] else fullCand s ++ (if e.a.tag = .valid then rangeCand 15 e.a.v.toNat else []) }

/-- xzero: R260: a block becomes zero and VALID at the end of cycle max(t + 6, I). -/
def execXzero (f : FormXA) (s : State) : Host.Outcome State Fault Refusal :=
  issueAlone (.xzero f) (semXzero f) s

/-- R249, R253, R255, R264: an operation on the configuration as it stands. -/
def semXgo (f : FormXF) : OpSem :=
  let sem := if f.f = 1 then some f.sel.toNat else none
  { OpSem.plain (fun e s =>
      let t := s.me
      let c := t.mx.cfg
      let snap := c.sdiag.bind fun h => vget t.shapes h
      let T := c.steps
      let rho := t.mx.shadowNext % c.rows
      let s1 := e.issueMatrix (e.matrixCmd s (.go c snap sem rho) c.sparse) s
      if T = 0 then s1 else s1.mapMe fun t => { t with mx := { t.mx with shadowNext := (t.mx.shadowNext + 1) % 64 } }) with
    dyn := fun _ s =>
      let t := s.me
      let c := t.mx.cfg
      fullCand s ++
      (if c.steps = 0 then []
       else c.goCands t.img.scratch ++
        (match sem with
          | some k => if t.img.nsems ≤ k then [{ cause := 2, sub := 4, slot := 7, value := word k }] else []
          | none => []) ++
        (match c.sdiag with
          | some h => if !t.shapeEarly h ∧ vget t.shapes h = none then [shapeCand h 7 1 0] else []
          | none => [])) }

/-- xgo: R249, R253, R255, R264: an operation on the configuration as it stands. -/
def execXgo (f : FormXF) (s : State) : Host.Outcome State Fault Refusal :=
  issueAlone (.xgo f) (semXgo f) s

/-- R261: rows of a block to the scratchpad from cycle max(t + 6, I) on. -/
def semXdrain (_f : FormGAB) : OpSem :=
  { OpSem.plain (fun e s =>
      match e.a.tag.join e.b.tag with
      | .poison o => e.consume (.poison o) s
      | .void => s
      | .valid =>
        let d := drainDesc e.b.v.toNat
        e.issueMatrix (e.matrixCmd s (.drain e.a.v.toNat d.blk d.fmt d.rowsM1 d.pitch d.sat) false) s) with
    dyn := fun e s => if e.a.tag = .void ∨ e.b.tag = .void then [] else fullCand s ++
      (if e.a.tag.join e.b.tag = .valid then drainCands s.me e.a.v.toNat e.b.v.toNat else []) }

/-- xdrain: R261: rows of a block to the scratchpad from cycle max(t + 6, I) on. -/
def execXdrain (f : FormGAB) (s : State) : Host.Outcome State Fault Refusal :=
  issueAlone (.xdrain f) (semXdrain f) s

/-- R262: the sparse commands issued before are waited for; a survey station. -/
def semXwait (_f : FormGZ) : OpSem :=
  { OpSem.plain (fun e s =>
      let t := s.me
      let done := t.mx.queue.filter fun x => x.sparse && !x.empty && !x.waited
      let prod := done.getLast?.map fun (x : MxCmd) =>
        ({ kind := 4, place := s.place s.cur, obj := 0, addr := x.addr, gate := x.gate } : Producer)
      let at_ := t.survey.waits.xw.getD (s.station none)
      let leg : Leg :=
        { arrive := at_.wall, waitClk := t.survey.waits.semClk, cycle := e.cycle, place := s.place s.cur, addr := e.addr,
          kind := 2, obj := 0, prod := prod, seq := 0 }
      s.mapMe fun t0 =>
        let t := t0.traceWait at_ 0 e.addr e.cycle
        { t with mx := { t.mx with queue := t.mx.queue.map fun x => if x.sparse then { x with waited := true } else x },
                 seg := t.seg.addLeg leg }) with
    dyn := fun _ s =>
      match s.me.mx.waitBars s.me.k.cycle with
      | [] => []
      | x :: rest => [matrixCand 8 (rest.foldl (fun m y => min m y.issue) x.issue % 2 ^ 32)]
    wait := fun _ s => if (s.me.mx.waitBars s.me.k.cycle).isEmpty && s.me.mx.queue.any fun x => x.sparse && !x.empty && !x.done then
      [.sem 64] else [] }

/-- xwait: R262: the sparse commands issued before are waited for; a survey station. -/
def execXwait (f : FormGZ) (s : State) : Host.Outcome State Fault Refusal :=
  issueAlone (.xwait f) (semXwait f) s

/-- R263: the status word. -/
def semXstat (_f : FormXS) : OpSem :=
  OpSem.scalar 2 fun e s => e.pushScalar 2 (validWord (s.me.mx.status e.cycle)) s

/-- xstat: R263: the status word. -/
def execXstat (f : FormXS) (s : State) : Host.Outcome State Fault Refusal :=
  issueAlone (.xstat f) (semXstat f) s

end Sys2Proof.Machine
end

