-- ==== Sys2Proof/Machine/QSlot.lean ====
section
/-! DEFINITION. The Q-slot operations (chapter 12): descriptors with their checks, and the engine commands they issue. -/
namespace Sys2Proof.Machine

/-! ## Shared forms (R267, R271) -/

/-- An engine-command trap's candidate (R271; 12 Table 12.3); sub-cause 0x3 reports [31:0]. -/
def engineCand (sub : Nat) (v : Word) : Cand :=
  { cause := 8, sub := sub, slot := 8, value := if sub = 3 then (v.setWidth 32).setWidth 64 else v }

/-- The join of the tags of the operands read (R267). -/
def Env.joined (e : Env) : Tag :=
  tagJoin (e.vals.map fun p => match p.2 with | .sc x => x.tag | .ve _ => .valid)

/-- A Q operation (R57 to R59, R267): its checks where every operand is VALID, its effect, and what it still does when
it is off or an operand is VOID. R58 has a command with a VOID operand not issued, and R59 has a POISON field consumed; of a command
with both the manual says neither, and the model joins the tags, so that it consumes (DESIGN CHOICE, log 80). -/
def commandSem (check : Env → State → List Cand) (run void : Env → State → State) : OpSem :=
  { dyn := fun e s => if e.joined = .valid then check e s else []
    wait := fun _ _ => []
    run := fun e s =>
      match e.joined with
      | .poison o => e.consume (.poison o) s
      | .void => void e s
      | .valid => run e s
    off := void }

/-- Nothing further. -/
def nothing : Env → State → State := fun _ s => s

/-- The number of semaphores that an operation may name: a handler reaches all of them (R338). -/
def Tile.semBound (t : Tile) : Nat := if t.priv.active then 64 else t.img.nsems

/-- The number of tiles of the gang. -/
def Tile.gangSize (t : Tile) : Nat := (t.run.map Run.gangTiles).getD 1

/-- The declared bound of a semaphore (R155, R271). -/
def semCand (t : Tile) (k : Nat) : List Cand :=
  if t.semBound ≤ k then [{ cause := 2, sub := 4, slot := 8, value := word k }] else []

/-- The bytes that a command touches: the elements of a nest of (count, stride) levels, the outermost first, from a base; each element is
aligned down and spans some bytes (R273, R278). -/
structure Touch where
  base : Int
  levels : List (Nat × Int)
  align : Int
  span : Int
  deriving DecidableEq, Repr, Inhabited

/-- A contiguous range of bytes. -/
def Touch.range (lo n : Int) : Touch := { base := lo, levels := [], align := 1, span := n }

/-- The least and greatest offset of the elements of a nest from its base. -/
def reach (levels : List (Nat × Int)) : Int × Int :=
  levels.foldl (fun r l => (r.1 + min 0 (((l.1 : Int) - 1) * l.2), r.2 + max 0 (((l.1 : Int) - 1) * l.2))) (0, 0)

/-- The least result of a search at the steps `x` of a level, in rising order: no later step gives less than its own least byte. -/
def scanLevel (f : Int → Option Int) (least : Int → Int) (hi : Int) : Nat → Int → Option Int → Option Int
  | 0, _, best => best
  | n + 1, x, best =>
    if hi < least x || (match best with | some b => decide (b ≤ least x) | none => false) then best
    else
      let r := match f x, best with
        | some y, some b => some (min y b)
        | some y, none => some y
        | none, b => b
      scanLevel f least hi n (x + 1) r

/-- The lowest byte in [lo, hi] that the elements of a nest touch from a base on. -/
def lowestByte (lo hi align span : Int) : List (Nat × Int) → Int → Option Int
  | [], a =>
    let a1 := a - a % align
    let x := max lo a1
    if x ≤ hi ∧ x < a1 + span then some x else none
  | (n, s) :: rest, a =>
    if n = 0 then none
    else
      let step : Int := s.natAbs
      let base := if 0 ≤ s then a else a + ((n : Int) - 1) * s
      let r := reach rest
      if step = 0 then lowestByte lo hi align span rest base
      else
        let short := lo - (base + r.2 + span - 1)
        let x0 := if 0 < short then (short + step - 1) / step else 0
        scanLevel (fun x => lowestByte lo hi align span rest (base + x * step)) (fun x => base + x * step + r.1 - (align - 1)) hi
          (n - x0.toNat) x0 none

/-- The lowest byte in [lo, hi] that a command touches. -/
def Touch.lowest (t : Touch) (lo hi : Int) : Option Int := lowestByte lo hi t.align t.span t.levels t.base

/-- Whether a command touches no byte: a count is zero (R278). -/
def Touch.empty (t : Touch) : Bool := t.levels.any (fun l => l.1 = 0) || decide (t.span ≤ 0)

/-- The least and greatest byte that a command touches; none where a count is zero. -/
def Touch.extremes (t : Touch) : Option (Int × Int) :=
  if t.empty then none
  else
    let r := reach t.levels
    let lo := t.base + r.1
    let hi := t.base + r.2
    some (lo - lo % t.align, hi - hi % t.align + t.span - 1)

/-- The lowest byte outside [0, top) that a command touches. -/
def Touch.outside (t : Touch) (top : Int) : Option Int :=
  match t.extremes with
  | none => none
  | some r => if r.1 < 0 then some r.1 else if r.2 < top then none else t.lowest top r.2

/-- The least of some offsets. -/
def leastInt : List Int → Option Int
  | [] => none
  | a :: rest => some (rest.foldl min a)

/-- What the bytes of the scratchpad that a command touches raise (12 Table 12.3, 0x3 and 0x4): those that it reads, and those that it
writes. -/
def spadCands (t : Tile) (reads writes : List Touch) : List Cand :=
  let c0 : Int := t.img.codeOff
  let c1 : Int := t.img.codeOff + t.img.codeLen
  (match leastInt ((reads ++ writes).filterMap fun x => x.outside t.img.scratch) with
    | some a => [engineCand 3 (BitVec.ofInt 64 a)] | none => []) ++
  (match leastInt (writes.filterMap fun x => x.lowest c0 (c1 - 1)) with
    | some a => [engineCand 4 (BitVec.ofInt 64 a)] | none => [])

/-- What the global addresses that a command touches raise (12 Table 12.3, 0x6). -/
def globalCands (l : List Touch) : List Cand :=
  match leastInt (l.filterMap fun x => x.outside (2 ^ 57 : Nat)) with
  | some a => [engineCand 6 (BitVec.ofInt 64 a)] | none => []

/-- The first of the words of a descriptor with a reserved field or an unassigned code (0x2). -/
def reservedCand (base : Nat) (bad : List (Bool × Nat)) : List Cand :=
  match bad.find? (fun p => p.1) with | some p => [engineCand 2 (word (base + p.2))] | none => []

/-- Whether a record of `n` bytes at an offset is misplaced (0x1). -/
def placeCand (t : Tile) (a n : Nat) : List Cand :=
  if a % 64 ≠ 0 ∨ t.img.scratch < a + n then [engineCand 1 (word a)] else []

/-- A signed field. -/
def signedField (w n : Nat) : Int := sextN n w

/-! ## Streams (R272 to R276) -/

/-- The pattern of a descriptor's 64 bytes (12 Table 12.4); a gather stream keeps STRIDE_0 as its one level. -/
def patternOf (m : Store) (a : Nat) : Pattern :=
  let w0 := m.readLe a 4
  let level := fun (l : Nat) => (m.readLe (a + 0x10 + 8 * l) 4, signedField 32 (m.readLe (a + 0x14 + 8 * l) 4))
  let kind := w0 % 4
  { home := BitVec.ofNat 4 (w0 / 2 ^ 13), cls := BitVec.ofNat 4 (w0 / 2 ^ 9),
    levels := if kind = 0 then (List.range (min 6 (w0 / 2 ^ 6 % 8))).map level
      else if kind = 1 then [level 0] else [],
    isLocal := w0.testBit 5, isVector := w0.testBit 4, isWrite := w0.testBit 3, kind := kind, base := word (m.readLe (a + 8) 8) }

/-- The words of a stream descriptor that fail 0x2 (R272): reserved fields and codes, and level fields at or above NLVL; a
gather stream's STRIDE_0 is in use (log 30). -/
def patternBad (m : Store) (a : Nat) : List (Bool × Nat) :=
  let w0 := m.readLe a 4
  let kind := w0 % 4
  let nlvl := w0 / 2 ^ 6 % 8
  let home := w0 / 2 ^ 13 % 16
  let first := decide (2 ^ 17 ≤ w0) || w0.testBit 2 || kind = 3 || (decide (12 ≤ home) && decide (home ≤ 14)) ||
    (kind = 0 && (nlvl = 0 || nlvl = 7)) || (kind ≠ 0 && nlvl ≠ 0) ||
    (kind = 2 && (w0.testBit 4 || w0.testBit 3 || w0.testBit 5))
  [(first, 0), (m.readLe (a + 4) 4 ≠ 0, 4), (kind = 2 && m.readLe (a + 8) 8 ≠ 0, 8)] ++
  (List.range 6).map fun l =>
    let used := kind = 0 && decide (l < nlvl)
    let v := if kind = 1 ∧ l = 0 then m.readLe (a + 0x10) 4 else m.readLe (a + 0x10 + 8 * l) 8
    (!used && v ≠ 0, 0x10 + 8 * l)

/-- The alignment and bytes of an element (R273). -/
def Pattern.elem (p : Pattern) : Int × Int := if p.isVector then (4, 128) else (8, 8)

/-- What elements of a stream raise by their bytes (R271, R273, R275). -/
def elementCands (t : Tile) (p : Pattern) (x : Touch) : List Cand :=
  if !p.isLocal then globalCands [x] else if p.isWrite then spadCands t [] [x] else spadCands t [x] []

/-- What the elements of an affine pattern raise (R273). -/
def patternCands (t : Tile) (p : Pattern) : List Cand :=
  if p.kind ≠ 0 then []
  else elementCands t p { base := p.base.toNat, levels := p.levels.reverse, align := p.elem.1, span := p.elem.2 }

/-- What an sbind raises (R271 to R273). -/
def sbindCands (t : Tile) (a : Nat) : List Cand :=
  let c := placeCand t a 64
  if !c.isEmpty then c
  else reservedCand a (patternBad t.spad a) ++ patternCands t (patternOf t.spad a)

/-- A stream register unbound (R274): a write stream's reserved elements are still filled and drained. -/
def Streams.unbind (ss : Streams) (k : Nat) : Streams :=
  match vget ss.regs k with
  | none => ss
  | some st =>
    { ss with regs := vset ss.regs k none,
              old := if st.pat.isWrite && !st.queue.isEmpty then ss.old ++ [st] else ss.old }

/-- A new binding (R272 to R274). -/
def newStream (serial cmd k : Nat) (p : Pattern) (e : Env) (gate : Option LegRef) : Stream :=
  { serial := serial, cmd := cmd, reg := k, pat := p, bindAddr := e.addr, bindCycle := e.cycle, scope := e.hdr.scope,
    presented := false, gate := gate, buf := [], popped := 0, filled := 0, reserved := 0, queue := [], idx := [],
    idxTotal := 0, rets := [], due := [], got := [], gone := 0, loc := none, fault := none, reported := false }

/-- The address of a gather or scatter element (R275). -/
def gatherAddr (p : Pattern) (index : Word) : Word :=
  p.base + index * BitVec.ofInt 64 ((p.levels.headD (0, 0)).2)

/-- The stream of a register where it is bound in gather kind. -/
def gatherStream (t : Tile) (k : Nat) : Option Stream :=
  match vget t.streams.regs k with | some st => if st.pat.kind = 1 then some st else none | none => none

/-- What a gpush raises by its index (R275). -/
def gpushCands (t : Tile) (k : Nat) (index : Word) : List Cand :=
  match gatherStream t k with
  | none => []
  | some st =>
    elementCands t st.pat { base := (gatherAddr st.pat index).toNat, levels := [], align := st.pat.elem.1, span := st.pat.elem.2 }

/-- A gpush puts its index into the queue (R275); a VOID index keeps its place with no command. -/
def pushIndex (k : Nat) (e : Env) (s : State) : State :=
  let t := s.me
  match gatherStream t k with
  | none => s
  | some st =>
    let void := decide (e.a.tag = .void)
    let i : GIndex :=
      { cmd := t.eng.next, val := e.a, addr := e.addr, gate := t.gateRef (s.place s.cur), presented := void }
    let st1 : Stream := { st with idx := st.idx ++ [i], idxTotal := st.idxTotal + 1 }
    let s1 := s.mapMe fun t => { t with streams :=
      ({ t.streams with regs := vset t.streams.regs k (some st1) } : Streams).issueReads k (t.eng.next + if void then 0 else 1) }
    if void then s1 else e.issueCmdWith [e.a.v.toNat] (.gpush st.serial) s1

/-! ## Transfers (R277 to R281) -/

/-- The dimensions of a transfer descriptor, dimension 0 first. -/
def dimsOf (m : Store) (a : Nat) : List (Nat × Int × Int) :=
  (m.readLe (a + 0x30) 4, 1, 1) :: (List.range (m.readLe a 4 % 16)).map fun d =>
    let b := a + 0x38 + 16 * d
    (m.readLe b 4, signedField 48 (m.readLe (b + 4) 6), signedField 48 (m.readLe (b + 10) 6))

/-- The bytes of a transfer descriptor (R277). -/
def xferBytes (m : Store) (a : Nat) : Nat := 0x38 + 16 * (m.readLe a 4 % 16)

/-- A transfer of the given kind from its descriptor (12 Table 12.5), with its B operand (R278, R280). -/
def xferOf (m : Store) (send rsend : Bool) (a : Nat) (b : Option Word) : Transfer :=
  let w0 := m.readLe a 4
  let w4 := m.readLe (a + 4) 4
  let comp := m.readLe (a + 0x18) 8
  let dir := w0 / 16 % 4
  let disp := if send || rsend then 0 else b.getD 0
  let src := word (m.readLe (a + 8) 8)
  let dst := word (m.readLe (a + 0x10) 8)
  { isSend := send, isRsend := rsend, dir := dir, src := if dir = 1 then src else src + disp,
    dst := if dir = 1 then dst + disp else dst, dims := dimsOf m a, cls := BitVec.ofNat 4 (w0 / 64),
    tagw := w0.testBit 20, sig := w0.testBit 18, remote := send || w0.testBit 19,
    rank := if send then (match b with | some x => x.toNat | none => comp / 2 ^ 16 % 2 ^ 16) else comp / 2 ^ 16 % 2 ^ 16,
    sem := comp % 64, count := comp / 2 ^ 32, tag := word (m.readLe (a + 0x20) 8), tagOff := m.readLe (a + 0x28) 4 / 8 * 8,
    group := w4 / 2 ^ 16, rfmt := w4 / 16 % 16, redop := w4 % 4 }

/-- The element width of an rsend's format in bytes (12 Table 12.5). -/
def rfmtBytes (f : Nat) : Nat := if f = 1 then 2 else 4

/-- The words of a transfer descriptor that fail 0x2 (R277, R279, R281). -/
def xferBad (m : Store) (send rsend : Bool) (a : Nat) : List (Bool × Nat) :=
  let w0 := m.readLe a 4
  let w4 := m.readLe (a + 4) 4
  let dir := w0 / 16 % 4
  let home := w0 / 2 ^ 10 % 16
  let rf := w4 / 16 % 16
  [(decide (2 ^ 21 ≤ w0) || dir = 3 || (decide (12 ≤ home) && decide (home ≤ 14)) || (w0.testBit 14 && dir = 2) ||
      (send && (dir ≠ 1 || !w0.testBit 19)), 0),
   (if rsend then decide (w4 / 256 % 256 ≠ 0) || decide (w4 / 4 % 4 ≠ 0) || w4 % 4 = 3 ||
       !(rf = 0 || rf = 1 || rf = 0xC || rf = 0xD)
     else decide (w4 ≠ 0), 4),
   (decide (m.readLe (a + 0x18) 2 / 64 ≠ 0), 0x18),
   (decide (m.readLe (a + 0x34) 4 ≠ 0) || (rsend && decide (m.readLe (a + 0x30) 4 % rfmtBytes rf ≠ 0)), 0x30)]

/-- The bytes of a side of a transfer from its address (R278): dimension 0 is contiguous. -/
def Transfer.touch (x : Transfer) (a : Word) (stride : Nat × Int × Int → Int) : Touch :=
  { base := a.toNat, levels := (x.dims.tail.map fun d => (d.1, stride d)).reverse, align := 1, span := ((x.dims.headD (0, 0, 0)).1 : Nat) }
/-- The bytes of a transfer's source. -/
def Transfer.srcTouch (x : Transfer) : Touch := x.touch x.src fun d => d.2.1
/-- The bytes of a transfer's destination. -/
def Transfer.dstTouch (x : Transfer) : Touch := x.touch x.dst fun d => d.2.2

/-- The bytes that a transfer moves (R278). -/
def Transfer.total (x : Transfer) : Nat := x.dims.foldl (fun n d => n * d.1) 1

/-- What the bytes of a transfer raise (R271, R278, R280, R281), its tag word among them, an rsend's too (DESIGN CHOICE, log 105); an rsend's result is contiguous
at DST (R442). -/
def sideCands (t : Tile) (x : Transfer) : List Cand :=
  let tag := if x.tagw then [Touch.range x.tagOff 8] else []
  if x.isRsend then spadCands t [x.srcTouch] tag ++ globalCands [Touch.range x.dst.toNat x.total]
  else if x.isSend then spadCands t [x.srcTouch] (x.dstTouch :: tag)
  else match x.dir with
    | 0 => spadCands t [] (x.dstTouch :: tag) ++ globalCands [x.srcTouch]
    | 1 => spadCands t [x.srcTouch] tag ++ globalCands [x.dstTouch]
    | _ => spadCands t [] tag ++ globalCands [x.srcTouch, x.dstTouch]

/-- The scratchpad side of a transfer (R279): a copy's destination with DIR 0b00, the source of every other that has one. -/
def Transfer.spadSide (x : Transfer) : Touch := if !x.isSend && !x.isRsend && x.dir = 0 then x.dstTouch else x.srcTouch

/-- What a copy, send or rsend with NOCROSS raises (R279; 04 Table 4.3). -/
def crossCands (t : Tile) (a : Nat) (x : Transfer) : List Cand :=
  let w0 := t.spad.readLe a 4
  let h := w0 / 2 ^ 15 % 8
  if !w0.testBit 14 || x.dir = 2 || x.dir = 3 then []
  else if t.img.nshapes ≤ h then [{ cause := 2, sub := 3, slot := 8, value := word h }]
  else if t.shapeEarly h then [earlyCand 8 3 h]
  else match vget t.shapes h with
    | none => [shapeCand h 8 1 0]
    | some sh =>
      match x.spadSide.extremes with
      | none => []
      | some r =>
        let nb : Int := t.spad.readLe (a + 0x2C) 4
        let rb : Int := max 1 (sh.rowLen * fmtWidth sh.fmt / 8)
        let r0 := (r.1 - nb) / rb
        let r1 := (r.2 - nb) / rb + 1
        let total := sh.ends.getLastD 0
        (if r.1 < nb then [engineCand 7 (BitVec.ofInt 64 nb)] else []) ++
        (if total < r1 then [shapeCand h 8 9 (max r0 total).toNat] else []) ++
        (match leastOf (sh.ends.filter fun (e : Nat) => decide (r0 < e ∧ e < r1)) with
          | some e => [shapeCand h 8 0xA e] | none => [])

/-- What a copy, send or rsend raises (R271, R277 to R281). Of a misplaced descriptor no field is judged, so that 0x1 stands alone, the declared
bound of SEM and the shape checks of NOCROSS with it: R271 does not say what fields a descriptor has that has no place (DESIGN CHOICE,
log 106). -/
def xferCands (t : Tile) (send rsend : Bool) (a : Nat) (b : Option Word) : List Cand :=
  let c := placeCand t a (max 0x38 (xferBytes t.spad a))
  if !c.isEmpty then c
  else
    let x := xferOf t.spad send rsend a b
    reservedCand a (xferBad t.spad send rsend a) ++ sideCands t x ++ crossCands t a x ++
    (if x.remote ∧ t.gangSize ≤ x.rank then [engineCand 5 (word x.rank)] else []) ++
    (if x.sig then semCand t x.sem else [])

/-- The B operand of a copy or send, where it is used (R266). -/
def Env.optB (e : Env) : Option Word := (e.val .B).map fun _ => e.b.v

/-- A copy, send or rsend (R267, R277). -/
def xferSem (send rsend : Bool) : OpSem :=
  let held := fun (s : State) => if rsend then s.countHeld else s
  commandSem (fun e s => xferCands s.me send rsend e.a.v.toNat e.optB)
    (fun e s =>
      let t := s.me
      let a := e.a.v.toNat
      if t.spad.anyPoison a (xferBytes t.spad a) then e.consumeRecord a (xferBytes t.spad a) s
      else
        let x := xferOf t.spad send rsend a e.optB
        (held s).mapMe fun t => t.addCmd (s.place s.cur) e [] (.xfer x))
    (fun _ s => held s)

/-! ## Semaphores, atomics and the rest (R284 to R292) -/

/-- A change of a semaphore of the tile by the handler applies at the end of the clock period (R338, R75). -/
def State.handlerSem (s : State) (e : Env) (sem : Nat) (op : SemOp) : State :=
  let p : Producer := { kind := 1, place := s.place s.cur, obj := sem, addr := e.addr, gate := s.me.gateRef (s.place s.cur) }
  s.mapMe fun t => { t with sems := { t.sems with pend := t.sems.pend ++ [{ sem := sem, op := op, prod := some p, order := t.eng.next }] } }

/-- An issue of a held kind counts in a kernel, on or off (R268). -/
def heldIssue (s : State) : State := if s.me.priv.active then s else s.countHeld

/-- What a local semaphore index raises (R271, R284 to R286). -/
def localSemCands (t : Tile) (a : Word) : List Cand :=
  (if a.toNat / 64 ≠ 0 then [engineCand 6 a] else []) ++ semCand t (a.toNat % 64)

/-- A count or value above 32 bits (0x6). -/
def countCand (b : Word) : List Cand := if 2 ^ 32 ≤ b.toNat then [engineCand 6 b] else []

/-- The operand fields of a remote target that fail (R284). -/
def remoteCands (t : Tile) (a : Word) : List Cand :=
  let r := a.toNat / 2 ^ 16 % 2 ^ 16
  (if a.toNat / 64 % 2 ^ 10 ≠ 0 ∨ 2 ^ 32 ≤ a.toNat then [engineCand 6 a] else []) ++
  (if t.gangSize ≤ r then [engineCand 5 (word r)] else []) ++ semCand t (a.toNat % 64)

/-- The first of the failing operands alone is reported for one sub-cause: a before b. -/
def firstOfSub (l : List Cand) : List Cand :=
  l.foldl (fun acc c => if acc.any fun d => d.cause = c.cause && d.sub = c.sub then acc else acc ++ [c]) []

/-- A place in a return stream (R276). -/
def takePlace (k : Nat) (val : Option Scalar) (s : State) : State :=
  s.mapMe fun t =>
    match vget t.streams.regs k with
    | none => t
    | some st =>
      let st1 : Stream := { st with rets := st.rets ++ [{ cmd := t.eng.next, released := false, val := val }] }
      { t with streams := { t.streams with regs := vset t.streams.regs k (some st1) } }

/-- A global atomic on register specifier D (R276, R288): it closes its segment when it names a return stream. -/
def atomicSem (op : AtomicOp) (ret : Option Nat) (badD : Option (BitVec 6)) : OpSem :=
  let close := fun (s : State) =>
    if ret.isSome then s.mapMe fun t => { t with dfr := { t.dfr with closes := true } } else s
  commandSem
    (fun e _ => (if e.a.v.toNat / 2 ^ 61 ≠ 0 then [engineCand 6 e.a.v] else []) ++
      (match badD with | some d => [engineCand 8 (d.setWidth 64)] | none => []))
    (fun e s =>
      let a := e.a.v.toNat
      let serial := ret.bind fun k => (vget s.me.streams.regs k).map Stream.serial
      let s1 := close (heldIssue s)
      let s2 := match ret with | some k => takePlace k none s1 | none => s1
      e.issueCmd (.atomic op (a % 2 ^ 57) e.b.v e.d.v (BitVec.ofNat 4 (a / 2 ^ 57)) serial) s2)
    (fun e s =>
      let s1 := close (heldIssue s)
      match ret with
      | some k => e.issueCmd .off (takePlace k (some zeroVoid) s1)
      | none => s1)

/-- The return stream that the D field of an atomic names. -/
def retOf (d : BitVec 6) : Option Nat := specStream d
/-- A D field that names a register, which only acas may (12 Table 12.3, 0x8). -/
def badOf (d : BitVec 6) : Option (BitVec 6) := if d.toNat < 32 then some d else none

/-- The reserved bits of a child launch record by word offset (18 Table 18.1). -/
def launchReserved : List (Nat × Nat) :=
  let gate := 0xF800FFF0
  [(0x000, 0x7F * 2 ^ 57), (0x008, 0xFFFF000888888FFC), (0x010, (2 ^ 22 - 1) * 2 ^ 42), (0x0C8, gate), (0x0D0, gate),
   (0x0D8, gate), (0x0E0, gate), (0x0E8, gate), (0x0F0, 0x7F * 2 ^ 57), (0x0F8, 0xFFFF0000)] ++
  ((List.range 4).map fun j => [(0x100 + 16 * j, 0x7F * 2 ^ 57), (0x108 + 16 * j, 0xFF000000FF000000)]).flatten

/-- What a launch raises (R271, R291, R363). -/
def launchCands (t : Tile) (a : Nat) : List Cand :=
  let c := placeCand t a 0x140
  if !c.isEmpty then c
  else reservedCand a (launchReserved.map fun p => (t.spad.readLe (a + p.1) 8 &&& p.2 ≠ 0, p.1))

/-! ## The operations -/

/-- R272 to R274: the register is bound to the descriptor at A from the next cycle on; a read stream issues the accesses of its first elements
with it (R303; log 83). -/
def semSbind (f : FormHA) : OpSem :=
  commandSem (fun e s => sbindCands s.me e.a.v.toNat)
    (fun e s =>
      let t := s.me
      let a := e.a.v.toNat
      if t.spad.anyPoison a 64 then e.consumeRecord a 64 s
      else
        let st := newStream t.streams.next t.eng.next f.h.toNat (patternOf t.spad a) e (t.gateRef (s.place s.cur))
        let ss := t.streams.unbind f.h.toNat
        let bound : Streams := { ss with regs := vset ss.regs f.h.toNat (some st), next := ss.next + 1 }
        e.issueCmdWith (f.h.toNat :: (t.spad.read a 64).map BitVec.toNat) (.sbind st.serial) (s.mapMe fun t =>
          { t with streams := bound.issueReads f.h.toNat (t.eng.next + 1) }))
    nothing

/-- sbind: R272 to R274: the register is bound to the descriptor at A from the next cycle on. -/
def execSbind (f : FormHA) (s : State) : Host.Outcome State Fault Refusal :=
  issueAlone (.sbind f) (semSbind f) s

/-- R274: the register is unbound from the next cycle on. -/
def semSunbind (f : FormH0) : OpSem :=
  commandSem (fun _ _ => [])
    (fun e s => e.issueCmdWith [f.h.toNat] .sunbind (s.mapMe fun t => { t with streams := t.streams.unbind f.h.toNat })) nothing

/-- sunbind: R274: the register is unbound from the next cycle on. -/
def execSunbind (f : FormH0) (s : State) : Host.Outcome State Fault Refusal :=
  issueAlone (.sunbind f) (semSunbind f) s

/-- R275: an index for a gather or scatter stream; sixteen unconsumed ones freeze the tile. -/
def semGpush (f : FormHA) : OpSem :=
  { dyn := fun e s => if e.a.tag = .valid then gpushCands s.me f.h.toNat e.a.v else []
    wait := fun _ s =>
      match gatherStream s.me f.h.toNat with
      | some st => if 16 + (st.filled - st.popped) ≤ st.idx.length then
          s.me.streamBlocked f.h.toNat ++ [.streamFull (st.roomProducer f.h.toNat)] else []
      | none => []
    run := fun e s => if e.a.tag.isPoison then e.consume e.a.tag s else pushIndex f.h.toNat e s
    off := nothing }

/-- gpush: R275: an index for a gather or scatter stream; sixteen unconsumed ones freeze the tile. -/
def execGpush (f : FormHA) (s : State) : Host.Outcome State Fault Refusal :=
  issueAlone (.gpush f) (semGpush f) s

/-- R277 to R279: bytes move between global memory and the scratchpad, or within global memory. -/
def semCopy (_f : FormGAB) : OpSem :=
  xferSem false false

/-- copy: R277 to R279: bytes move between global memory and the scratchpad, or within global memory. -/
def execCopy (f : FormGAB) (s : State) : Host.Outcome State Fault Refusal :=
  issueAlone (.copy f) (semCopy f) s

/-- R280: bytes move to the scratchpad of a gang partner. -/
def semSend (_f : FormGAB) : OpSem :=
  xferSem true false

/-- send: R280: bytes move to the scratchpad of a gang partner. -/
def execSend (f : FormGAB) (s : State) : Host.Outcome State Fault Refusal :=
  issueAlone (.send f) (semSend f) s

/-- R281: elements contribute to a collective group. -/
def semRsend (_f : FormXA) : OpSem :=
  xferSem false true

/-- rsend: R281: elements contribute to a collective group. -/
def execRsend (f : FormXA) (s : State) : Host.Outcome State Fault Refusal :=
  issueAlone (.rsend f) (semRsend f) s

/-- R284: a local semaphore is signalled at commit; by a handler at once (R338). -/
def semSsig (_f : FormSG) : OpSem :=
  commandSem (fun e s => firstOfSub (localSemCands s.me e.a.v ++ countCand e.b.v))
    (fun e s =>
      let k := e.a.v.toNat % 64
      if s.me.priv.active then s.handlerSem e k (.raise e.b.v.toNat)
      else e.issueCmd (.ssig none k e.b.v.toNat) (heldIssue s))
    (fun _ s => heldIssue s)

/-- ssig: R284: a local semaphore is signalled at commit; by a handler at once (R338). -/
def execSsig (f : FormSG) (s : State) : Host.Outcome State Fault Refusal :=
  issueAlone (.ssig f) (semSsig f) s

/-- R284: a semaphore of a gang partner is signalled at commit. -/
def semSsigR (_f : FormSG) : OpSem :=
  commandSem (fun e s => firstOfSub (remoteCands s.me e.a.v ++ countCand e.b.v))
    (fun e s => e.issueCmd (.ssig (some (e.a.v.toNat / 2 ^ 16 % 2 ^ 16)) (e.a.v.toNat % 64) e.b.v.toNat) (heldIssue s))
    (fun _ s => heldIssue s)

/-- ssig.r: R284: a semaphore of a gang partner is signalled at commit. -/
def execSsigR (f : FormSG) (s : State) : Host.Outcome State Fault Refusal :=
  issueAlone (.ssigR f) (semSsigR f) s

/-- R285: a semaphore is set at commit; by a handler at once (R338). -/
def semSinit (_f : FormGAB) : OpSem :=
  commandSem (fun e s => firstOfSub (localSemCands s.me e.a.v ++ countCand e.b.v))
    (fun e s =>
      let k := e.a.v.toNat % 64
      if s.me.priv.active then s.handlerSem e k (.init e.b.v.toNat)
      else e.issueCmd (.sinit k e.b.v.toNat) (heldIssue s))
    (fun _ s => heldIssue s)

/-- sinit: R285: a semaphore is set at commit; by a handler at once (R338). -/
def execSinit (f : FormGAB) (s : State) : Host.Outcome State Fault Refusal :=
  issueAlone (.sinit f) (semSinit f) s

/-- R286: the count of a semaphore at the start of the clock period. -/
def semSread (_f : FormSU) : OpSem :=
  { OpSem.scalar 2 (fun e s =>
      e.pushScalar 2 (match e.a.tag with
        | .valid => validWord ((vget s.me.sems.cnt (e.a.v.toNat % 64)).setWidth 64)
        | tg => { v := 0, tag := tg }) s) with
    dyn := fun e s => if e.a.tag = .valid then localSemCands s.me e.a.v else [] }

/-- sread: R286: the count of a semaphore at the start of the clock period. -/
def execSread (f : FormSU) (s : State) : Host.Outcome State Fault Refusal :=
  issueAlone (.sread f) (semSread f) s

/-- R288: the global word at A becomes the sum, at commit. -/
def semAadd (f : FormDAB) : OpSem :=
  atomicSem .add (retOf f.d) (badOf f.d)

/-- aadd: R288: the global word at A becomes the sum, at commit. -/
def execAadd (f : FormDAB) (s : State) : Host.Outcome State Fault Refusal :=
  issueAlone (.aadd f) (semAadd f) s

/-- R288: the global word at A becomes the lesser, signed, at commit. -/
def semAminS64 (f : FormDAB) : OpSem :=
  atomicSem .minS (retOf f.d) (badOf f.d)

/-- amin.s64: R288: the global word at A becomes the lesser, signed, at commit. -/
def execAminS64 (f : FormDAB) (s : State) : Host.Outcome State Fault Refusal :=
  issueAlone (.aminS64 f) (semAminS64 f) s

/-- R288: the global word at A becomes the lesser, unsigned, at commit. -/
def semAminZ64 (f : FormDAB) : OpSem :=
  atomicSem .minZ (retOf f.d) (badOf f.d)

/-- amin.z64: R288: the global word at A becomes the lesser, unsigned, at commit. -/
def execAminZ64 (f : FormDAB) (s : State) : Host.Outcome State Fault Refusal :=
  issueAlone (.aminZ64 f) (semAminZ64 f) s

/-- R288: the global word at A becomes the greater, signed, at commit. -/
def semAmaxS64 (f : FormDAB) : OpSem :=
  atomicSem .maxS (retOf f.d) (badOf f.d)

/-- amax.s64: R288: the global word at A becomes the greater, signed, at commit. -/
def execAmaxS64 (f : FormDAB) (s : State) : Host.Outcome State Fault Refusal :=
  issueAlone (.amaxS64 f) (semAmaxS64 f) s

/-- R288: the global word at A becomes the greater, unsigned, at commit. -/
def semAmaxZ64 (f : FormDAB) : OpSem :=
  atomicSem .maxZ (retOf f.d) (badOf f.d)

/-- amax.z64: R288: the global word at A becomes the greater, unsigned, at commit. -/
def execAmaxZ64 (f : FormDAB) (s : State) : Host.Outcome State Fault Refusal :=
  issueAlone (.amaxZ64 f) (semAmaxZ64 f) s

/-- R288: the global word at A becomes the and, at commit. -/
def semAand (f : FormDAB) : OpSem :=
  atomicSem .and (retOf f.d) (badOf f.d)

/-- aand: R288: the global word at A becomes the and, at commit. -/
def execAand (f : FormDAB) (s : State) : Host.Outcome State Fault Refusal :=
  issueAlone (.aand f) (semAand f) s

/-- R288: the global word at A becomes the or, at commit. -/
def semAor (f : FormDAB) : OpSem :=
  atomicSem .or (retOf f.d) (badOf f.d)

/-- aor: R288: the global word at A becomes the or, at commit. -/
def execAor (f : FormDAB) (s : State) : Host.Outcome State Fault Refusal :=
  issueAlone (.aor f) (semAor f) s

/-- R288: the global word at A becomes the exclusive or, at commit. -/
def semAxor (f : FormDAB) : OpSem :=
  atomicSem .xor (retOf f.d) (badOf f.d)

/-- axor: R288: the global word at A becomes the exclusive or, at commit. -/
def execAxor (f : FormDAB) (s : State) : Host.Outcome State Fault Refusal :=
  issueAlone (.axor f) (semAxor f) s

/-- R288: the global word at A becomes the operand, at commit. -/
def semAxch (f : FormDAB) : OpSem :=
  atomicSem .xch (retOf f.d) (badOf f.d)

/-- axch: R288: the global word at A becomes the operand, at commit. -/
def execAxch (f : FormDAB) (s : State) : Host.Outcome State Fault Refusal :=
  issueAlone (.axch f) (semAxch f) s

/-- R288: the global word at A becomes the f32 sum, at commit. -/
def semAfaddF32 (f : FormDAB) : OpSem :=
  atomicSem .faddF32 (retOf f.d) (badOf f.d)

/-- afadd.f32: R288: the global word at A becomes the f32 sum, at commit. -/
def execAfaddF32 (f : FormDAB) (s : State) : Host.Outcome State Fault Refusal :=
  issueAlone (.afaddF32 f) (semAfaddF32 f) s

/-- R288: the global word at A becomes the bf16 sum, at commit. -/
def semAfaddBf16 (f : FormDAB) : OpSem :=
  atomicSem .faddBf16 (retOf f.d) (badOf f.d)

/-- afadd.bf16: R288: the global word at A becomes the bf16 sum, at commit. -/
def execAfaddBf16 (f : FormDAB) (s : State) : Host.Outcome State Fault Refusal :=
  issueAlone (.afaddBf16 f) (semAfaddBf16 f) s

/-- R288: the global word at A becomes B where it equals D, at commit. -/
def semAcas (f : FormHDAB) : OpSem :=
  atomicSem .cas (some f.h.toNat) none

/-- acas: R288: the global word at A becomes B where it equals D, at commit. -/
def execAcas (f : FormHDAB) (s : State) : Host.Outcome State Fault Refusal :=
  issueAlone (.acas f) (semAcas f) s

/-- R290: earlier accesses of the classes in A perform before later ones. -/
def semFence (_f : FormXA) : OpSem :=
  commandSem (fun e _ => if 2 ^ 16 ≤ e.a.v.toNat then [engineCand 6 e.a.v] else [])
    (fun e s =>
      if s.me.priv.active then s.mapMe fun t =>
        let c : Cmd :=
          { id := t.eng.next, addr := e.addr, cycle := e.cycle, scope := e.hdr.scope, segNo := t.seg.number, gate := none,
            late := 0, ckCopy := none, matched := true, operands := [], body := .fence (e.a.v.setWidth 16) }
        { t with eng := { t.eng with queue := t.eng.queue ++ [Active.start c], next := t.eng.next + 1 } }
      else e.issueCmd (.fence (e.a.v.setWidth 16)) s)
    nothing

/-- fence: R290: earlier accesses of the classes in A perform before later ones. -/
def execFence (f : FormXA) (s : State) : Host.Outcome State Fault Refusal :=
  issueAlone (.fence f) (semFence f) s

/-- R291: the child launch record at A enters the pool of the die at commit. -/
def semLaunch (_f : FormXA) : OpSem :=
  commandSem (fun e s => launchCands s.me e.a.v.toNat)
    (fun e s =>
      let a := e.a.v.toNat
      if s.me.spad.anyPoison a 0x140 then e.consumeRecord a 0x140 (heldIssue s)
      else e.issueCmd (.launch (s.me.spad.read a 0x140)) (heldIssue s))
    (fun _ s => heldIssue s)

/-- launch: R291: the child launch record at A enters the pool of the die at commit. -/
def execLaunch (f : FormXA) (s : State) : Host.Outcome State Fault Refusal :=
  issueAlone (.launch f) (semLaunch f) s

/-- R292: a hint; it changes no value. -/
def semPref (_f : FormXA) : OpSem :=
  commandSem (fun _ _ => []) (fun e s => e.issueCmd (.pref (e.a.v.toNat % 2 ^ 57)) s) nothing

/-- pref: R292: a hint; it changes no value. -/
def execPref (f : FormXA) (s : State) : Host.Outcome State Fault Refusal :=
  issueAlone (.pref f) (semPref f) s

end Sys2Proof.Machine
end

