-- ==== Sys2Proof/Machine/Xlat.lean ====
section
/-! DEFINITION. Addresses of the partition (chapter 19): table entries and walks, permissions, the translation caches, the
home directory of each die, refusals, and reads and writes of device and host memory. -/
namespace Sys2Proof.Machine

/-! ## Tables and walks (R385 to R389) -/

/-- The index slice of each table level: its lowest bit and its width (19 Table 19.1). -/
def tableLevels : List (Nat × Nat) := [(48, 9), (39, 9), (30, 9), (21, 9), (16, 5)]

/-- Whether an entry with V = 1 is malformed at a level (R387). -/
def entryBad (lvl : Nat) (e : Word) : Bool :=
  decide (e.toNat / 2 ^ 48 ≠ 0) ||
  (if e.getLsbD 1 then
    decide (lvl < 2) || decide (bitsNat e 15 8 ≠ 0) || (decide (lvl = 2) && decide (bitsNat e 29 16 ≠ 0)) ||
      (decide (lvl = 3) && decide (bitsNat e 20 16 ≠ 0))
  else decide (lvl = 4) || decide (bitsNat e 7 2 ≠ 0) || (decide (lvl < 3) && decide (bitsNat e 11 8 ≠ 0)))

/-- Whether a device physical address is populated (R386). -/
def populated (pa : Nat) : Bool := decide (pa / 2 ^ 44 < 12 ∧ pa % 2 ^ 44 < Config.hbmBytes)

/-- Whether a leaf maps host memory (R386). -/
def leafHost (e : Word) : Bool := e.getLsbD 7

/-- Whether a leaf that maps device memory names a frame outside populated memory (R388). -/
def leafOutside (e : Word) : Bool := !leafHost e && !populated (bitsNat e 47 16 * 2 ^ 16)

/-- How a walk ends (R388): a leaf with its page size and where it stands, or a translation fault's detail; and the
pointers it passed, each with the level of the table it names, the prefix of the address and the table. -/
structure Walked where
  leaf : Option (Word × Nat × Nat)
  detail : Nat
  ptrs : List (Nat × Nat × Nat)
  deriving DecidableEq, Repr, Inhabited

/-- The walk from a table of a level on (R388). An entry outside populated memory is none (log 31). -/
def walkFrom (m : Store) (va : Nat) : List (Nat × Nat) → Nat → Nat → Walked
  | [], _, _ => { leaf := none, detail := 2, ptrs := [] }
  | (lo, w) :: rest, lvl, tbl =>
    let a := tbl + 8 * (va / 2 ^ lo % 2 ^ w)
    let e := word (m.readLe a 8)
    if !populated a then { leaf := none, detail := 3, ptrs := [] }
    else if m.anyPoison a 8 then { leaf := none, detail := 4, ptrs := [] }
    else if !e.getLsbD 0 then { leaf := none, detail := 1, ptrs := [] }
    else if entryBad lvl e then { leaf := none, detail := 2, ptrs := [] }
    else if e.getLsbD 1 then
      (if leafOutside e then { leaf := none, detail := 3, ptrs := [] }
        else { leaf := some (e, lo, a), detail := 0, ptrs := [] })
    else
      let next := bitsNat e 47 8 * 2 ^ 8
      let r := walkFrom m va rest (lvl + 1) next
      { r with ptrs := (lvl + 1, va / 2 ^ lo, next) :: r.ptrs }

/-- The walk of an address from a root (R388). -/
def walk (m : Store) (root va : Nat) : Walked := walkFrom m va tableLevels 0 root

/-- The lowest bit of the index slice of a level. -/
def levelShift (lvl : Nat) : Nat := (tableLevels.getD lvl (16, 5)).1

/-- A walk by the walker of a cluster (R390), from the deepest pointer that it holds for the root. -/
def walkCached (d : Die) (m : Store) (cluster root va : Nat) : Walked :=
  let fits := d.walker.filter fun p =>
    p.cluster = cluster && p.root = root && p.prefixVa = va / 2 ^ levelShift (p.level - 1)
  let best := fits.foldl (fun (b : Option PtrEntry) p => match b with
    | some x => if x.level < p.level then some p else b
    | none => some p) none
  match best with
  | some p => walkFrom m va (tableLevels.drop p.level) p.level p.table
  | none => walk m root va

/-- The walker keeps the pointers that a walk has passed (R390). -/
def Die.learn (d : Die) (cluster root : Nat) (w : Walked) : Die :=
  let new := w.ptrs.map fun p =>
    ({ cluster := cluster, root := root, level := p.1, prefixVa := p.2.1, table := p.2.2 } : PtrEntry)
  { d with walker := d.walker ++ new.filter fun p => !d.walker.contains p }

/-- What an access does. -/
inductive Access where
  | read | write | atomic
  deriving DecidableEq, Repr, Inhabited

/-- The detail of a permission fault of a kernel-class access (R389; 19 Tables 19.3 and 19.4). -/
def permFault (e : Word) (a : Access) : Option Nat :=
  let bad := match a with
    | .read => if e.getLsbD 2 then none else some 1
    | .write => if e.getLsbD 3 then none else some 2
    | .atomic => if e.getLsbD 3 && e.getLsbD 4 then none else some 3
  match bad with
  | some d => some d
  | none => if e.getLsbD 5 then some 4 else none

/-! ## Where bytes lie (R386) -/

/-- The location of an address under a leaf. -/
def Leaf.loc (l : Leaf) (va : Nat) : Loc :=
  { host := leafHost l.entry, pa := bitsNat l.entry 47 16 * 2 ^ 16 + va % 2 ^ l.bits }

/-- The home die of a device physical address (R386). -/
def homeDie (pa : Nat) : Nat := pa / 2 ^ 44
/-- The home cluster of a device physical address (R386). -/
def homeCluster (pa : Nat) : Nat := pa % 2 ^ 44 / 64 % 12

/-- The memory of a location. -/
def State.storeAt (s : State) (l : Loc) : Store := if l.host then s.hostMem else s.mem

/-- Replace the memory of a location. -/
def State.setStoreAt (s : State) (l : Loc) (m : Store) : State :=
  if l.host then { s with hostMem := m } else { s with mem := m }

/-- The first 64 KiB frame of a leaf's page that holds an address. -/
def Loc.frame (l : Loc) : Nat := l.pa % 2 ^ 44 / 2 ^ 16

/-! ## Translation caches (R390, R391) -/

/-- The entry that serves an address. -/
def lookupLeaf (c : List Leaf) (va : Nat) : Option Leaf := c.find? fun l => va / 2 ^ l.bits = l.va / 2 ^ l.bits

/-- The cache of an engine. -/
def Xlat.cache (x : Xlat) (copy : Bool) : List Leaf := if copy then x.copyTlb else x.streamTlb

/-- Replace the cache of an engine. -/
def Xlat.setCache (x : Xlat) (copy : Bool) (c : List Leaf) : Xlat :=
  if copy then { x with copyTlb := c } else { x with streamTlb := c }

/-- The standing miss of an engine (R393). -/
def Xlat.miss (x : Xlat) (copy : Bool) : Option Miss := if copy then x.copyMiss else x.streamMiss

/-- Replace the standing miss of an engine. -/
def Xlat.setMiss (x : Xlat) (copy : Bool) (m : Option Miss) : Xlat :=
  if copy then { x with copyMiss := m } else { x with streamMiss := m }

/-- An entry joins a cache. -/
def Xlat.fill (x : Xlat) (copy : Bool) (va : Nat) (e : Word) (bits : Nat) : Xlat :=
  let l : Leaf := { va := va / 2 ^ bits * 2 ^ bits, bits := bits, entry := e }
  x.setCache copy ((x.cache copy).filter (fun o => o ≠ l) ++ [l])

/-- What an xlinv operand names (R356): the entries of one page, all entries, or a reserved use. -/
inductive Invalidation where
  | page (va : Nat)
  | all
  | bad
  deriving DecidableEq, Repr, Inhabited

/-- The reading of an xlinv operand (R356). -/
def invalidation (a : Word) : Invalidation :=
  if a.toNat / 2 ^ 57 % 2 ^ 5 ≠ 0 ∨ 2 ≤ a.toNat / 2 ^ 62 then .bad
  else if a.toNat / 2 ^ 62 = 1 then .all
  else .page (bitsNat a 56 16 * 2 ^ 16)

/-- The entries of a cache that an invalidation leaves. -/
def Invalidation.keep (i : Invalidation) (c : List Leaf) : List Leaf :=
  match i with
  | .page va => c.filter fun l => va / 2 ^ l.bits ≠ l.va / 2 ^ l.bits
  | .all => []
  | .bad => c

/-- Both caches of a tile invalidated. -/
def Xlat.invalidate (x : Xlat) (i : Invalidation) : Xlat :=
  { x with streamTlb := i.keep x.streamTlb, copyTlb := i.keep x.copyTlb }

/-- The tiles of a partition in ascending number. -/
def Part.tileList (p : Part) : List TileNo :=
  ((List.range 1152).filter fun k => p.tiles.getLsbD k).map tileNo

/-- Whether a die holds a tile of a partition. -/
def Part.hasDie (p : Part) (d : Nat) : Bool := (List.range 96).any fun k => p.tiles.getLsbD (d * 96 + k)

/-- Change every tile of a list. -/
def State.mapTiles (s : State) (ts : List TileNo) (f : Tile → Tile) : State :=
  ts.foldl (fun st t => st.setTile t (f (st.tile t))) s

/-- Change every die. -/
def State.mapDies (s : State) (f : Nat → Die → Die) : State :=
  { s with dies := vmk 12 fun d => f d (vget s.dies d) }

/-- Entries of every tile cache of a partition invalidated, with the walkers' pointers of its dies (R391). -/
def State.shoot (s : State) (p : PartNo) (i : Invalidation) : State :=
  let part := s.part p
  (s.mapTiles part.tileList fun t => { t with xlat := t.xlat.invalidate i }).mapDies fun d x =>
    if part.hasDie d then { x with walker := [] } else x

/-- A privileged-class translation (R389, R392): always a hardware walk from PT_ROOT. -/
def State.privWalk (s : State) (p : PartNo) (va : Nat) : Except Nat Leaf :=
  let w := walk s.mem ((s.part p).xl.root) va
  match w.leaf with
  | some (e, bits, _) => .ok { va := va / 2 ^ bits * 2 ^ bits, bits := bits, entry := e }
  | none => .error w.detail

/-! ## The home directory (R397, R399) -/

/-- The directory entry of a frame as after reset. -/
def Frame.fresh (n : Nat) : Frame := { frame := n, owner := 0x10, wp := false, counts := vrep 12 0 }

/-- The directory entry of a frame of a die. -/
def Die.frameOf (d : Die) (n : Nat) : Frame := (d.frames.find? fun f => f.frame = n).getD (Frame.fresh n)

/-- Replace a directory entry, keeping frames in rising order and none listed that is as after reset. -/
def putFrame : List Frame → Frame → List Frame
  | [], f => if f = Frame.fresh f.frame then [] else [f]
  | g :: rest, f =>
    if f.frame < g.frame then (if f = Frame.fresh f.frame then g :: rest else f :: g :: rest)
    else if f.frame = g.frame then (if f = Frame.fresh f.frame then rest else f :: rest)
    else g :: putFrame rest f

/-- The canonical form of a home directory: frames strictly rising from `lo`, none listed as after reset. -/
def framesWf : Nat → List Frame → Bool
  | _, [] => true
  | lo, f :: rest => decide (lo ≤ f.frame) && decide (f ≠ Frame.fresh f.frame) && framesWf (f.frame + 1) rest

/-- Change the directory entry of a frame. -/
def Die.mapFrame (d : Die) (n : Nat) (g : Frame → Frame) : Die := { d with frames := putFrame d.frames (g (d.frameOf n)) }

/-- Change the directory entry of the frame that holds a location. -/
def State.mapFrame (s : State) (pa : Nat) (g : Frame → Frame) : State :=
  s.setDie (homeDie pa) ((s.die (homeDie pa)).mapFrame (pa % 2 ^ 44 / 2 ^ 16) g)

/-- The home die's check of a request (R397): the refusal's detail. A location in host memory has no home die. -/
def State.homeCheck (s : State) (p : PartNo) (l : Loc) (writes : Bool) : Option Nat :=
  if l.host then none
  else
    let f := (s.die (homeDie l.pa)).frameOf l.frame
    if f.owner ≠ p.val then some 1 else if writes && f.wp then some 2 else none

/-- A refusal enters the refusal log of a die (R397, R404): eight entries, further ones lost. -/
def State.logRefusal (s : State) (die : Nat) (src : BitVec 16) (tag detail pa : Nat) : State :=
  let d := s.die die
  s.setDie die
    (if d.refusals.length < 8 then { d with refusals := d.refusals ++ [(src, tag, detail, pa)] }
     else { d with refuseLost := true })

/-- A request's read of memory at a location: the bytes, and which of them lie in poisoned words (R299). -/
def State.readLoc (s : State) (l : Loc) (n : Nat) : List (Byte × Bool) :=
  let m := s.storeAt l
  (List.range n).map fun k => (readCell m.bytes (l.pa + k), m.poisoned (l.pa + k))

/-- The words of the bytes among given ones that are poisoned. -/
def poisonWords (a : Nat) (bs : List (Byte × Bool)) : List Nat :=
  (((List.range bs.length).zip bs).filterMap fun p => if p.2.2 then some ((a + p.1) / 8) else none).eraseDups

/-- The write of bytes of which some are POISON (R215, R283, R299). -/
def byteWrite (a : Nat) (bs : List (Byte × Bool)) : SpadWrite :=
  { cells := (List.range bs.length).zip bs |>.map fun p => (a + p.1, p.2.1), poison := poisonWords a bs }

/-- A request's write of memory at a location. -/
def State.writeLoc (s : State) (l : Loc) (bs : List (Byte × Bool)) : State :=
  s.setStoreAt l ((s.storeAt l).apply (byteWrite l.pa bs))

/-- Valid bytes. -/
def validBytes (bs : List Byte) : List (Byte × Bool) := bs.map fun b => (b, false)

/-- Whether a location is reached: host memory only while the Gallery die stands (R434, R439). -/
def State.reaches (s : State) (l : Loc) : Bool := !l.host || !s.gallery.lost

/-- Whether a frame is being migrated away (R401). -/
def State.migrating (s : State) (l : Loc) : Bool :=
  !l.host && (match (s.die (homeDie l.pa)).mig with | some m => m.old = l.pa / 2 ^ 16 * 2 ^ 16 | none => false)

/-- A write at a location, held while its frame is being moved, with the rsends that wait for it (R312, R314, R401). -/
def State.writeHeld (s : State) (p : Option PartNo) (l : Loc) (bs : List (Byte × Bool)) (waiters : List (TileNo × Nat)) : State :=
  if s.migrating l then { s with heldWrites := s.heldWrites ++ [{ part := p, loc := l, bytes := bs, waiters := waiters }] }
  else s.writeLoc l bs

/-- A refusal of an access of the hardware itself (R397): entered in the home die's log, with no tile as its source and a free request tag
(logs 34 and 36). -/
def State.refuseHw (s : State) (l : Loc) (detail : Nat) : State :=
  let (tag, s1) := s.fresh
  s1.logRefusal (homeDie l.pa) 0xFFFF (tag.toNat % 4096) detail l.pa

/-- A write of the hardware itself to global memory under the privileged class at a virtual address, byte ranges
cut at 64 KiB pages; where a page is not mapped, or its frame refuses, the bytes are not written (log 34). -/
def State.privWrite (s : State) (p : PartNo) (va : Nat) (bs : List (Byte × Bool)) : State :=
  let n := bs.length
  let first := min n (2 ^ 16 - va % 2 ^ 16)
  let put := fun (s : State) (a : Nat) (xs : List (Byte × Bool)) =>
    if xs.isEmpty then s
    else match s.privWalk p a with
      | .ok l => match s.homeCheck p (l.loc a) true with
        | some d => s.refuseHw (l.loc a) d
        | none => if s.reaches (l.loc a) then s.writeHeld (some p) (l.loc a) xs [] else s
      | .error _ => s
  put (put s va (bs.take first)) (va + first) (bs.drop first)

/-- Bytes that the hardware reads where nothing is mapped, or where the read is refused: free values of the address (log 34). -/
def absentBytes (va n : Nat) : List (Byte × Bool) := (List.range n).map fun k => (Config.absentByte (va + k), false)

/-- A read of the hardware itself under the privileged class, at most one page boundary crossed; what is not mapped
or refused gives free values (log 34). -/
def State.privRead (s : State) (p : PartNo) (va n : Nat) : List (Byte × Bool) :=
  let first := min n (2 ^ 16 - va % 2 ^ 16)
  let get := fun (a k : Nat) =>
    if k = 0 then []
    else match s.privWalk p a with
      | .ok l => if (s.homeCheck p (l.loc a) false).isNone && s.reaches (l.loc a) then s.readLoc (l.loc a) k else absentBytes a k
      | .error _ => absentBytes a k
  get va first ++ get (va + first) (n - first)

/-- The refusals that a read of the hardware itself meets enter the logs of the home dies (R397). -/
def State.noteRead (s : State) (p : PartNo) (va n : Nat) : State :=
  let first := min n (2 ^ 16 - va % 2 ^ 16)
  let note := fun (s : State) (a k : Nat) =>
    if k = 0 then s
    else match s.privWalk p a with
      | .ok l => match s.homeCheck p (l.loc a) false with | some d => s.refuseHw (l.loc a) d | none => s
      | .error _ => s
  note (note s va first) (va + first) (n - first)

/-- Valid bytes read under the privileged class. -/
def State.privBytes (s : State) (p : PartNo) (va n : Nat) : List Byte := (s.privRead p va n).map Prod.fst

end Sys2Proof.Machine
end

