-- ==== Sys2Proof/Machine/Request.lean ====
section
/-! DEFINITION. Which access an engine makes next (chapters 12 and 13): the order of commands and stream elements by class,
fence and release, the 64-byte requests of a transfer, and the elements of streams. -/
namespace Sys2Proof.Machine

/-! ## Order (R269, R290, R298, R303, R305, R306) -/

/-- The bit of a class in a class mask. -/
def classBit (c : BitVec 4) : BitVec 16 := 1 <<< c.toNat

/-- The classes that a command orders later accesses behind: its own, or a fence's mask. -/
def CmdBody.gives : CmdBody → BitVec 16
  | .xfer x => classBit x.cls
  | .atomic _ _ _ _ c _ => classBit c
  | .fence m => m
  | _ => 0

/-- The classes whose earlier accesses a command stands behind: its own class, a fence's mask, and every class for a
release (R306). -/
def CmdBody.needs : CmdBody → BitVec 16
  | .xfer x => classBit x.cls
  | .atomic _ _ _ _ c _ => classBit c
  | .fence m => m
  | .ssig _ _ _ | .sinit _ _ | .launch _ => BitVec.allOnes 16
  | _ => 0

/-- Whether a command is a fence. -/
def CmdBody.isFence : CmdBody → Bool
  | .fence _ => true
  | _ => false

/-- The commands of a tile that have been issued and not yet performed: in the queue, in the commit buffer, released, and
within the checker lag, behind which a command released from there stands (log 60).
A transfer whose payload has performed still stands before a fence until its completion actions (R305). -/
def Engines.open_ (e : Engines) : List (Cmd × Bool) :=
  (e.queue.map fun (a : Active) => (a.cmd, a.done)) ++ ((e.held ++ e.released ++ e.lag).map fun (c : Cmd) => (c, false))

/-- Whether an access or release of classes `needs`, issued as the command numbered `id`, stands behind a command. -/
def waitsOn (needs : BitVec 16) (id : Nat) (fence : Bool) (c : Cmd × Bool) : Bool :=
  decide (c.1.id < id) && decide (needs &&& c.1.body.gives ≠ 0) && !(fence && c.1.body.isFence) &&
    (!c.2 || fence)

/-- Every stream of a tile, the bound ones first. -/
def Streams.all (ss : Streams) : List Stream := ((vlist ss.regs).filterMap fun x => x) ++ ss.old

/-- The places in issue order of a stream's accesses that have been issued and not performed (R303): elements reserved and not drained, and
elements of a read stream that have a place in its buffer and are not yet read (log 83). -/
def Stream.places (st : Stream) : List (Nat × Nat) :=
  if st.pat.isWrite then st.queue.map fun (r : Reserved) => (r.after, r.order) else st.due

/-- Whether a stream access of one of the classes, not yet performed, stands at a place in issue order that `early` names. -/
def Streams.accessBefore (ss : Streams) (needs : BitVec 16) (early : Nat × Nat → Bool) : Bool :=
  ss.all.any fun (st : Stream) => decide (needs &&& classBit st.pat.cls ≠ 0) && st.places.any early

/-- Whether everything that a command of classes `needs` stands behind has performed. -/
def Tile.inOrder (t : Tile) (needs : BitVec 16) (id : Nat) (fence : Bool) : Bool :=
  !(t.eng.open_.any (waitsOn needs id fence)) && !t.streams.accessBefore needs fun p => decide (p.1 ≤ id)

/-! ## Transfers (R277 to R283, R299) -/

/-- The source and destination address of byte k of a transfer (R278). -/
def Transfer.byteAt (x : Transfer) (k : Nat) : Word × Word :=
  let r := x.dims.foldl (fun (p : Nat × Int × Int) d =>
    let i := if d.1 = 0 then 0 else p.1 % d.1
    (if d.1 = 0 then 0 else p.1 / d.1, p.2.1 + i * d.2.1, p.2.2 + i * d.2.2)) (k, 0, 0)
  (x.src + BitVec.ofInt 64 r.2.1, x.dst + BitVec.ofInt 64 r.2.2)

/-- The aligned 64-byte units that the bytes of a nest touch, in the order in which they are first touched (R295, R299). -/
def unitsOf (addr : Nat → Nat) (total : Nat) : List Nat := ((List.range total).map fun k => addr k / 64).eraseDups

/-- The bytes of a nest, by number, that lie in a unit. -/
def unitBytes (addr : Nat → Nat) (total u : Nat) : List Nat := (List.range total).filter fun k => addr k / 64 = u

/-- A request of an engine: the bytes from an address on among which those it touches lie, whether they are global, what it does, and the
bytes of a transfer that it concerns, by number. -/
structure Req where
  addr : Nat
  n : Nat
  isGlobal : Bool
  access : Access
  ks : List Nat
  deriving DecidableEq, Repr, Inhabited

/-- The request of the given bytes of a nest, which lie in one unit. -/
def Req.of (addr : Nat → Nat) (ks : List Nat) (isGlobal : Bool) (access : Access) : Req :=
  let lo := ks.foldl (fun m k => min m (addr k)) (addr (ks.headD 0))
  let hi := ks.foldl (fun m k => max m (addr k)) lo
  { addr := lo, n := hi + 1 - lo, isGlobal := isGlobal, access := access, ks := ks }

/-- Whether the source of a transfer lies in global memory. -/
def Transfer.srcGlobal (x : Transfer) : Bool := !x.isSend && !x.isRsend && decide (x.dir ≠ 1)
/-- Whether the destination of a transfer lies in global memory. -/
def Transfer.dstGlobal (x : Transfer) : Bool := !x.isSend && !x.isRsend && decide (x.dir ≠ 0)

/-- The next request of a transfer (R295, R299): the write of the next destination unit, whole, once its bytes have been read, else the read
of the next source unit; none when nothing is left. `rd` and `wr` count the units read and written. An rsend translates the pages of its
result, which lies contiguous at DST (R390, R442), and writes nothing itself (R281). -/
def Active.nextReq (a : Active) (x : Transfer) : Option Req :=
  let total := x.total
  let src := fun k => (x.byteAt k).1.toNat
  let dst := fun k => (x.byteAt k).2.toNat
  let su := unitsOf src total
  let read := (su[a.rd]?).map fun u => Req.of src (unitBytes src total u) x.srcGlobal .read
  if x.isRsend then
    match read with
    | some r => some r
    | none =>
      let first := if a.wr = 0 then x.dst.toNat else (x.dst.toNat / 2 ^ 16 + a.wr) * 2 ^ 16
      let last := x.dst.toNat + total
      if first < last then
        some { addr := first, n := min last ((first / 2 ^ 16 + 1) * 2 ^ 16) - first, isGlobal := true, access := .write, ks := [] }
      else none
  else match (unitsOf dst total)[a.wr]? with
    | none => none
    | some u =>
      let ks := unitBytes dst total u
      if ks.all fun k => (su.take a.rd).contains (src k / 64) then some (Req.of dst ks x.dstGlobal .write) else read

/-- The width in bytes of a global atomic's word (12 Table 12.6). -/
def AtomicOp.width : AtomicOp → Nat
  | .faddF32 => 4
  | .faddBf16 => 2
  | _ => 8

/-- The next request of an accepted command. -/
def Active.req (a : Active) : Option Req :=
  match a.cmd.body with
  | .xfer x => if a.done then none else a.nextReq x
  | .atomic op va _ _ _ _ =>
    if a.done then none
    else some { addr := va / op.width * op.width, n := op.width, isGlobal := true, access := .atomic, ks := [] }
  | _ => none

/-- An accepted command by its number. -/
def Engines.active (e : Engines) (id : Nat) : Option Active := e.queue.find? fun (a : Active) => a.cmd.id = id

/-- Change an accepted command. -/
def Tile.mapActive (t : Tile) (id : Nat) (f : Active → Active) : Tile :=
  { t with eng := { t.eng with queue := t.eng.queue.map fun (a : Active) => if a.cmd.id = id then f a else a } }

/-- Whether a command's next access is in its turn (R303, R290): for an rsend, at its release. -/
def Tile.turn (t : Tile) (a : Active) : Bool := t.inOrder a.cmd.body.needs a.cmd.id a.cmd.body.isFence

/-! ## Streams (R273 to R276) -/

/-- The indices of element e of an affine pattern, level 0 fastest. -/
def elemIndices : List (Nat × Int) → Nat → List (Nat × Int)
  | [], _ => []
  | l :: rest, e => (if l.1 = 0 then 0 else e % l.1, l.2) :: elemIndices rest (if l.1 = 0 then 0 else e / l.1)

/-- The address of an element, aligned (R273). -/
def Pattern.align (p : Pattern) (a : Word) : Nat :=
  if p.isVector then a.toNat / 4 * 4 else a.toNat / 8 * 8

/-- The address of element e of an affine stream (R273). -/
def Pattern.addrAt (p : Pattern) (e : Nat) : Nat :=
  p.align (p.base + BitVec.ofInt 64 ((elemIndices p.levels e).foldl (fun (t : Int) x => t + x.1 * x.2) 0))

/-- The bytes of an element. -/
def Pattern.size (p : Pattern) : Nat := if p.isVector then 128 else 8

/-- What a stream does next: the read of an element, or the drain of the oldest reserved element, with its address; a
scatter element of a VOID index and a gather element of one make no access. -/
inductive StreamNext where
  | fill (addr : Option Nat)
  | drain (addr : Option Nat) (e : Elem)
  deriving DecidableEq, Repr, Inhabited

/-- The next element that a stream reads or writes, when it may: presented, with room or a filled element, and for a
gather or scatter stream a presented index (R65, R66, R273, R275). -/
def Stream.nextElem (st : Stream) : Option StreamNext :=
  if !st.presented then none
  else
    let index := fun (f : Option Nat → StreamNext) => match st.idx.drop (st.filled - st.popped) with
      | i :: _ => if i.presented then
          some (f (if i.val.tag = .valid then some (st.pat.align (gatherAddr st.pat i.val.v)) else none)) else none
      | [] => none
    if st.pat.isWrite then
      match st.queue with
      | r :: _ => match r.val with
        | some e =>
          if st.pat.kind = 0 then some (.drain (some (st.pat.addrAt r.pos)) e)
          else index fun a => .drain a e
        | none => none
      | [] => none
    else if 8 ≤ st.buf.length then none
    else match st.pat.kind with
      | 0 => if st.filled < st.pat.count then some (.fill (some (st.pat.addrAt st.filled))) else none
      | 1 => index .fill
      | _ => none

/-- The request of the bytes of an element from the k-th on that lie in one 64-byte unit (R299). -/
def elemReq (addr size k : Nat) (access : Access) : Req :=
  let a := addr + k
  { addr := a, n := min (size - k) (64 - a % 64), isGlobal := true, access := access, ks := [] }

/-- The global request of a stream's next element, one for each 64-byte unit in turn (R299); none for a local stream, whose element is read or
written at one instant (R297). -/
def Stream.req (st : Stream) : Option Req :=
  if st.pat.isLocal then none
  else match st.nextElem with
    | some (.fill (some a)) => some (elemReq a st.pat.size st.got.length .read)
    | some (.drain (some a) _) => some (elemReq a st.pat.size st.gone .write)
    | _ => none

/-- Whether a stream's next element is in its turn (R303): behind the accesses of its class issued before its own place, that of its
reservation, or of the sbind, gpush or pop with which its read was issued (log 83). -/
def Tile.streamTurn (t : Tile) (st : Stream) : Bool :=
  let bit := classBit st.pat.cls
  let at_ := st.places.headD (st.cmd + 1, 0)
  st.nextElem.isSome && !(t.eng.open_.any (waitsOn bit at_.1 false)) &&
    !t.streams.accessBefore bit fun p => decide (p.1 < at_.1 ∨ (p.1 = at_.1 ∧ p.2 < at_.2))

/-! ## Requests and translation -/

/-- The number under which a stream's requests stand beside those of commands. -/
def streamId (serial : Nat) : Nat := 2 ^ 32 + serial

/-- A request with the engine that makes it: the number of its command or stream, whether the copy engine makes it, the
stream register, and what is known of it. -/
structure Asked where
  id : Nat
  copy : Bool
  sreg : Nat
  req : Req
  loc : Option Loc
  fault : Option (Nat × Nat)
  reported : Bool
  deriving DecidableEq, Repr, Inhabited

/-- The global requests that the engines of a tile could make now, commands first, in order; a request held by a fault
stands in its place (R396). -/
def Tile.asked (t : Tile) : List Asked :=
  (t.eng.queue.filterMap fun (a : Active) => match a.req with
    | some r => if r.isGlobal && t.turn a then
        some { id := a.cmd.id, copy := true, sreg := 0, req := r, loc := a.loc, fault := a.fault, reported := a.reported }
      else none
    | none => none) ++
  (t.streams.all.filterMap fun (st : Stream) => match st.req with
    | some r => if t.streamTurn st then
        some { id := streamId st.serial, copy := false, sreg := st.reg, req := r, loc := st.loc, fault := st.fault,
               reported := st.reported }
      else none
    | none => none)

/-- A request of a tile by its number. -/
def Tile.askedOf (t : Tile) (id : Nat) : Option Asked := t.asked.find? fun a => a.id = id

/-- The leaf of its engine's cache that serves a request, which lies within one page (R299, R390). -/
def Tile.leafOf (t : Tile) (a : Asked) : Option Leaf := lookupLeaf (t.xlat.cache a.copy) a.req.addr

/-- The address of a request not yet translated whose page its engine's cache does not hold. -/
def Tile.missing (t : Tile) (a : Asked) : Option Nat :=
  if a.loc.isNone && (t.leafOf a).isNone then some a.req.addr else none

/-- Where a request lies: as translated once, at its check (R390), or as the cache translates it now. -/
def Tile.locOf (t : Tile) (a : Asked) : Option Loc := a.loc.or ((t.leafOf a).map fun l => l.loc a.req.addr)

/-- The permission fault of a request that its engine's cache translates (R389). -/
def Tile.denied (t : Tile) (a : Asked) : Option Nat :=
  if a.loc.isSome then none else (t.leafOf a).bind fun l => permFault l.entry a.req.access

/-- Set what is known of a request. -/
def Tile.noteAsked (t : Tile) (id : Nat) (loc : Option Loc) (fault : Option (Nat × Nat)) (reported : Bool) : Tile :=
  if id < 2 ^ 32 then
    t.mapActive id fun a => { a with loc := loc, fault := fault, reported := reported }
  else { t with streams := t.streams.mapSerial (id - 2 ^ 32) fun st =>
      { st with loc := loc, fault := fault, reported := reported } }

/-- The bundle address and schedule cycle of a request's command (R283). -/
def Tile.issuer (t : Tile) (id : Nat) : Nat × Nat :=
  if id < 2 ^ 32 then ((t.eng.active id).map fun (a : Active) => (a.cmd.addr, a.cmd.cycle)).getD (0, 0)
  else ((t.streams.find (id - 2 ^ 32)).map fun (st : Stream) => (st.bindAddr, st.bindCycle)).getD (0, 0)

end Sys2Proof.Machine
end

