-- ==== Sys2Proof/Machine/Translate.lean ====
section
/-! DEFINITION. The events of translation, homes and migration (chapter 19): misses, walks and fills, engine faults and their
resolution, invalidation, the checks of a home die, and the movement of frames. -/
namespace Sys2Proof.Machine

/-- The partition for which a register stands that a handler or the host writes (R341, R403); none where the writer is no
running handler or the partition does not exist (R440). -/
def State.originPart (s : State) : Origin → Option PartNo
  | .handler t => if (s.tile t).priv.active then some (s.partOf t) else none
  | .window p => if s.window p then some p else none

/-- Change the translation registers of a partition. -/
def State.mapXl (s : State) (p : PartNo) (f : PartXlat → PartXlat) : State :=
  s.setPart p { s.part p with xl := f (s.part p).xl }

/-! ## Misses, walks and fills (R390 to R395) -/

/-- The 16 bytes of a miss record (R395). -/
def missRecord (va : Nat) (t : TileNo) (copy : Bool) (a : Access) : List Byte :=
  leBytes 8 (va % 2 ^ 57) ++
    leBytes 8 (t.val + b2n copy * 2 ^ 16 + b2n (a ≠ .read) * 2 ^ 17 + b2n (a = .atomic) * 2 ^ 18)

/-- The first request of an engine whose page its cache does not hold, and the address. -/
def Tile.firstMiss (t : Tile) (copy : Bool) : Option (Asked × Nat) :=
  (t.asked.filter fun a => a.copy = copy && a.fault.isNone).findSome? fun a => (t.missing a).map fun va => (a, va)

/-- The record of a standing host-assisted miss is written, once the ring has room for it (R395). -/
def State.recordMiss (s : State) (tn : TileNo) (copy : Bool) : State :=
  let pn := s.partOf tn
  let x := (s.part pn).xl
  match (s.tile tn).xlat.miss copy with
  | some m =>
    if m.mode = 2 ∧ m.raised = false ∧ x.missStanding < x.missSlotsM1 + 1 then
      let slot := x.missHead.toNat % (x.missSlotsM1 + 1)
      let access := if m.atomic then Access.atomic else if m.write then .write else .read
      let s1 := s.privWrite pn (x.missBase + 16 * slot) (validBytes (missRecord m.va tn copy access))
      (s1.setTile tn { s1.tile tn with xlat := (s1.tile tn).xlat.setMiss copy (some { m with raised := true }) }).mapXl pn fun x =>
        { x with missHead := x.missHead + 1, missStanding := x.missStanding + 1 }
    else s
  | none => s

/-- A miss arises (R392, R393): it stands with the mode and root in force; in host-assisted mode it waits for its record (R395). -/
def State.missArises (s : State) (tn : TileNo) (copy : Bool) : State :=
  let t := s.tile tn
  match t.xlat.miss copy, t.firstMiss copy with
  | none, some (a, va) =>
    let x := (s.part (s.partOf tn)).xl
    let m : Miss :=
      { va := va, write := a.req.access ≠ .read, atomic := a.req.access = .atomic, sreg := a.sreg, mode := x.walkMode.toNat,
        root := x.root, raised := false, priv := false }
    (s.setTile tn { t with xlat := t.xlat.setMiss copy (some m) }).recordMiss tn copy
  | _, _ => s.recordMiss tn copy

/-- A miss of an engine's first request (R392). -/
def execTranslationMiss (t : TileNo) (copyEngine : Bool) (s : State) : Host.Outcome State Fault Refusal :=
  .next (s.missArises t copyEngine)

/-- The request of an engine that awaits a standing miss: the first to the page that missed. -/
def Tile.awaits (t : Tile) (copy : Bool) (m : Miss) : Option Asked :=
  t.asked.find? fun a => a.copy = copy && a.fault.isNone && decide ((t.missing a).map (· / 2 ^ 16) = some (m.va / 2 ^ 16))

/-- A standing miss ends in a leaf or in a translation fault of the request that awaits it (R393, R396). -/
def State.missEnds (s : State) (tn : TileNo) (copy : Bool) (r : Except Nat (Word × Nat)) : State :=
  let t := s.tile tn
  match t.xlat.miss copy with
  | none => s
  | some m =>
    let s1 := if m.raised then
      s.mapXl (s.partOf tn) fun x => { x with missStanding := x.missStanding - 1 } else s
    match r with
    | .ok (e, bits) => s1.setTile tn { t with xlat := (t.xlat.fill copy m.va e bits).setMiss copy none }
    | .error d =>
      let t1 := { t with xlat := t.xlat.setMiss copy none }
      s1.setTile tn (match t.awaits copy m with
        | some a => t1.noteAsked a.id none (some (1, d)) false
        | none => t1)

/-- A hardware walk completes from the root read at its start (R388, R393). -/
def execTranslationWalkComplete (t : TileNo) (copyEngine : Bool) (s : State) : Host.Outcome State Fault Refusal :=
  match (s.tile t).xlat.miss copyEngine with
  | some m =>
    if m.mode ≠ 0 then .next s
    else
      let d := dieOf t
      let w := walkCached (s.die d) s.mem (clusterOf t) m.root m.va
      let s1 := s.setDie d ((s.die d).learn (clusterOf t) m.root w)
      .next (s1.missEnds t copyEngine (match w.leaf with | some (e, bits, _) => .ok (e, bits) | none => .error w.detail))
  | none => .next s

/-- The leaf that a WALK_FILL gives, or its refusal, detail 0x5 (R394); a frame outside populated memory is refused too
(log 33). -/
def fillLeaf (v : Word) : Except Nat (Word × Nat) :=
  let e := word (v.toNat % 2 ^ 48)
  let size := bitsNat v 49 48
  let lvl := 4 - size
  if !v.getLsbD 0 || !v.getLsbD 1 || size = 3 || decide (v.toNat / 2 ^ 50 ≠ 0) || entryBad lvl e || leafOutside e then .error 5
  else .ok (e, levelShift lvl)

/-- The tile, engine and mode of the miss that a WALK_FILL answers: a handler's own firmware miss, or the host-assisted one that HFILL_SEL
names (R394, R395). -/
def State.fillTarget (s : State) : Origin → Option (TileNo × Bool × Nat)
  | .handler t => if (s.tile t).priv.active then some (t, (s.tile t).xlat.walkInfo.getLsbD 0, 1) else none
  | .window p =>
    let x := (s.part p).xl
    if s.window p && (s.part p).tiles.getLsbD x.hfillTile then some (tileNo x.hfillTile, x.hfillEngine, 2) else none

/-- A write of WALK_FILL; without a standing miss that it answers it is ignored, since a miss is served to its end under the mode in which
it arose (R393). -/
def State.walkFill (s : State) (o : Origin) (v : Word) : State :=
  match s.fillTarget o with
  | some (t, copy, mode) => match (s.tile t).xlat.miss copy with
    | some m => if m.mode = mode ∧ (mode = 1 ∨ m.raised) then s.missEnds t copy (fillLeaf v) else s
    | none => s
  | none => s

/-- WALK_FILL (R394, R395). -/
def execWalkFill (o : Origin) (v : Word) (s : State) : Host.Outcome State Fault Refusal := .next (s.walkFill o v)

/-- The read that a write of WALK_PADDR has asked for ends: its 8 bytes stand in WALK_DATA (R394). -/
def execWalkData (s : State) : Host.Outcome State Fault Refusal :=
  .next (s.mapMe fun t =>
    if t.xlat.walkPending then
      { t with xlat := { t.xlat with walkData := word (s.mem.readLe t.xlat.walkPaddr 8), walkPending := false } }
    else t)

/-- The firmware miss of a tile that enters or has entered a handler (R394): the stream engine's first. -/
def Xlat.firmware (x : Xlat) : Option (Miss × Bool) :=
  match x.streamMiss with
  | some m => if m.mode = 1 then some (m, false) else
      (match x.copyMiss with | some c => if c.mode = 1 then some (c, true) else none | none => none)
  | none => match x.copyMiss with | some c => if c.mode = 1 then some (c, true) else none | none => none

/-- WALK_VA and WALK_INFO as a miss sets them (19 Table 19.5). -/
def Xlat.showMiss (x : Xlat) (m : Miss) (copy : Bool) : Xlat :=
  { x with walkVa := m.va,
           walkInfo := word ((if copy then 0 else m.sreg * 2 ^ 16) + b2n m.atomic * 4 + b2n m.write * 2 + b2n copy) }

/-! ## Engine faults (R396, R398) -/

/-- The fault of a request of a tile, found already or found now by its permissions. -/
def Tile.faultOf (t : Tile) (id : Nat) : Option (Nat × Nat) :=
  let held := if id < 2 ^ 32 then (t.eng.active id).bind fun (a : Active) => a.fault
    else (t.streams.find (id - 2 ^ 32)).bind fun (st : Stream) => st.fault
  held.or ((t.askedOf id).bind fun a => (t.denied a).map fun d => (2, d))

/-- Whether the fault of a request has been reported. -/
def Tile.faultReported (t : Tile) (id : Nat) : Bool :=
  if id < 2 ^ 32 then ((t.eng.active id).map fun (a : Active) => a.reported).getD false
  else ((t.streams.find (id - 2 ^ 32)).map fun (st : Stream) => st.reported).getD false

/-- An engine fault is reported (R396): the registers are written, and cause 0x20 is raised. The request tag is a free
value (log 36). -/
def State.reportFault (s : State) (tn : TileNo) (f : Nat × Nat) (handler : Bool) (va addr cycle : Nat) : State :=
  let (tag, s1) := s.fresh
  let t := s1.tile tn
  let ef : EfRegs :=
    { kind := f.1, handler := handler, va := va, addr := addr, cycle := cycle, detail := f.2, reqTag := tag.toNat % 4096,
      standing := true }
  s1.setTile tn ({ t with priv := { t.priv with ef := ef } }.raiseAsync
    { cause := 0x20, value := 0, addr := addr, cycle := cycle, sub := 0 })

/-- The address that a request's fault names. -/
def Tile.faultVa (t : Tile) (id : Nat) : Nat :=
  match t.askedOf id with
  | some a => (t.missing a).getD a.req.addr
  | none => match t.eng.active id with
    | some a => (match a.cmd.body with | .xfer x => x.dst.toNat | _ => 0)
    | none => 0

/-- A request meets a fault (R396): it is held, and reported when the tile holds no other unresolved fault (R398). -/
def execEngineFault (t : TileNo) (id : Nat) (s : State) : Host.Outcome State Fault Refusal :=
  let x := s.tile t
  match x.faultOf id with
  | none => .next s
  | some f =>
    if x.faultReported id then .next s
    else if x.priv.ef.standing then .next (s.setTile t (x.noteAsked id none (some f) false))
    else
      let w := x.issuer id
      .next ((s.setTile t (x.noteAsked id none (some f) true)).reportFault t f false (x.faultVa id) w.1 w.2)

/-- The engine fault of a tile is resolved (R398): every held request is translated afresh. -/
def Tile.resumeFaults (t : Tile) : Tile :=
  let clear := fun (st : Stream) => { st with loc := if st.fault.isSome then none else st.loc, fault := none, reported := false }
  { t with
    eng := { t.eng with queue := t.eng.queue.map fun (a : Active) =>
      { a with loc := if a.fault.isSome then none else a.loc, fault := none, reported := false } },
    streams := { t.streams with
      regs := vmk 8 fun k => (vget t.streams.regs k).map clear, old := t.streams.old.map clear },
    xlat := { t.xlat with streamTlb := [], copyTlb := [] },
    priv := { t.priv with ef := { t.priv.ef with standing := false },
                          ectl := t.priv.ectl.map fun (e : Ectl) => { e with fault := none } } }

/-- A write of EF_RESUME: by a handler for its own tile, through the window for the tile that TILE names (R398). -/
def State.efResume (s : State) (o : Origin) (v : Word) : State :=
  if !v.getLsbD 0 then s
  else match o with
    | .handler t => if (s.tile t).priv.active then s.setTile t (s.tile t).resumeFaults else s
    | .window p =>
      let t := bitsNat v 26 16
      if s.window p && (s.part p).tiles.getLsbD t then s.setTile (tileNo t) (s.tile (tileNo t)).resumeFaults else s

/-- EF_RESUME (R398). -/
def execEfResume (o : Origin) (v : Word) (s : State) : Host.Outcome State Fault Refusal := .next (s.efResume o v)

/-! ## Invalidation (R391) -/

/-- A write of XL_SHOOT: the entries that it names are dropped, and XL_BUSY is set; a reserved operand changes nothing
(log 37). -/
def State.xlShoot (s : State) (o : Origin) (v : Word) : State :=
  match s.originPart o with
  | none => s
  | some p => match invalidation v with
    | .bad => s
    | i => (s.shoot p i).mapXl p fun x => { x with xlBusy := true }

/-- XL_SHOOT (R391). -/
def execXlShoot (o : Origin) (v : Word) (s : State) : Host.Outcome State Fault Refusal := .next (s.xlShoot o v)

/-- Whether a hardware walk from a root that is no longer in force still stands in a partition. -/
def State.oldWalk (s : State) (p : PartNo) : Bool :=
  (s.part p).tileList.any fun t =>
    let x := (s.tile t).xlat
    let old := fun (m : Option Miss) => match m with
      | some m => m.mode = 0 && m.root ≠ (s.part p).xl.root | none => false
    old x.streamMiss || old x.copyMiss

/-- An XL_SHOOT is done (R391): what walks begun before it may have filled since is dropped, and XL_BUSY reads 0; it waits
for walks from an old root. -/
def execXlShootDone (p : PartNo) (s : State) : Host.Outcome State Fault Refusal :=
  if (s.part p).xl.xlBusy && !s.oldWalk p then .next ((s.shoot p .all).mapXl p fun x => { x with xlBusy := false })
  else .next s

/-! ## Homes and migration (R397 to R402) -/

/-- The counters of a frame cleared. -/
def Frame.clearCounts (f : Frame) : Frame := { f with counts := vrep 12 0 }

/-- A migration that ends at once with a result (R400). -/
def State.migResult (s : State) (p : PartNo) (r : Nat) : State := s.mapXl p fun x => { x with migResult := r }

/-- The address of an entry of a die's free-frame ring (19 Table 19.6; log 32). -/
def Die.freeEntry (d : Die) (k : Nat) : Nat := d.freeBase + 8 * ((d.freeHead + k) % d.freeSlots)

/-- A frame joins the free ring of a die while it has room (R401, R404). -/
def State.pushFree (s : State) (d pa : Nat) : State :=
  let x := s.die d
  if x.freeCount < x.freeSlots then
    { s with mem := s.mem.put (x.freeEntry x.freeCount) (leBytes 8 pa) }.setDie d { x with freeCount := x.freeCount + 1 }
  else s

/-- The oldest frame of the free ring of a die (R401), read from its entry; none when the ring is empty, or its entry names no populated
frame (log 32). -/
def State.firstFree (s : State) (d : Nat) : Option Nat :=
  let x := s.die d
  let pa := s.mem.readLe (x.freeEntry 0) 8 / 2 ^ 16 * 2 ^ 16
  if x.freeCount = 0 ∨ !populated pa then none else some pa

/-- The oldest frame of the free ring of a die popped. -/
def State.popFree (s : State) (d : Nat) : State :=
  let x := s.die d
  s.setDie d { x with freeHead := (x.freeHead + 1) % x.freeSlots, freeCount := x.freeCount - 1 }

/-- A migration of a page to a die is tried (R400): the walk, the leaf's fitness, the die, a free frame; then it is
under way, and the frame popped. `old` is the frame that the trigger names; a MIG_CMD names none, so that the frame is the page's, and waits while the engine of the home die
works for another (R402; log 38). -/
def State.startMigration (s : State) (p : PartNo) (va dest : Nat) (old : Option Nat) : State :=
  let w := walk s.mem (s.part p).xl.root va
  match w.leaf with
  | none => (match old with | some pa => s.mapFrame pa Frame.clearCounts | none => s).migResult p 2
  | some (e, bits, at_) =>
    let pa := bitsNat e 47 16 * 2 ^ 16
    let frame := old.getD (pa + va % 2 ^ bits / 2 ^ 16 * 2 ^ 16)
    if bits ≠ 16 || leafHost e || e.getLsbD 6 || decide (frame ≠ pa) then
      (if old.isNone && leafHost e then s else s.mapFrame frame Frame.clearCounts).migResult p 2
    else if 12 ≤ dest ∨ !(s.part p).hasDie dest then s.migResult p 4
    else if (s.die (homeDie pa)).mig.isSome then
      (if old.isNone then s.mapXl p fun x => { x with migCmd := some (va, dest) } else s)
    else match s.firstFree dest with
      | none => s.migResult p 1
      | some new =>
        let m : Migration :=
          { part := p, va := va / 2 ^ 16 * 2 ^ 16, old := pa, new := new, leaf := e, leafAddr := at_, spoiled := false }
        let s1 := s.popFree dest
        s1.setDie (homeDie pa) { s1.die (homeDie pa) with mig := some m }

/-- The MIG_CMDs that wait are tried again once an engine is free (R402). -/
def State.retryMigrations (s : State) : State :=
  ((List.range 16).map (Fin.ofNat 16)).foldl (fun (st : State) (p : PartNo) => match (st.part p).xl.migCmd with
    | some (va, dest) => (st.mapXl p fun x => { x with migCmd := none }).startMigration p va dest none
    | none => st) s

/-- A kernel-class request counts at its frame, and may trigger a migration (R399, R400). -/
def State.countRequest (s : State) (p : PartNo) (d : Nat) (l : Loc) (va : Nat) : State :=
  if l.host then s
  else
    let s1 := s.mapFrame l.pa fun f => { f with counts := vset f.counts d (min 255 (vget f.counts d + 1)) }
    let f := (s1.die (homeDie l.pa)).frameOf l.frame
    let c := vget f.counts d
    let x := (s1.part p).xl
    if d ≠ homeDie l.pa ∧ x.migThresh ≠ 0 ∧ x.migThresh ≤ c ∧ x.migMode = 1 ∧ x.walkMode ≠ 1 ∧
        (s1.die (homeDie l.pa)).mig.isNone ∧ ((List.range 12).all fun k => k = d || decide (vget f.counts k < c)) then
      s1.startMigration p va d (some (l.pa / 2 ^ 16 * 2 ^ 16))
    else s1

/-- Whether a die is being reset, so that requests to its homes are held (R433). -/
def State.dieDown (s : State) (d : Nat) : Bool := (s.die d).down

/-- The place of a tile as a refusal's source, its request tag being a free value (log 36). -/
def State.refuse (s : State) (die : Nat) (t : TileNo) (detail pa : Nat) : State :=
  let (tag, s1) := s.fresh
  s1.logRefusal die (s1.place t) (tag.toNat % 4096) detail pa

/-- Whether a request is held on its way to a location, or there: while its frame moves (R312, R401), its home is reset (R433), or on the way
to host memory once the Gallery die is lost (R434). -/
def State.heldAt (s : State) (a : Access) (l : Loc) : Bool :=
  (decide (a ≠ .read) && s.migrating l) || (if l.host then s.gallery.lost else s.dieDown (homeDie l.pa))

/-- A request arrives at its home die (R397, R399, R401): held, refused, or let through with the translation that serves it (R390). -/
def execHomeDieRequest (t : TileNo) (id : Nat) (s : State) : Host.Outcome State Fault Refusal :=
  let x := s.tile t
  match x.askedOf id with
  | none => .next s
  | some a =>
    match x.locOf a with
    | none => .next s
    | some l =>
      if a.loc.isSome || a.fault.isSome || (x.denied a).isSome || s.heldAt a.req.access l then .next s
      else
        let pn := s.partOf t
        match s.homeCheck pn l (decide (a.req.access ≠ .read)) with
        | some d =>
          let s1 := s.setTile t (x.noteAsked id none (some (3, d)) false)
          .next ((s1.refuse (homeDie l.pa) t d l.pa).countRequest pn (dieOf t) l a.req.addr)
        | none => .next ((s.setTile t (x.noteAsked id (some l) none false)).countRequest pn (dieOf t) l a.req.addr)

/-- A write of MIG_CMD (R402): in host mode, while no migration of the partition is under way. -/
def State.migCmd (s : State) (o : Origin) (v : Word) : State :=
  match s.originPart o with
  | none => s
  | some p =>
    let x := (s.part p).xl
    if x.migMode ≠ 2 ∨ s.migBusy p then s else s.startMigration p (bitsNat v 56 16 * 2 ^ 16) (v.toNat / 2 ^ 60) none

/-- MIG_CMD (R402). -/
def execMigCmd (o : Origin) (v : Word) (s : State) : Host.Outcome State Fault Refusal := .next (s.migCmd o v)

/-- The counters of a die halved (R399), each of them, at the interval of the partition (log 38). -/
def execMigDecayHalving (p : PartNo) (d : DieNo) (s : State) : Host.Outcome State Fault Refusal :=
  if (s.part p).xl.migDecay = 0 then .next s
  else
    let die := s.die d.val
    .next (s.setDie d.val (die.frames.foldl (fun x (f : Frame) =>
      x.mapFrame f.frame fun g => { g with counts := vmk 12 fun k => vget g.counts k / 2 }) die)
      |>.mapXl p fun x => { x with decayed := vset x.decayed d.val s.ns })

/-- The bytes of a memory moved from one 64 KiB frame to another, word by word with their POISON (R401). -/
def Store.moveFrame (m : Store) (old new : Nat) : Store :=
  let inNew := fun (a : Nat) => decide (new ≤ a ∧ a < new + 2 ^ 16)
  let kept := m.bytes.filter fun c => !inNew c.1
  let src := m.bytes.filter fun c => decide (old ≤ c.1 ∧ c.1 < old + 2 ^ 16)
  let pk := m.poison.filter fun w => !inNew (8 * w)
  let pm := m.poison.filter fun w => decide (old ≤ 8 * w ∧ 8 * w < old + 2 ^ 16)
  { bytes := src.foldl (fun b c => writeCell b (c.1 - old + new) c.2) kept,
    poison := pm.foldl (fun b w => insertNat b (w - old / 8 + new / 8)) pk }

/-- A location in a frame that has moved. -/
def Loc.moved (l : Loc) (old new : Nat) : Loc := if !l.host && decide (l.pa / 2 ^ 16 * 2 ^ 16 = old) then { l with pa := new + l.pa % 2 ^ 16 } else l

/-- Whether a request is the page of an rsend's result, whose write is made at the Gallery die's word (R442). -/
def Tile.resultPage (t : Tile) (a : Asked) : Bool :=
  match (t.eng.active a.id).map fun (x : Active) => x.cmd.body with
  | some (.xfer x) => x.isRsend && a.req.access = .write
  | _ => false

/-- The requests of a tile to a frame that has moved are forwarded to its new home with the translation that serves them, and checked there;
the pages of a result follow the frame (R390, R401). -/
def State.forward (old new : Nat) (s : State) (t : TileNo) : State :=
  let x := s.tile t
  let pn := s.partOf t
  let queue := x.eng.queue.map fun (a : Active) => { a with locs := a.locs.map fun p => (p.1.moved old new, p.2) }
  let s0 := s.setTile t { x with eng := { x.eng with queue := queue } }
  (x.asked.filter fun a => a.fault.isNone && (x.denied a).isNone && !x.resultPage a).foldl (fun (st : State) a => match x.locOf a with
    | none => st
    | some l =>
      let l1 := l.moved old new
      if l1 = l then st
      else match st.homeCheck pn l1 (decide (a.req.access ≠ .read)) with
        | some d => (st.setTile t ((st.tile t).noteAsked a.id none (some (3, d)) false)).refuse (homeDie l1.pa) t d l1.pa
        | none => st.setTile t ((st.tile t).noteAsked a.id (some l1) none a.reported)) s0

/-- The contributions on their way and in groups follow a frame that has moved. -/
def Gallery.moved (g : Gallery) (old new : Nat) : Gallery :=
  let f := fun (c : Contribution) => { c with at_ := c.at_.map fun p => (p.1.moved old new, p.2) }
  { g with contributions := g.contributions.map f,
           groups := g.groups.map fun (x : Group) => { x with open_ := x.open_.map f, held := x.held.map f } }

/-- The payload of an rsend has performed, unless a write of it is still held (R312, R314). -/
def State.waiterDone (s : State) (w : TileNo × Nat) : State :=
  if s.heldWrites.any fun h => h.waiters.contains w then s
  else s.setTile w.1 ((s.tile w.1).mapActive w.2 fun a => if a.sent then { a with done := true } else a)

/-- A home refuses a held write (R397): the rsends whose payload it is have the fault, as at a round's close (R443). -/
def State.refuseHeld (s : State) (h : HeldWrite) (l : Loc) (d : Nat) : State :=
  let s1 := match h.waiters with | (t, _) :: _ => s.refuse (homeDie l.pa) t d l.pa | [] => s.refuseHw l d
  h.waiters.foldl (fun (st : State) w => st.setTile w.1 (((st.tile w.1).mapActive w.2 fun a =>
    { a with sent := false, wr := 0, locs := [] }).noteAsked w.2 none (some (3, d)) false)) s1

/-- A held write goes on at its frame's place: checked by the home there, but for the host's, and held again where that frame moves too. -/
def State.releaseWrite (old new : Nat) (s : State) (h : HeldWrite) : State :=
  let l := h.loc.moved old new
  match h.part.bind fun p => s.homeCheck p l true with
  | some d => s.refuseHeld h l d
  | none => s.writeHeld h.part l h.bytes h.waiters

/-- The held writes that no tile's request makes go on (R401), and the rsends whose payload has performed complete. -/
def State.releaseWrites (s : State) (old new : Nat) : State :=
  ((s.heldWrites.map HeldWrite.waiters).flatten.eraseDups).foldl State.waiterDone
    (s.heldWrites.foldl (State.releaseWrite old new) { s with heldWrites := [] })

/-- The migration at the acting tile's die completes (R401): the frame is copied and the leaf exchanged, or the copy is
discarded where the leaf or the frame has changed. -/
def execMigrationComplete (s : State) : Host.Outcome State Fault Refusal :=
  match (s.die s.myDie).mig with
  | none => .next s
  | some m =>
    let s1 := s.setDie s.myDie { s.die s.myDie with mig := none }
    let dest := homeDie m.new
    if m.spoiled || word (s.mem.readLe m.leafAddr 8) ≠ m.leaf then
      .next (((s1.pushFree dest m.new).releaseWrites m.old m.old).migResult m.part 3).retryMigrations
    else
      let e := word (m.leaf.toNat - bitsNat m.leaf 47 16 * 2 ^ 16 + m.new)
      let f := (s1.die s.myDie).frameOf (m.old % 2 ^ 44 / 2 ^ 16)
      let s2 := { s1 with mem := (s1.mem.moveFrame m.old m.new).put m.leafAddr (leBytes 8 e.toNat) }
      let s3 := s2.mapFrame m.new fun g => { g with owner := f.owner, wp := f.wp }
      let s4 := s3.mapFrame m.old fun g => { (g.clearCounts) with owner := 0x10 }
      let s5 := s4.pushFree s.myDie m.old
      let s6 := ((s5.part m.part).tileList.foldl (State.forward m.old m.new) s5).shoot m.part (.page m.va)
      let s7 := { s6 with gallery := s6.gallery.moved m.old m.new }.releaseWrites m.old m.new
      .next (s7.mapXl m.part fun x => { x with migResult := 0, migCount := x.migCount + 1 }).retryMigrations

/-- A write of FRAME_SET (R397, R404): owner and WP of consecutive frames of a die; an unassigned owner, or a frame of another die,
changes nothing. -/
def State.frameSet (s : State) (d : Nat) (v : Word) : State :=
  let owner := bitsNat v 8 4
  let pa := bitsNat v 47 16 * 2 ^ 16
  if 0x10 < owner ∨ homeDie pa ≠ d then s
  else
    let first := pa % 2 ^ 44 / 2 ^ 16
    (List.range (v.toNat / 2 ^ 48 + 1)).foldl (fun st k =>
      if populated (pa + k * 2 ^ 16) then
        st.setDie d ((st.die d).mapFrame (first + k) fun f => { f with owner := owner, wp := v.getLsbD 0 })
      else st) s

/-- FRAME_SET (R397, R404). -/
def execFrameSet (d : DieNo) (v : Word) (s : State) : Host.Outcome State Fault Refusal :=
  .next (if s.hostUp then s.frameSet d.val v else s)

/-- A write of FREE_PUSH (R404): a frame joins the die's free ring; ignored when it is full, or for a frame of another die. -/
def State.freePush (s : State) (d : Nat) (v : Word) : State :=
  let pa := bitsNat v 47 16 * 2 ^ 16
  if homeDie pa ≠ d ∨ !populated pa then s else s.pushFree d pa

/-- FREE_PUSH (R404). -/
def execFreePush (d : DieNo) (v : Word) (s : State) : Host.Outcome State Fault Refusal :=
  .next (if s.hostUp then s.freePush d.val v else s)

/-- REFUSE_LOG as a read returns it (19 Table 19.6). -/
def Die.refuseWord (d : Die) : Word :=
  match d.refusals with
  | [] => word (b2n d.refuseLost * 2 ^ 62)
  | r :: _ => word (2 ^ 63 + b2n d.refuseLost * 2 ^ 62 + r.1.toNat * 2 ^ 32 + r.2.1 % 4096 * 2 ^ 16 + r.2.2.1 % 16)

/-- The host reads REFUSE_LOG of the acting tile's die: the read pops the oldest entry (R404). -/
def execRefuseLog (s : State) : Host.Outcome State Fault Refusal :=
  let d := s.die s.myDie
  let s1 := { s with hostData := leBytes 8 d.refuseWord.toNat }
  if !s.hostUp then .next s
  else .next (s1.setDie s.myDie { d with
    refusals := d.refusals.tail, refuseLost := false,
    refusePa := match d.refusals with | r :: _ => r.2.2.2 | [] => d.refusePa })

end Sys2Proof.Machine
end

