-- ==== Sys2Proof/Machine/Pool.lean ====
section
/-! DEFINITION. The pool of launches (chapter 18): records and images with their checks, work identifiers, gate semaphores,
admission, the end of runs, gangs and launches, and the error ring and containment (chapter 20). -/
namespace Sys2Proof.Machine

/-! ## Records and images (R38 to R44, R153, R361 to R363) -/

/-- A little-endian number among bytes. -/
def leAt (bs : List Byte) (off n : Nat) : Nat := leNat ((bs.drop off).take n)

/-- A gate word: tile, index, count (18 Table 18.1). -/
def gateOf (w : Nat) : Nat × Nat × Nat := (w / 2 ^ 16 % 2 ^ 11, w % 16, w / 2 ^ 32)

/-- A launch record from its 0x140 bytes (18 Table 18.1). -/
def recordOf (bs : List Byte) : LaunchRec :=
  let c := leAt bs 8 8
  let w := leAt bs 0x10 8
  let f := c / 2 ^ 28 % 8
  let ngate := c / 2 ^ 12 % 8
  let nstage := c / 2 ^ 16 % 8
  { image := leAt bs 0 8 % 2 ^ 57, dieMask := BitVec.ofNat 12 (c / 2 ^ 36), prio := c / 2 ^ 32 % 8, f := f,
    s := c / 2 ^ 24 % 8, g := c / 2 ^ 20 % 8, nstage := nstage, ngate := ngate, doneEn := c.testBit 1, recEn := c.testBit 0,
    widths := (List.range f).map fun k => w / 2 ^ (7 * k) % 2 ^ 7,
    extents := (List.range f).map fun k => leAt bs (0x18 + 8 * k) 8,
    mailbox := vmk 16 fun k => word (leAt bs (0x48 + 8 * k) 8),
    gates := (List.range (min ngate 4)).map fun j => gateOf (leAt bs (0xC8 + 8 * j) 8),
    doneSig := gateOf (leAt bs 0xE8 8), recAddr := leAt bs 0xF0 8 % 2 ^ 57,
    tag := BitVec.ofNat 32 (leAt bs 0xFC 4), slice := leAt bs 0xF8 2,
    stages := (List.range (min nstage 4)).map fun j =>
      (leAt bs (0x100 + 16 * j) 8 % 2 ^ 57, leAt bs (0x108 + 16 * j) 8 / 2 ^ 32 % 2 ^ 24, leAt bs (0x108 + 16 * j) 8 % 2 ^ 24) }

/-- The first of codes 0x10 to 0x16 that a record meets (R362, R363; 18 Table 18.2); a child's reserved fields were checked
at issue, and its DIE_MASK may be 0. -/
def recordCode (bs : List Byte) (child : Bool) : Option Nat :=
  let r := recordOf bs
  let reserved := launchReserved.any fun p => decide (leAt bs p.1 8 &&& p.2 ≠ 0)
  let rest :=
    ((List.range 6).any fun k => decide (r.f ≤ k) &&
      (decide (leAt bs 0x10 8 / 2 ^ (7 * k) % 2 ^ 7 ≠ 0) || decide (leAt bs (0x18 + 8 * k) 8 ≠ 0))) ||
    ((List.range 4).any fun j => decide (r.ngate ≤ j) && decide (leAt bs (0xC8 + 8 * j) 8 ≠ 0)) ||
    ((List.range 4).any fun j => decide (r.nstage ≤ j) &&
      (decide (leAt bs (0x100 + 16 * j) 8 ≠ 0) || decide (leAt bs (0x108 + 16 * j) 8 ≠ 0))) ||
    (!r.doneEn && decide (leAt bs 0xE8 8 ≠ 0)) || (!r.recEn && decide (leAt bs 0xF0 8 ≠ 0))
  if !child && reserved then some 0x10
  else if r.f = 0 ∨ r.f = 7 ∨ r.s = 7 ∨ r.g = 7 ∨ 4 < r.nstage ∨ 4 < r.ngate then some 0x11
  else if r.widths.contains 0 || rest then some 0x12
  else if 64 < r.widths.foldl (· + ·) 0 then some 0x13
  else if (List.range r.f).any fun k => decide (2 ^ r.widths.getD k 0 < r.extents.getD k 0) then some 0x14
  else if r.g < r.s ∨ r.f < r.g then some 0x15
  else if !child && r.dieMask = 0 then some 0x16
  else none

/-- A kernel image header from its 64 bytes (06 Table 6.3). -/
def imageOf (bs : List Byte) : Image :=
  let w := leAt bs 0x18 4
  { codeOff := leAt bs 8 4, codeLen := leAt bs 0xC 4, entry := leAt bs 0x10 4, scratch := leAt bs 0x14 4,
    coverage := w / 2 ^ 24 % 4, nsems := w / 2 ^ 16 % 128, nshapes := w / 2 ^ 12 % 16, nstreams := w / 2 ^ 8 % 16,
    nregs := w % 64, segMax := leAt bs 0x1E 2, safeDist := leAt bs 0x1C 2, bodyLen := leAt bs 0x20 4,
    kernelId := word (leAt bs 0x28 8) }

/-- The first image check that fails (R153; 06 Table 6.4). -/
def imageCode (addr : Nat) (bs : List Byte) (minCoverage : Nat) : Option Nat :=
  let i := imageOf bs
  let w := leAt bs 0x18 4
  if addr % 64 ≠ 0 ∨ leAt bs 0 4 ≠ 0x4F454843 then some 1
  else if leAt bs 4 2 ≠ 1 then some 2
  else if leAt bs 6 2 ≠ 0 ∨ w / 2 ^ 26 ≠ 0 ∨ w.testBit 23 ∨ w / 64 % 4 ≠ 0 ∨ leAt bs 0x24 4 ≠ 0 ∨ leAt bs 0x30 16 ≠ 0 then some 3
  else if i.nregs = 0 ∨ 32 < i.nregs ∨ 8 < i.nstreams ∨ 8 < i.nshapes ∨ 64 < i.nsems then some 4
  else if 0x5F0000 < i.scratch ∨ i.scratch % 64 ≠ 0 ∨ i.bodyLen % 64 ≠ 0 ∨ i.scratch < i.bodyLen then some 5
  else if i.codeOff % 64 ≠ 0 ∨ i.codeLen < 8 ∨ i.codeLen % 4 ≠ 0 ∨ i.bodyLen < i.codeOff + i.codeLen then some 6
  else if i.entry % 4 ≠ 0 ∨ i.entry < i.codeOff ∨ i.codeOff + i.codeLen ≤ i.entry then some 7
  else if i.safeDist = 0 ∨ i.segMax = 0 ∨ 4096 < i.segMax then some 8
  else if i.coverage < minCoverage then some 9
  else none

/-- The product of extents of fields `lo` to `hi - 1`. -/
def LaunchRec.prod (r : LaunchRec) (lo hi : Nat) : Nat := ((r.extents.take hi).drop lo).foldl (· * ·) 1

/-- Work items, gangs, tiles of a gang, items of a run (R40). -/
def LaunchRec.items (r : LaunchRec) : Nat := r.prod 0 r.f
def LaunchRec.gangCount (r : LaunchRec) : Nat := r.prod r.g r.f
def LaunchRec.gangTiles (r : LaunchRec) : Nat := r.prod r.s r.g
def LaunchRec.runItems (r : LaunchRec) : Nat := r.prod 0 r.s

/-- The fields' part of a WID: the digits of a number by extents, at their bit positions (R38, R41, R44). -/
def widDigits : List (Nat × Nat) → Nat → Nat → Nat
  | [], _, _ => 0
  | (w, e) :: rest, pos, x => (if e = 0 then 0 else x % e) * 2 ^ pos + widDigits rest (pos + w) (if e = 0 then 0 else x / e)

/-- The WID of an item of a run: gang, rank and item in ascending value of their fields (R41, R44). -/
def LaunchRec.wid (r : LaunchRec) (gang rank item : Nat) : Word :=
  let fields := r.widths.zip r.extents
  let bits := fun (k : Nat) => (r.widths.take k).foldl (· + ·) 0
  word (widDigits (fields.take r.s) 0 item + widDigits ((fields.take r.g).drop r.s) (bits r.s) rank +
    widDigits (fields.drop r.g) (bits r.g) gang)

/-- The number that digits at given widths and extents make: the inverse of `widDigits`. -/
def digitsWid : List (Nat × Nat) → Nat → Nat
  | [], _ => 0
  | (w, e) :: rest, x => x % 2 ^ w + e * digitsWid rest (x / 2 ^ w)

/-- The item of a run that a WID names (R41, R44). -/
def LaunchRec.itemOf (r : LaunchRec) (wid : Word) : Nat := digitsWid ((r.widths.zip r.extents).take r.s) wid.toNat

/-! ## Tiles that take runs -/

/-- Whether a tile was enabled at shipment (20 Table 20.2). -/
def State.shipped (s : State) (t : TileNo) : Bool := decide ((s.tile t).margin.state ≠ 1) && !((s.tile t).margin.state = 5 && (s.tile t).margin.before = 1)

/-- Whether a tile is enabled and not excluded (R41, R410, R472; 24 Table 24.1). In step 7 of boot a tile whose return is pending takes the
march, which decides its return (log 86). -/
def State.usable (s : State) (t : TileNo) : Bool :=
  (decide ((s.tile t).margin.state = 0) || (decide ((s.tile t).margin.state = 5) && !s.boot.marches.isEmpty)) &&
    !s.boot.excluded.getLsbD t.val

/-- The tile set of a launch (R41). -/
def State.tileSet (s : State) (p : PartNo) (mask : BitVec 12) : List TileNo :=
  (s.part p).tileList.filter fun t => mask.getLsbD (dieOf t) && s.usable t

/-- Whether a tile is idle (R355, R370, R376). -/
def Tile.idle (t : Tile) : Bool := t.run.isNone && !t.priv.active && t.priv.ectl.isEmpty && !t.priv.parked

/-! ## Gate semaphores (R364, R365) -/

/-- A gate semaphore. -/
def State.gate (s : State) (tile idx : Nat) : BitVec 32 := vget (vget (s.die (tile / 96)).gates (tile % 96)) idx

/-- Set a gate semaphore. -/
def State.setGate (s : State) (tile idx : Nat) (v : BitVec 32) : State :=
  let d := s.die (tile / 96)
  s.setDie (tile / 96) { d with gates := vset d.gates (tile % 96) (vset (vget d.gates (tile % 96)) idx v) }

/-- Raise a gate semaphore; it stays at 0xFFFF_FFFF (R364). -/
def State.raiseGate (s : State) (g : Nat × Nat × Nat) : State :=
  s.setGate g.1 g.2.1 (BitVec.ofNat 32 (min 0xFFFFFFFF ((s.gate g.1 g.2.1).toNat + g.2.2)))

/-- Whether a tile may be named as a gate's in a partition (R364, R363 code 0x19). -/
def State.gateTile (s : State) (p : PartNo) (tile : Nat) : Bool :=
  decide (tile < 1152) && (s.part p).tiles.getLsbD tile && s.shipped (tileNo tile)

/-! ## Containment and the error ring (R413, R431, R432) -/

/-- One 64-byte entry of the error ring (20 Table 20.8). -/
structure ErrEntry where
  part : PartNo
  place : Nat
  cls : Nat
  verdict : Nat
  cause : Nat
  unit : Nat
  kernelId : Word
  workId : Word
  addr : Nat
  cycle : Nat
  detail : Nat
  tag : Nat
  rewinds : Nat
  deriving DecidableEq, Repr, Inhabited

/-- An entry joins the error ring, or is counted as dropped (R432). -/
def State.errEntry (s : State) (e : ErrEntry) : State :=
  let p := s.part e.part
  let r := p.rings
  if !p.created then s
  else if r.errSlots ≤ (r.errHead - r.errTail).toNat then
    s.setPart e.part { p with rings := { r with errDrops := r.errDrops + 1 } }
  else
    let bs := leBytes 8 (e.place * 2 ^ 48 + e.cls * 2 ^ 40 + e.verdict * 2 ^ 32 + e.cause * 2 ^ 24 + e.unit * 2 ^ 16) ++
      leBytes 8 s.masterNow ++ leBytes 8 e.kernelId.toNat ++ leBytes 8 e.workId.toNat ++
      leBytes 8 (e.addr % 2 ^ 32 * 2 ^ 32 + e.cycle % 2 ^ 32) ++ leBytes 8 e.detail ++
      leBytes 8 (e.tag * 2 ^ 32 + e.rewinds % 2 ^ 32) ++ leBytes 8 0
    let s1 := s.privWrite e.part (r.errBase + 64 * (r.errHead.toNat % r.errSlots)) (validBytes bs)
    s1.setPart e.part { s1.part e.part with rings := { (s1.part e.part).rings with errHead := r.errHead + 1 } }

/-- An entry about a tile and its run (R432). -/
def State.tileEntry (s : State) (tn : TileNo) (cls verdict cause unit addr cycle detail : Nat) : State :=
  let t := s.tile tn
  s.errEntry
    { part := s.partOf tn, place := (s.place tn).toNat, cls := cls, verdict := verdict, cause := cause, unit := unit,
      kernelId := (t.run.map fun (r : Run) => r.img.kernelId).getD 0, workId := (t.run.map Run.wid).getD 0, addr := addr,
      cycle := cycle, detail := detail, tag := (t.run.map fun (r : Run) => r.tag.toNat).getD 0, rewinds := t.seg.rewinds }

/-! ## The end of runs, gangs and launches (R359, R375, R376, R384) -/

/-- The voltage of fixed mode at a clock (R405, R425): the tile's curve, plus the guard band. -/
def Margin.fixedMv (m : Margin) (mhz : Nat) : Nat := Config.curveMv m.curve mhz + Config.guardBand

/-- A voltage of reclaim mode: between the tile's NV floor and the die's ceiling (20 Table 20.1, R408). -/
def Margin.reclaimMv (m : Margin) (ceil mv : Nat) : Nat := max m.floor (min ceil mv)

/-- The drift history takes in a movement of the floor or the curve (R408, R411). -/
def Margin.drifted (m old : Margin) (ns : Nat) : Margin :=
  if m.floor = old.floor ∧ m.curve = old.curve then m
  else { m with drift := m.drift ++ [(ns, m.floor, Config.curveMv m.curve m.mhz)] }

/-- The mode and setpoint of a tile's partition come into force, and an exclusion put off takes effect, when the tile is
idle (R407, R410); a die without its NV tables stays in fixed mode (R411). A tile that enters reclaim mode starts from the voltage it has, brought into the
mode's range (Table 20.1; log 9). -/
def State.onIdle (s : State) (tn : TileNo) : State :=
  let t := s.tile tn
  if !t.idle then s else
  let p := s.part (s.partOf tn)
  let mode : BitVec 2 := if (s.die (dieOf tn)).nvFallback then 1 else p.modeSet
  let mhz := match mode.toNat with | 0 => 1500 | 1 => p.fixedMhz | _ => t.margin.mhz
  let mv := match mode.toNat with
    | 0 => t.margin.reclaimMv (Config.ceilMv (dieOf tn)) t.margin.mv
    | 1 => t.margin.fixedMv mhz
    | _ => t.margin.mv
  let m := if p.created then { t.margin with mode := mode, mhz := mhz, mv := mv } else t.margin
  s.setTile tn { t with margin := { m with state := if m.state = 4 then 2 else m.state } }

/-- The governor finds a tile beyond recovery (R410, class 8): it is excluded when it is next idle. -/
def State.excludeSoon (s : State) (tn : TileNo) : State :=
  let t := s.tile tn
  if t.margin.state ≠ 0 then s
  else
    ((s.setTile tn { t with margin := { t.margin with state := 4 } }).tileEntry tn 8 0 0 0 0 0 0).onIdle tn

/-- A run on a tile ends without completing (R359): commands, held effects and outstanding work are discarded, and neither
context nor debug stop remains; a standing miss stays until it is served (R393). -/
def State.endRun (s : State) (tn : TileNo) : State :=
  let t := s.tile tn
  let t1 : Tile :=
    { t with
      run := none, streams := Streams.start t.streams.next [], eng := { lag := [], held := [], released := [], queue := [], next := t.eng.next },
      mx := Matrix.start t.mx.acc,
      seg := { Segment.reset with rewinds := t.seg.rewinds, lastVerdict := t.seg.lastVerdict, lastCause := t.seg.lastCause,
                                  lastUnit := t.seg.lastUnit, number := t.seg.number + 1 },
      priv := { t.priv with ctxState := 0b11, after := [], async := [], saving := none, waitSem := none, wdogNs := 0,
                            ef := { t.priv.ef with standing := false } },
      checker := none,
      survey := { t.survey with waits := Waits.none },
      dbg := { t.dbg with stopKind := 0, askStop := false, askHalt := false, single := false, skip := false, brkCode := none },
      dfr := if t.priv.active then t.dfr else Deferred.none }
  (s.setTile tn t1).onIdle tn

/-- The standing misses of a tile are lost with its engines (R433): no record of them awaits an answer. -/
def State.dropMisses (s : State) (tn : TileNo) : State :=
  let t := s.tile tn
  let told := fun (m : Option Miss) => match m with | some m => b2n m.raised | none => 0
  let n := told t.xlat.streamMiss + told t.xlat.copyMiss
  let p := s.part (s.partOf tn)
  (s.setTile tn { t with xlat := { t.xlat with streamMiss := none, copyMiss := none } }).setPart (s.partOf tn)
    { p with xl := { p.xl with missStanding := p.xl.missStanding - n } }

/-- A context slot of a partition becomes free. -/
def State.freeSlot (s : State) (p : PartNo) (slot : Nat) : State :=
  s.setPart p { s.part p with ctxUsed := removeNat (s.part p).ctxUsed slot }

/-- Whether nothing of a rank stands on a tile or is on its way any more. -/
def RankPlace.over_ : RankPlace → Bool
  | .ended _ | .gone _ | .lost => true
  | _ => false

/-- Whether a rank's run is killed only at its next boundary (R346, R359): a handler runs on its tile, and the kill names the tile neither as
one whose run ends at once (`now`) nor as one whose context stays (`keep`). -/
def State.killsLater (s : State) (id gang : Nat) (now : TileNo → Bool) (keep : Option TileNo) (r : RankPlace) : Bool :=
  match r with
  | .onTile t | .saving t _ | .restoring t _ =>
    let x := s.tile t
    x.priv.active && !x.priv.parked && !now t && keep ≠ some t &&
      (match x.run with | some y => decide (y.launch = id ∧ y.gang = gang) | none => false)
  | _ => false

/-- A rank's run ends as killed: on its tile, or saved, or being restored; one whose tile's handler runs is marked, and ends with it. -/
def State.killRank (s : State) (p : PartNo) (id gang : Nat) (now : TileNo → Bool) (keep : Option TileNo) (r : RankPlace) : State :=
  let off := fun (s : State) (t : TileNo) =>
    match (s.tile t).run with
    | some x => if x.launch = id ∧ x.gang = gang ∧ keep ≠ some t then s.endRun t else s
    | none => s
  if s.killsLater id gang now keep r then
    match r.tile with
    | some t => s.setTile t { s.tile t with run := (s.tile t).run.map fun (x : Run) => { x with killed := true } }
    | none => s
  else match r with
    | .onTile t => off s t
    | .saving t slot => off (s.freeSlot p slot) t
    | .saved slot => s.freeSlot p slot
    | .restoring t slot => off (s.freeSlot p slot) t
    | .ended _ | .gone _ | .lost => s

/-- What is left of a gang whose ranks end: nothing, once none stands any more. -/
def Launch.dropOver (l : Launch) : Launch :=
  { l with gangs := l.gangs.filter fun (g : Gang) => !g.ranks.all RankPlace.over_ }

/-- A gang of a launch ends as killed (R359). -/
def State.killGang (s : State) (id : Nat) (gang : Nat) (now : TileNo → Bool) (keep : Option TileNo) : State :=
  match s.launch id with
  | none => s
  | some l =>
    let left := fun (r : RankPlace) =>
      if s.killsLater id gang now keep r then r else match r with
        | .ended t => .ended t
        | r => (r.tile.map RankPlace.gone).getD RankPlace.lost
    let gs := l.gangs.filter fun (g : Gang) => g.index = gang
    let s1 := gs.foldl (fun st (g : Gang) => g.ranks.foldl (fun st r => st.killRank l.part id gang now keep r) st) s
    s1.mapLaunch id fun l => Launch.dropOver { l with gangs := l.gangs.map fun (g : Gang) =>
      if g.index = gang then { g with ranks := g.ranks.map left } else g }

/-- A run that was killed while its tile's handler ran ends at its boundary (R346, R359). -/
def State.killedEnds (s : State) (tn : TileNo) : State :=
  match (s.tile tn).run with
  | none => s
  | some r =>
    let place := (s.launch r.launch).bind fun (l : Launch) => (l.gangs.find? fun (g : Gang) => g.index = r.gang).bind fun g => g.ranks[r.rank]?
    let s1 := match place with
      | some (.saving _ slot) | some (.restoring _ slot) | some (.saved slot) => s.freeSlot r.part slot
      | _ => s
    (s1.endRun tn).mapLaunch r.launch fun l => Launch.dropOver { l with gangs := l.gangs.map fun (g : Gang) =>
      if g.index = r.gang then { g with ranks := g.ranks.set r.rank (.gone tn) } else g }

/-- A launch is to end early: no further gang is placed; the first ending stands (R375). -/
def State.setEnding (s : State) (id : Nat) (e : Ending) : State :=
  s.mapLaunch id fun l => { l with ending := l.ending.or (some e) }

/-- The work-item boundary (R413): the run on a tile and its gang end as killed, and the launch places no further gang. -/
def State.killItem (s : State) (tn : TileNo) (e : Ending) (keep : Bool) : State :=
  match (s.tile tn).run with
  | none => s
  | some r => (s.setEnding r.launch e).killGang r.launch r.gang (fun t => t = tn) (if keep then some tn else none)

/-- The kernel boundary (R413, R375): every resident or saved gang of the launch ends as killed. -/
def State.killLaunch (s : State) (id : Nat) (e : Ending) (now : TileNo → Bool) : State :=
  match s.launch id with
  | none => s
  | some l => l.gangs.foldl (fun st (g : Gang) => st.killGang id g.index now none) (s.setEnding id e)

/-- A launch killed by containment. -/
def contained (cause unit place : Nat) : Ending :=
  { status := 3, code := 0, killCode := 0, cause := cause, unitKind := unit, unitPlace := place }

/-- A tile is quarantined at once (R429, R430). -/
def State.quarantine (s : State) (tn : TileNo) : State :=
  let t := s.tile tn
  s.setTile tn { t with margin := { t.margin with state := 3 } }

/-- A handler fault's containment (R360, class 7): an error entry, and the launch of the run on the tile ends. The tile
stays parked with its context. -/
def State.handlerContained (s : State) (tn : TileNo) : State :=
  let e := contained 6 0 (s.place tn).toNat
  (s.tileEntry tn 7 0 6 0 0 0 0).killItem tn e true

/-! ## Admission (R363, R366 to R369, R447) -/

/-- The slice of a record as raised (R379): at least the minimum slice where it is not zero. -/
def raisedSlice (slice scratch : Nat) : Nat × Bool :=
  let min_ := (2 * (2000 + scratch / 64) + 3200 + 1023) / 1024
  if slice = 0 ∨ min_ < slice then (slice, false) else (min_, true)

/-- The entries of a die's pool that are taken. -/
def State.poolUsed (s : State) (d : Nat) : Nat := (s.launches.filter fun (l : Launch) => l.die.val = d && l.pooled).length

/-- The free entries of a die's pool (R367). -/
def State.poolFree (s : State) (d : Nat) : Nat := 512 - s.poolUsed d

/-- The refusal that a record's image, tile set, gates and staging copies give (R363). -/
def State.laterCode (s : State) (p : PartNo) (r : LaunchRec) (img : List Byte) : Option Nat :=
  let i := imageOf img
  let set := s.tileSet p r.dieMask
  match imageCode r.image img (s.part p).minCoverage.toNat with
  | some c => some c
  | none =>
    if set.isEmpty then some 0x17
    else if set.length < r.gangTiles then some 0x18
    else if (r.gates.any fun g => !s.gateTile p g.1) || (r.doneEn && !s.gateTile p r.doneSig.1) then some 0x19
    else if r.stages.any fun st =>
        decide (st.2.1 = 0) || decide (0x5F0000 < st.2.1) || decide (i.scratch < st.2.2 + st.2.1) ||
          (decide (st.2.2 < i.codeOff + i.codeLen) && decide (i.codeOff < st.2.2 + st.2.1)) then some 0x1A
    else none

/-- A launch enters the pool of a die (R363, R367, R372). -/
def State.enterPool (s : State) (die : Nat) (p : PartNo) (child : Option TileNo) (sumped : Bool) (bs : List Byte) : State :=
  let r0 := recordOf bs
  let r := if child.isSome ∧ r0.dieMask = 0 then { r0 with dieMask := 1 <<< (child.map dieOf).getD 0 } else r0
  let early := recordCode bs child.isSome
  let img := s.privBytes p r.image 64
  let empty := decide (r.items = 0)
  let code := match early with | some c => some c | none => if empty then none else s.laterCode p r img
  let good := early.isNone && !empty && (imageCode r.image img (s.part p).minCoverage.toNat).isNone
  let sl := raisedSlice r.slice (imageOf img).scratch
  let l : Launch :=
    { id := s.nextLaunch, die := Fin.ofNat 12 die, part := p, record := if good then { r with slice := sl.1 } else r,
      img := if early.isNone && !empty then some (imageOf img) else none, order := s.order,
      eligible := code.isNone && !empty && r.gates.all fun g => decide (g.2.2 = 0), gate := none, nextGang := 0, gangs := [],
      items := r.items, itemsDone := 0, ending := match code with
        | some c => some { status := 1, code := c, killCode := 0, cause := 0, unitKind := 0, unitPlace := 0 }
        | none => if empty then some { status := 0, code := 0, killCode := 0, cause := 0, unitKind := 0, unitPlace := 0 } else none,
      pooled := true, heldPreempt := false, preempts := 0, sumped := sumped, raised := good && sl.2,
      accept := s.masterNow, start := 0, dirty := [], hashed := false, divHeld := false }
  let s1 := if early.isNone && !empty then s.noteRead p r.image 64 else s
  { s1 with launches := s.launches ++ [l], nextLaunch := s.nextLaunch + 1, order := s.order + 1 }

/-- A child that ends without entering the pool: refused because the sump is full (R368), or removed from it (R384). It has its completion
record, and takes no pool entry's place among launches that place work. -/
def State.childEnds (s : State) (die : Nat) (c : Child) (e : Ending) : State :=
  let r := recordOf c.record
  let l : Launch :=
    { id := s.nextLaunch, die := Fin.ofNat 12 die, part := c.part, record := r, img := none, order := s.order,
      eligible := false, gate := none, nextGang := 0, gangs := [], items := 0, itemsDone := 0, ending := some e, pooled := false, heldPreempt := false, preempts := 0, sumped := false, raised := false,
      accept := s.masterNow, start := 0, dirty := [], hashed := false, divHeld := false }
  { s with launches := s.launches ++ [l], nextLaunch := s.nextLaunch + 1, order := s.order + 1 }

/-- A child refused because the sump is full (R368). -/
def State.refuseChild (s : State) (die : Nat) (c : Child) : State :=
  s.childEnds die c { status := 1, code := 0x1B, killCode := 0, cause := 0, unitKind := 0, unitPlace := 0 }

/-- Whether a die's sump stands in host memory (R447). -/
def State.hostSumped (s : State) (d : Nat) : Bool := s.gallery.sumpHost.getLsbD d

/-- A child whose segment commits (R368, R447): into the pool, the sump, the host's sump, or refused. A sump's record stands at
its device physical address, its bookkeeping not (log 47). -/
def State.admitChild (s : State) (d : Nat) (c : Child) : State :=
  let die := s.die d
  let host := s.hostSumped d
  if (host || die.sump.isEmpty) && decide (32 < s.poolFree d) then s.enterPool d c.part (some c.tile) false c.record
  else if host then
    if die.sumpSlots ≤ die.hostSump.length then s.refuseChild d c
    else
      let a := die.sumpBase + 0x180 * (die.hostSumpTail % die.sumpSlots)
      let s1 := { s with hostMem := s.hostMem.put a c.record }
      s1.setDie d { die with hostSump := die.hostSump ++ [c.part], hostSumpTail := die.hostSumpTail + 1 }
  else if die.sumpSlots ≤ die.sump.length then s.refuseChild d c
  else
    let a := die.sumpBase + 0x180 * (die.hostSumpTail % die.sumpSlots)
    let s1 := if populated a then { s with mem := s.mem.put a c.record } else s
    s1.setDie d { die with sump := die.sump ++ [c], hostSumpTail := die.hostSumpTail + 1 }

/-! ## Partitions (R364, R370) -/

/-- The gate semaphores of the tiles of a set are zero (R364). -/
def State.zeroGates (s : State) (tiles : BitVec 1152) : State :=
  s.mapDies fun d x => { x with gates := vmk 96 fun k => if tiles.getLsbD (d * 96 + k) then vrep 16 0 else vget x.gates k }

/-- A partition with its tiles, its registers at reset and its cursors at its lowest tile (R364, R370, R440). -/
def Part.withTiles (tiles : BitVec 1152) : Part :=
  let lowest := ((List.range 1152).find? fun k => tiles.getLsbD k).getD 0
  { Part.reset with created := true, tiles := tiles, cursors := vrep 8 lowest }

end Sys2Proof.Machine
end

