-- ==== Sys2Proof/Machine/Segment.lean ====
section
/-! DEFINITION. Segments (chapter 20, R418 to R430): what a commit releases and publishes, the checkpoint, rewinds and verdicts;
the trace ring. -/
namespace Sys2Proof.Machine

/-! ## Release (R268, R270, R276, R284, R287, R306) -/

/-- The tile on which a rank of a gang stands, or stood when its run ended (R44, R381). -/
def State.rankTile (s : State) (launch gang rank : Nat) : Option TileNo :=
  match s.launch launch with
  | none => none
  | some l => match l.gangs.find? (fun (g : Gang) => g.index = gang) with
    | none => none
    | some g => match g.ranks[rank]? with
      | some (.onTile t) => some t
      | some (.ended t) => some t
      | some (.gone t) => some t
      | some (.saving t _) => some t
      | some (.restoring t _) => some t
      | _ => none

/-- A change sets out for a semaphore of a rank of the tile's gang, or of the tile itself (R284, R287). -/
def State.sendSignal (s : State) (tn : TileNo) (rank : Option Nat) (sem : Nat) (op : SemOp) (p : Producer) (order : Nat) : State :=
  match (s.tile tn).run with
  | none => s
  | some r =>
    let target := match rank with | none => some tn | some k => s.rankTile r.launch r.gang k
    match target with
    | none => s
    | some x => { s with signals := s.signals ++
        [{ target := x, launch := r.launch, gang := r.gang, change := { sem := sem, op := op, prod := some p, order := order } }] }

/-- What a command of the queue does at once when its turn comes: releases and fences (R284, R285, R290, R291). -/
def State.performNow (s : State) (tn : TileNo) (c : Cmd) : Option State :=
  let prod := fun (kind sem : Nat) =>
    ({ kind := kind, place := s.place tn, obj := sem, addr := c.addr, gate := c.gate } : Producer)
  match c.body with
  | .ssig rank sem n => some (s.sendSignal tn rank sem (.raise n) (prod 1 sem) c.id)
  | .sinit sem v => some (s.sendSignal tn none sem (.init v) (prod 1 sem) c.id)
  | .mxsig sem => some (s.sendSignal tn none sem (.raise 1) (prod 4 sem) (c.operands.headD c.id))
  | .launch bs => some (s.admitChild (dieOf tn) { part := s.partOf tn, tile := tn, cmd := c.id, record := bs })
  | .fence _ => some s
  | _ => none

/-- Released commands enter the command queue while it has room (R268). -/
def Engines.enter (e : Engines) : Engines :=
  let n := 64 - e.queue.length
  { e with queue := e.queue ++ (e.released.take n).map Active.start, released := e.released.drop n }

/-- The first command of the queue that acts at once and whose turn has come. -/
def Tile.ready (t : Tile) : Option Cmd :=
  (t.eng.queue.find? fun (a : Active) =>
    (match a.cmd.body with | .xfer _ | .atomic _ _ _ _ _ _ | .off => false | _ => true) && t.turn a).map fun (a : Active) => a.cmd

/-- Commands that act at once do so in turn, and released commands enter the queue. -/
def State.pump (tn : TileNo) : Nat → State → State
  | 0, s => s
  | n + 1, s =>
    let t := s.tile tn
    let t1 := { t with eng := t.eng.enter }
    match t1.ready with
    | none => s.setTile tn t1
    | some c =>
      let t2 := { t1 with eng := { t1.eng with queue := t1.eng.queue.filter fun (a : Active) => a.cmd.id ≠ c.id } }
      State.pump tn n (((s.setTile tn t2).performNow tn c).getD (s.setTile tn t2))

/-- Everything of a tile that may act at once does. -/
def State.settleEngines (s : State) (tn : TileNo) : State :=
  let e := (s.tile tn).eng
  State.pump tn (e.queue.length + e.released.length + 1) s

/-- Released elements of a return stream become available while it holds fewer than eight (R276). -/
def Stream.admitReturns : Nat → Stream → Stream
  | 0, st => st
  | n + 1, st =>
    match st.rets with
    | r :: rest => match r.released, r.val with
      | true, some x =>
        if decide (st.buf.length < 8) then Stream.admitReturns n { st with buf := st.buf ++ [.scalar x], rets := rest } else st
      | _, _ => st
    | [] => st

/-- Every return stream of a tile takes what it may. -/
def Streams.admitReturns (ss : Streams) : Streams :=
  { ss with regs := vmk 8 fun k => (vget ss.regs k).map fun st => st.admitReturns 8 }

/-- The places that atomics have taken in return streams are released (R276). -/
def Streams.releasePlaces (ss : Streams) (ids : List Nat) : Streams :=
  let g := fun (r : RetPlace) => if ids.contains r.cmd then { r with released := true } else r
  let f := fun (st : Stream) => { st with rets := st.rets.map g }
  ({ ss with regs := vmk 8 fun k => (vget ss.regs k).map f } : Streams).admitReturns

/-- The value of an atomic fills its place (R276), in the checkpoint too (R419). -/
def Tile.fillPlace (t : Tile) (serial cmd : Nat) (x : Scalar) : Tile :=
  let g := fun (r : RetPlace) => if r.cmd = cmd then { r with val := some x } else r
  let f := fun (st : Stream) => { st with rets := st.rets.map g }
  let upd := fun (ss : Streams) => (ss.mapSerial serial f).admitReturns
  { t with streams := upd t.streams,
           seg := { t.seg with chk := t.seg.chk.map fun (c : Saved) => { c with streams := c.streams.mapSerial serial f } } }

/-- The held effects of a closing segment are released in issue order (R270, R418), and the places in return streams that its atomics have
taken; those still within the checker lag are released once they are presented (R294; log 60). -/
def State.releaseHeld (s : State) (tn : TileNo) : State :=
  let t := s.tile tn
  let ids := (t.eng.held ++ t.eng.lag).map fun (c : Cmd) => c.id
  let out := t.eng.held.filter fun (c : Cmd) => c.body ≠ .off
  let t1 := { t with eng := { t.eng with held := [], released := t.eng.released ++ out }, streams := t.streams.releasePlaces ids }
  (s.setTile tn t1).settleEngines tn

/-! ## Publication (R205, R318, R320, R455) -/

/-- The bytes of a trace record (22 Table 22.3). -/
def traceBytes (place : BitVec 16) (tag wall : Nat) (r : TraceRec) : List Byte :=
  leBytes 8 wall ++
  leBytes 8 (place.toNat * 2 ^ 48 + r.kind * 2 ^ 44 + r.obj % 256 * 2 ^ 32 + r.addr % 2 ^ 32) ++
  leBytes 8 r.cycle ++ leBytes 8 (tag * 2 ^ 32 + r.info % 2 ^ 32)

/-- A record enters the trace ring of the tile's partition when its kind is enabled (R455). Nothing tells what system
software has consumed: a full ring drops (log 40). -/
def State.traceWrite (s : State) (tn : TileNo) (r : TraceRec) : State :=
  let pn := s.partOf tn
  let p := s.part pn
  let q := p.rings
  if q.traceSlots = 0 ∨ !q.traceMask.getLsbD (r.kind - 1) then s
  else if q.traceSlots ≤ q.traceHead.toNat then
    s.setPart pn { p with rings := { q with traceDrops := q.traceDrops + 1 } }
  else
    let tag := ((s.tile tn).run.map fun (x : Run) => x.tag.toNat).getD 0
    let s1 := s.privWrite pn (q.traceBase + 32 * (q.traceHead.toNat % q.traceSlots))
      (validBytes (traceBytes (s.place tn) tag (s.master r.wall) r))
    s1.setPart pn { s1.part pn with rings := { (s1.part pn).rings with traceHead := q.traceHead + 1 } }

/-- The latest leg at or before a mark (R321). -/
def Survey.refAt (v : Survey) (place : BitVec 16) (legs : List Leg) (cycle : Nat) : Option LegRef :=
  let n := (legs.filter fun (l : Leg) => decide (l.cycle ≤ cycle)).length
  if n = 0 then (if v.legs.isEmpty then none else some { place := place, seq := v.next - 1 })
  else some { place := place, seq := v.next + BitVec.ofNat 32 n - 1 }

/-- The trace records that a tile holds are published (R455). -/
def State.flushTrace (s : State) (tn : TileNo) : State :=
  let s1 := (s.tile tn).seg.trace.foldl (fun (st : State) r => st.traceWrite tn r) s
  let t := s1.tile tn
  s1.setTile tn { t with seg := { t.seg with trace := [] } }

/-- The step marks of a segment become reports to write (R205, R320). -/
def Tile.publishMarks (t : Tile) (place : BitVec 16) : Tile :=
  t.seg.marks.foldl (fun (t : Tile) m =>
    let v := t.survey
    let due := (m, v.refAt place t.seg.legs m.cycle, v.stepStart, v.stepCycle, t.img.kernelId, (t.run.map Run.wid).getD 0)
    { t with survey := { v with due := v.due ++ [due], stepStart := m.wall, stepCycle := m.cycle } }) t

/-- The checkpoint of a segment entry (R419). -/
def Tile.checkpoint (t : Tile) : Saved :=
  { k := t.k, vec := t.vec, streams := t.streams, shapes := t.shapes, raisers := t.sems.raiser, mx := t.mx,
    counters := t.counters, doubles := t.seg.doubles, safeMark := t.seg.safeMark }

/-- A new segment begins at the kernel's next bundle (R418, R419, R420, R426). An event that is not yet to be taken, of a vchk of the last
cycle or of a shadow row, stands over (R169, R264). -/
def Tile.newSegment (t : Tile) : Tile :=
  let g := t.seg
  let g1 := { g with
    mode := .run, number := g.number + 1, entryAddr := t.k.pos.addr, entryCycle := t.k.cycle, pendingEntry := false,
    freezeLeft := 0, heldCount := 0, undo := [], overflow := false, chk := none, lowered := [], clkSince := 0, events := 0,
    firstEvent := none, recorded := none, verdict := none, legs := [], marks := [], trace := [],
    careful := false, reached := false }
  let k := { t.k with pos := { t.k.pos with boundary := false } }
  let t1 := { t with seg := g1, k := k }
  { t1 with seg := { g1 with chk := some t1.checkpoint } }

/-- A segment closes and the next begins (R211, R418): held effects are released, legs, marks and trace records published,
the decrements final, and the checkpoint taken. -/
def State.closeSegment (s : State) (tn : TileNo) : State :=
  let t := s.tile tn
  let place := s.place tn
  let t1 := t.publishMarks place
  let t2 := { t1 with survey := t1.survey.publish t.seg.legs }
  let s1 := (s.setTile tn t2).flushTrace tn
  let s2 := s1.releaseHeld tn
  s2.setTile tn (s2.tile tn).newSegment

/-! ## Events and verdicts (R423 to R430) -/

/-- The number of a check in TRAP_VALUE (R430). -/
def Check.code : Check → Nat
  | .checker => 1 | .doubles => 2 | .shadowRow => 3 | .poison => 4

/-- The unit that a verdict charges (20 Table 20.4): the checker where the decider's tile copy equals the recorded tile copy, which the
comparison of the compared issue has noted. -/
def Event.unitOf (e : Event) : Nat :=
  match e.check with
  | .checker => if e.unit = 2 then 2 else 1
  | .doubles => 1
  | .shadowRow => 3
  | .poison => e.unit

/-- Whether an event of the tile is due (R346, R424): its cycle has ended, or the checker has found it and the segment is to close, which
waits for the checker alone (R418). -/
def Tile.eventDue (t : Tile) (closing : Bool) : Option Event :=
  (t.seg.pendEvents.filter fun e => (closing && decide (e.check = .checker)) || decide (e.takenAfter < t.mx.cyc)).foldl
    (fun (b : Option Event) e => match b with
      | some x => if e.takenAfter < x.takenAfter then some e else some x
      | none => some e) none

/-- The last verdict of a tile (20 Table 20.9). -/
def Segment.setLast (g : Segment) (code cause unit : Nat) : Segment :=
  { g with lastVerdict := code, lastCause := cause, lastUnit := unit }

/-- A transient verdict counts against the tile's budget (R408): beyond it the floor rises by 10 mV, and at VCEIL the tile
is to be excluded (R410). -/
def State.countTransient (s : State) (tn : TileNo) : State :=
  let t := s.tile tn
  let d := s.die (dieOf tn)
  let day := 86400 * 10 ^ 9
  let recent := (t.margin.transients.filter fun w => decide (s.ns < w + day)) ++ [s.ns]
  let past := decide (d.budgetNow < recent.length)
  let ceil := Config.ceilMv (dieOf tn)
  let top := decide (ceil ≤ t.margin.mv)
  let floor := if past then t.margin.floor + 10 else t.margin.floor
  let m := { t.margin with
    transients := recent, floor := floor, mv := if past ∧ t.margin.mode ≠ 1 then max t.margin.mv (min floor ceil) else t.margin.mv }.drifted
      t.margin s.ns
  let s1 := s.setTile tn { t with margin := m }
  if past && top then s1.excludeSoon tn else s1

/-- The location of an event's DETAIL (20 Table 20.8). -/
def Event.where_ (e : Event) : Nat := match e.check with | .poison => e.detail | _ => 0

/-- Cause 0x23 is pending after a verdict when ERR_TRAP_EN is 1 (R430). -/
def Tile.handOff (t : Tile) (code unit : Nat) (e : Event) : Tile :=
  if t.priv.errTrapEn then
    t.raiseAsync { cause := 0x23, value := word (code + e.check.code * 2 ^ 8 + unit * 2 ^ 16), addr := e.addr, cycle := e.cycle, sub := 0 }
  else t

/-- A transient verdict (R427): execution continues. -/
def State.transientVerdict (s : State) (tn : TileNo) (code : Nat) (e : Event) : State :=
  let unit := e.unitOf
  let s1 := (s.tileEntry tn 4 code 0 unit e.addr e.cycle e.where_).countTransient tn
  let t := s1.tile tn
  let g := t.seg.setLast code 0 unit
  let g1 := { g with mode := if g.overflow then .unprot else .run, verdict := none, recorded := none }
  s1.setTile tn ({ t with seg := g1 }.handOff code unit e)

/-- What a fatal verdict does to its unit at once (R429): the tile is quarantined, or a frame of HBM disowned, unless TRIAGE is 1 (R430); 0xC
counts as a transient. -/
def State.chargeUnit (s : State) (tn : TileNo) (code : Nat) (e : Event) : State :=
  if code = 0xC then s.countTransient tn
  else if (s.part (s.partOf tn)).triage then s
  else if e.unitOf = 6 then s.mapFrame (e.detail % 2 ^ 48) fun f => { f with owner := 0x10 }
  else s.quarantine tn

/-- The containment of a fatal verdict (R428): the launch ends, at the work-item boundary for 0xC. -/
def State.fatalContained (s : State) (tn : TileNo) (code kill : Nat) (e : Event) : State :=
  let unit := e.unitOf
  let cause := if code = 0xC then 5 else e.check.code
  let place := if unit = 6 then (s.place (tileNo (homeDie e.detail * 96))).toNat else (s.place tn).toNat
  let ending := { contained cause unit place with killCode := kill }
  let id := ((s.tile tn).run.map fun (r : Run) => r.launch).getD 0
  if code = 0xC then s.killItem tn ending false else s.killLaunch id ending fun t => t = tn

/-- A fatal verdict (R427 to R430): its unit is quarantined at once; with ERR_TRAP_EN 1 the handler is entered first, and ends the launch. -/
def State.fatalVerdict (s : State) (tn : TileNo) (code : Nat) (e : Event) : State :=
  let unit := e.unitOf
  let cause := if code = 0xC then 5 else e.check.code
  let s1 := (s.tileEntry tn (if code = 0xC then 6 else 5) code cause unit e.addr e.cycle e.where_).chargeUnit tn code e
  let t := s1.tile tn
  let t1 := { t with seg := { t.seg.setLast code cause unit with pendEvents := [], verdict := none, recorded := none } }
  if t1.priv.errTrapEn then
    s1.setTile tn ({ t1 with seg := { t1.seg with fatal := some (code, e) } }.handOff code unit e)
  else (s1.setTile tn t1).fatalContained tn code 0 e

/-! ## Rewinds (R423) -/

/-- A line takes back its old bytes and POISON. -/
def Store.restoreLine (s : Store) (u : Undo) : Store :=
  ((List.range 8).zip u.poison).foldl (fun st p => st.setPoison (8 * u.line + p.1) p.2) (s.write (64 * u.line) u.bytes)

/-- The elements that have left a write stream. -/
def Stream.gonePast (st : Stream) : Nat := match st.queue with | r :: _ => r.pos | [] => st.reserved

/-- A stream of the checkpoint restored beside what has become of it: read streams fetch again from their next element,
elements already drained stay drained, and a held request stays held in its place (R398, R419, R423). -/
def Stream.restore (cur : Streams) (st : Stream) : Stream :=
  let now := cur.find st.serial
  let drained := match now with
    | some c => c.gonePast
    | none => st.reserved
  let queue := st.queue.filter fun (r : Reserved) => decide (drained ≤ r.pos)
  let base := if st.pat.isWrite then
      { st with queue := queue,
                idx := if st.pat.kind = 1 then st.idx.drop (st.queue.length - queue.length) else st.idx }
    else if st.pat.kind = 2 then st
    else { st with buf := [], filled := st.popped, due := (now.map fun (c : Stream) => if c.fault.isSome then c.due.take 1 else []).getD [] }
  match now with
  | some c => { base with
      presented := st.presented || c.presented, got := if c.filled = base.filled then c.got else [], gone := 0, loc := none,
      fault := c.fault, reported := c.reported,
      idx := base.idx.map fun (i : GIndex) => if c.idx.any fun j => j.cmd = i.cmd && j.presented then { i with presented := true } else i }
  | none => base

/-- A stream bound in a rewound segment of which a fault holds a request (R398): that request alone. -/
def Stream.heldOnly (st : Stream) : Stream := { st with buf := [], queue := st.queue.take 1, due := st.due.take 1 }

/-- The streams of a checkpoint restored (R423), the next command being numbered `after`: read streams issue their elements again, and a
request that a fault holds is not cancelled (R398). -/
def Streams.restore (cur saved : Streams) (after : Nat) : Streams :=
  let held := (cur.all.filter fun st => st.fault.isSome && !(saved.all.any fun o => o.serial = st.serial)).map Stream.heldOnly
  (List.range 8).foldl (fun (ss : Streams) k => ss.issueReads k after)
    ({ regs := vmk 8 fun k => (vget saved.regs k).map fun st => st.restore cur,
       old := ((saved.old.map fun st => st.restore cur) ++ held).filter fun st => !st.places.isEmpty,
       next := cur.next, seq := cur.seq } : Streams).admitReturns

/-- The matrix engine of a checkpoint restored: a signal already made by a command of an earlier segment stands (R423). -/
def Matrix.restore (cur saved : Matrix) : Matrix :=
  { saved with
    next := cur.next,
    queue := saved.queue.map fun (x : MxCmd) =>
      match cur.queue.find? (fun (y : MxCmd) => y.n = x.n) with
      | some y => { x with presented := x.presented || y.presented, signalled := x.signalled || (y.done && !x.done) }
      | none => { x with signalled := x.signalled || !x.done, presented := true } }

/-- The semaphores with a segment's decrements added back; the last raisers of its entry (R203, R316). -/
def Sems.restore (m : Sems) (lowered : List (Nat × Nat)) (raisers : Vector (Option Producer) 64) : Sems :=
  lowered.foldl (fun (m : Sems) p =>
    { m with cnt := vset m.cnt p.1 (BitVec.ofNat 32 (min 0xFFFFFFFF ((vget m.cnt p.1).toNat + p.2))) })
    { m with raiser := raisers }

/-- The rewind of an open segment (R423): `rec` is the event whose verdict the next execution gives. -/
def Tile.rewind (t : Tile) (rec_ : Event) : Tile :=
  match t.seg.chk with
  | none => t
  | some c =>
    let g := t.seg
    let d := min c.k.depth 6
    let spent := g.clkSince + 8 + g.undo.length
    let kept := fun (k : Nat) => vget (vget t.counters.sets k) 28
    let sets := vmk 7 fun k => vset (vget c.counters.sets k) 28 (if k = d then bump48 (kept k) spent else kept k)
    let open_ := fun (n : Nat) => decide (n < g.number)
    { t with
      k := c.k, vec := c.vec, run := t.run.map fun (r : Run) => { r with
        itemEnded := false, retrace := r.retrace || g.trace.any fun (x : TraceRec) => x.kind = 8 }, streams := t.streams.restore c.streams t.eng.next, shapes := c.shapes,
      sems := t.sems.restore g.lowered c.raisers, mx := t.mx.restore c.mx,
      spad := g.undo.foldl Store.restoreLine t.spad,
      counters := { c.counters with sets := sets, replays := t.counters.replays },
      eng := { t.eng with
        lag := t.eng.lag.filter fun (x : Cmd) => open_ x.segNo, held := t.eng.held.filter fun (x : Cmd) => open_ x.segNo,
        queue := t.eng.queue.map fun (a : Active) =>
          if open_ a.cmd.segNo then a
          else match a.cmd.body with
            | .xfer x => { a with rewound := true, cmd := { a.cmd with body := .xfer { x with sig := false, tagw := false } } }
            | _ => a },
      seg := { g with
        mode := .decide, heldCount := 0, undo := [], overflow := false, lowered := [], clkSince := 0, doubles := c.doubles,
        safeMark := c.safeMark, pendingEntry := false, freezeLeft := 0, legs := [], marks := [],
        trace := g.trace.filter fun (r : TraceRec) => decide (r.kind ≤ 2) && open_ r.segNo, pendEvents := [], verdict := none,
        careful := true, reached := false,
        recorded := some rec_, firstEvent := g.firstEvent.or (some rec_), events := g.events + 1, rewinds := g.rewinds + 1 },
      survey := { t.survey with waits := Waits.none },
      priv := { t.priv with after := [], waitSem := none, wdogNs := 0 },
      dbg := { t.dbg with brkCode := none, skip := t.dbg.single && t.dbg.skip },
      checker := none, dfr := Deferred.none }

/-- Clock periods charged to no cause. -/
def State.idleTicks : Nat → State → State
  | 0, s => s
  | n + 1, s => State.idleTicks n s.tickMe

/-- An event of class 4 is taken (R426): a rewind, or a fatal verdict. -/
def State.takeEvent (s : State) (e : Event) : State :=
  let t := s.me
  let again : Bool := match t.seg.recorded with
    | some r => decide (r.check = .poison ∧ e.check = .poison ∧ r.addr = e.addr ∧ r.cycle = e.cycle)
    | none => false
  match t.seg.mode with
  | .unprot => s.fatalVerdict s.cur 0xC e
  | .decide =>
    if again then s.fatalVerdict s.cur 0xA e else s.fatalVerdict s.cur 0xB (t.seg.recorded.getD e)
  | .run =>
    if 2 ≤ t.seg.events then s.fatalVerdict s.cur 0xB (t.seg.firstEvent.getD e)
    else
      let n := 8 + t.seg.undo.length
      let s1 := State.idleTicks n (s.setMe (t.rewind e))
      s1.mapMe fun t => { t with seg := { t.seg with clkSince := 0 } }

/-! ## The kernel's boundary -/

/-- Whether the kernel of a tile stands ready: resident and started, no handler, no debug stop. -/
def Tile.live (t : Tile) : Bool :=
  (match t.run with | some r => r.resident && r.started | none => false) &&
  !t.priv.active && !t.priv.parked && decide (t.priv.ctxState = 0) && decide (t.dbg.stopKind = 0)

/-- Whether the last cycle of a tile's work item has passed (R169, R207). -/
def Tile.itemEnded (t : Tile) : Bool := match t.run with | some r => r.itemEnded | none => false

/-- Whether the kernel of a tile runs: its item has not ended, and no fatal verdict waits for its handler (R430). -/
def Tile.running (t : Tile) : Bool := t.live && !t.itemEnded && t.seg.fatal.isNone

/-- Whether the bundle that issues next, its transfer's bubble cycles over, begins a segment (R124, R211, R418): the segment is to close, or its
SEG bit is one and no entry has been taken before this very issue. -/
def Tile.entryNeeded (t : Tile) : Bool :=
  let r := t.resolve
  let p := r.1.k.pos
  let i := t.img
  r.2.isNone && (p.mode = .fresh || (p.mode = .xfer && p.waits = 0 && p.bubbles = 0)) &&
    (t.seg.pendingEntry ||
      (decide (i.codeOff ≤ p.addr ∧ p.addr + 4 ≤ i.codeOff + i.codeLen) &&
        (Header.ofWord (BitVec.ofNat 32 (t.spad.readLe p.addr 4))).seg &&
        !(t.seg.entryAddr = p.addr && t.seg.entryCycle = t.k.cycle)))

/-- Whether what consumed the POISON of an event is still to be read again (R416): the payload of the engine command of its issue, or the
element of the write stream that its sbind bound (R66). -/
def Tile.payloadOpen (t : Tile) (r : Event) : Bool :=
  let at_ := fun (c : Cmd) => c.addr = r.addr && c.cycle = r.cycle && (match c.body with | .xfer _ => true | _ => false)
  t.eng.lag.any at_ || (t.eng.queue.any fun (a : Active) => at_ a.cmd && !a.done) ||
    (t.streams.all.any fun st => st.pat.isWrite && st.bindAddr = r.addr && st.bindCycle = r.cycle &&
      r.locs.any fun k => decide (st.gonePast ≤ k))

/-! ## Debug stops (R449 to R453) -/

/-- Whether the kernel of a tile is about to issue, afresh or by sticky re-issue, and the address (R449): no wait or bubble
cycle stands before it. -/
def Tile.aboutToIssue (t : Tile) : Option Nat :=
  let r := t.resolve
  let p := r.1.k.pos
  if r.2.isSome then none
  else match p.mode with
    | .fresh => some p.addr
    | .cont => if p.issues ≠ 0 then some p.addr else none
    | .xfer => if p.waits = 0 ∧ p.bubbles = 0 then some p.addr else none

/-- The comparator that matches the issue about to be made (R449). -/
def Tile.comparatorHit (t : Tile) : Option Nat :=
  if t.dbg.skip then none
  else match t.aboutToIssue with
    | none => none
    | some a => (List.range 4).find? fun k =>
        let c := vget t.dbg.comps k
        c.en && decide (c.addr.toNat = a) && (!c.cyc || decide (c.cycle.toNat = t.k.cycle))

/-- The debug stop that a tile takes at its next boundary: STOP_KIND and STOP_VALUE (22 Table 22.1). -/
def Tile.stopDue (t : Tile) : Option (Nat × Nat) :=
  let d := t.dbg
  match d.brkCode with
  | some c => some (1, c)
  | none =>
    if d.single && !d.skip then some (5, 0)
    else if d.askStop then some (3, 0)
    else if d.askHalt then some (4, 0)
    else t.comparatorHit.map fun k => (2, k)

/-! ## Verdicts and segment entries -/

/-- Whether the verdict of a pending decision has been reached (R426, R427): after the cycle of its comparison, or when the
segment is to close, unless that comes before the comparison point of a shadow row (R424); for POISON, once the compared issue has been made,
and any payload or element it sends has been read, without an event. A debug stop that is due comes first (R450). -/
def Tile.verdictDue (t : Tile) : Option (Nat × Event) :=
  let closing := t.running && t.entryNeeded
  if t.running && t.stopDue.isSome then none
  else match t.seg.mode, t.seg.verdict, t.seg.recorded with
    | .decide, some (code, e), _ => if e.takenAfter < t.mx.cyc ∨ (closing ∧ e.check ≠ .shadowRow) then some (code, e) else none
    | .decide, none, some r =>
      if r.check = .poison ∧ t.seg.reached ∧ (t.payloadOpen r = false ∨ closing) then some (3, r) else none
    | _, _, _ => none

/-- The matching of the commands within the lag that the freeze of a segment entry waits for (R418): each is compared once. -/
def Tile.matchLag (t : Tile) : Tile :=
  if t.img.coverage = 0 then t
  else
    let t1 := (t.eng.lag.filter fun (c : Cmd) => !c.matched).foldl (fun (t : Tile) (c : Cmd) =>
      t.compared .checker (c.cycle + 4) c.addr c.cycle 8 c.words (c.ckCopy.getD c.words)) t
    { t1 with eng := { t1.eng with lag := t1.eng.lag.map fun (c : Cmd) => { c with matched := true } } }

/-- Whether the freeze of a segment entry lasts on (R418): a sparse operation is not complete, or the checker has not matched the
issues, which at C1 to C3 takes 4 clk and the arrival of every copy of a command. -/
def Tile.entryHeld (t : Tile) : Bool :=
  (t.mx.queue.any fun (x : MxCmd) => x.sparse && !x.empty && !x.done) ||
    (decide (t.img.coverage ≠ 0) && t.eng.lag.any fun (c : Cmd) => !c.matched && decide (c.late ≠ 0))

/-- One clock period of the freeze of a segment entry (R418), charged to checker hold at the depth of the entry bundle (R175); it lies after
the boundary at which a pre-emption request is admitted (R346). -/
def State.entryFreeze (s : State) : State :=
  (s.freezeAt 3 (min s.me.resolve.1.k.depth 6)).mapMe fun t => { t with
    k := { t.k with pos := { t.k.pos with boundary := false } }, seg := { t.seg with freezeLeft := t.seg.freezeLeft + 1 },
    eng := { t.eng with lag := match t.eng.lag with
      | [] => []
      | c :: cs => c :: cs.map fun d => { d with late := d.late - 1 } } }

/-- The freeze of a segment entry up to its end or to the next clock period that something holds (R418): the rest of the 4 clk at
C1 to C3, and then the matching. -/
def State.entryFrozen (s : State) : State :=
  let n := if s.me.img.coverage = 0 then 0 else 4 - s.me.seg.freezeLeft
  ((List.range n).foldl (fun st _ => st.entryFreeze) s).mapMe Tile.matchLag

/-- Whether an event or a verdict of the open segment waits for its cycle to end (R424, R427). -/
def Tile.deciding (t : Tile) : Bool := !t.seg.pendEvents.isEmpty || t.seg.verdict.isSome

/-- A segment closes as a commit does (R211, R418): a compared issue not reached is verdict 0x4 (R426), and one that consumed no POISON
while its payload is still to be read 0x3 (R427). -/
def State.commitSegment (s : State) (tn : TileNo) : State :=
  let t := s.tile tn
  let s1 := match t.seg.mode, t.seg.recorded with
    | .decide, some r => s.transientVerdict tn (if r.check = Check.poison ∧ t.seg.reached then 3 else 4) r
    | _, _ => s
  s1.closeSegment tn

/-- A class 4 event of the acting tile is taken (R423, R424). -/
def execSegmentRewind (s : State) : Host.Outcome State Fault Refusal :=
  let t := s.me
  match (if t.live then t.eventDue (t.running && t.entryNeeded) else none) with
  | some e => .next (s.takeEvent e)
  | none => .next s

/-- The decider reaches its verdict at the acting tile (R427). -/
def execDeciderVerdict (s : State) : Host.Outcome State Fault Refusal :=
  match (if s.me.live then s.me.verdictDue else none) with
  | some (code, e) => .next (if code < 8 then s.transientVerdict s.cur code e else s.fatalVerdict s.cur code e)
  | none => .next s

end Sys2Proof.Machine
end

