-- ==== Sys2Proof/Machine/Trap.lean ====
section
/-! DEFINITION. What is taken at a boundary of the kernel (R346, R450): after-issue and asynchronous causes, debug stops; the
watchdog (R344) and writes of RESUME (R349). -/
namespace Sys2Proof.Machine

/-! ## Debug stops (R449 to R453) -/

/-- Whether something comes before a debug stop, or before the next cycle, in the order of R346: a class 4 event, a verdict, which gives way
to a stop that is due (R450), or an after-issue cause. -/
def Tile.earlierItem (t : Tile) : Bool :=
  (t.eventDue (t.running && t.entryNeeded)).isSome || t.verdictDue.isSome || !t.priv.after.isEmpty ||
    (t.running && t.resolve.2.isSome)

/-- The debug stop is taken (R450): STOP_ADDR and STOP_CYCLE name the bundle that issues next, or a brk's own issue. A single issue that a
die halt comes before is still to be made after its release (R451, R453). -/
def Tile.stop (t : Tile) (kind value : Nat) : Tile :=
  let next := (({ t with k := { t.k with pos := { t.k.pos with waits := 0 } } } : Tile).resolve).1.k.pos.addr
  { t with dbg := { t.dbg with
      stopKind := kind, stopValue := BitVec.ofNat 32 value, stopAddr := if kind = 1 then t.k.pos.addr else next,
      stopCycle := if kind = 1 then t.k.cycle - 1 else t.k.cycle, brkCode := none, single := t.dbg.single && decide (kind = 4),
      askStop := t.dbg.askStop && decide (kind ≠ 3) } }

/-- Whether a run stands on a tile with its kernel context in place. -/
def Tile.resident (t : Tile) : Bool :=
  (match t.run with | some r => r.resident && r.started | none => false) && decide (t.priv.ctxState = 0) && !t.priv.active

/-- A debug stop (R449 to R451): one that is due is taken, and each clock period of a stop that stands is charged to
debug stop. -/
def execDebugStop (s : State) : Host.Outcome State Fault Refusal :=
  let t := s.me
  if t.dbg.stopKind ≠ 0 then .next (if t.resident then s.freezeMe 1 else s)
  else if !t.running || t.earlierItem then .next s
  else match t.stopDue with
    | some (k, v) => .next (s.setMe (t.stop k v))
    | none => .next s

/-! ## Causes (R343, R346, R348) -/

/-- Whether a boundary admits a pending asynchronous cause: 0x22 only directly after the last cycle of a SAFE bundle
(R343, R346); 0x20 and 0x22 not while a verdict is awaited (R425). -/
def Tile.admits (t : Tile) (a : Async) : Bool :=
  !(t.seg.mode = .decide && (a.cause = 0x20 || a.cause = 0x22)) &&
  (a.cause ≠ 0x22 || (t.running && t.k.pos.boundary && t.k.pos.safe))

/-- The pending asynchronous cause that is taken (R346): of those admitted, the lowest CAUSE. -/
def Tile.asyncDue (t : Tile) : Option Async :=
  (t.priv.async.filter t.admits).foldl (fun (b : Option Async) a => match b with
    | some x => if a.cause < x.cause then some a else some x
    | none => some a) none

/-- The trap registers of an asynchronous cause (R343). -/
def Async.regs (a : Async) : TrapRegs :=
  { cause := a.cause, sub := a.sub, slot := 15, async := true, value := a.value, addr := a.addr, cycle := a.cycle }

/-- The trap registers of an after-issue cause (R343, R346). -/
def After.regs (a : After) : TrapRegs :=
  { cause := a.cause, sub := a.sub, slot := a.slot, async := false, value := a.value, addr := a.addr, cycle := a.cycle }

/-- The trap registers of a fall-through that passes a level's last address (R141, R142). -/
def Passed.regs (p : Passed) : TrapRegs :=
  { cause := 1, sub := 0xB, slot := 15, async := false, value := word p.last, addr := p.addr, cycle := p.cycle }

/-- Whether a trap at the boundary finds the kernel of the acting tile in place. -/
def Tile.trapDue (t : Tile) : Bool :=
  t.live && !((t.eventDue (t.running && t.entryNeeded)).isSome || t.verdictDue.isSome)

/-- A handler entry for a standing firmware miss (R352, R394): the walk registers show it. -/
def State.takeWalk (s : State) (m : Miss) (copy : Bool) : State :=
  (s.mapMe fun t => { t with xlat := t.xlat.showMiss m copy }).takeTrap
    { cause := 0x30, sub := 0, slot := 15, async := true, value := 0, addr := 0, cycle := 0 }

/-- An asynchronous cause is taken: it no longer stands; a watchdog's wait begins again with a count of zero (R344). -/
def State.takeAsync (s : State) (a : Async) : State :=
  (s.mapMe fun t =>
    let p := { t.priv with async := t.priv.async.filter fun x => x ≠ a }
    if a.cause = 0x21 then
      { t with priv := { p with wdogNs := 0, waitSem := none }, k := { t.k with pos := Position.fresh t.k.pos.addr } }
    else { t with priv := p }).takeTrap a.regs

/-- The item of R346 that the acting tile takes: an after-issue cause, a fall-through past a level's end, which comes after a cause of an
issue at the same boundary (DESIGN CHOICE, log 77), an asynchronous cause, or the firmware walk. -/
def State.trapItem (s : State) : State :=
  let t := s.me
  match t.priv.after with
  | a :: _ => (s.mapMe fun t => { t with priv := { t.priv with after := [] } }).takeTrap a.regs
  | [] =>
    match (if t.running then t.resolve.2 else none) with
    | some p => s.takeTrap p.regs
    | none =>
      if t.running && t.stopDue.isSome then s
      else match t.asyncDue with
        | some a => s.takeAsync a
        | none => match t.xlat.firmware with
          | some (m, copy) => s.takeWalk m copy
          | none => s

/-- Whether a cause stands that the acting tile takes at this boundary. -/
def Tile.causeDue (t : Tile) : Bool :=
  t.trapDue && (!t.priv.after.isEmpty || (t.running && t.resolve.2.isSome) ||
    (!(t.running && t.stopDue.isSome) && (t.asyncDue.isSome || t.xlat.firmware.isSome)))

/-- A pending cause hands the acting tile to its shadow context (R346, R348). -/
def execTrapTaken (s : State) : Host.Outcome State Fault Refusal :=
  .next (if s.me.trapDue then s.trapItem else s)

/-! ## The watchdog and RESUME (R344, R349) -/

/-- Whether the watchdog of a tile has reached its limit before a semw or xwait (R344). -/
def Tile.wdogDue (t : Tile) : Option Nat :=
  if t.priv.wdogEn && decide (t.priv.wdogLimit ≠ 0) && decide (t.priv.wdogLimit.toNat * 1024 ≤ t.priv.wdogNs) then
    t.priv.waitSem else none

/-- The watchdog raises cause 0x21 (R344). -/
def execSemaphoreWaitWatchdog (s : State) : Host.Outcome State Fault Refusal :=
  let t := s.me
  if !t.running then .next s
  else match t.wdogDue with
    | none => .next s
    | some k => .next (s.setMe (t.raiseAsync
        { cause := 0x21, value := word k, addr := t.k.pos.addr, cycle := t.k.cycle, sub := 0 }))

/-- A handler's write of RESUME (R349): a MODE other than 0b00 leaves it unchanged. -/
def Tile.resumeTo (t : Tile) (v : Word) : Tile :=
  if bitsNat v 44 43 ≠ 0 then t
  else { t with
    k := { t.k with pos := Position.fresh (v.toNat % 2 ^ 32) }, dbg := { t.dbg with skip := t.dbg.single && t.dbg.skip },
    survey := { t.survey with waits := Waits.none }, priv := { t.priv with waitSem := none, wdogNs := 0 } }

/-- RESUME written in handler mode (R349). -/
def execResumeWrite (t : TileNo) (v : Word) (s : State) : Host.Outcome State Fault Refusal :=
  if (s.tile t).priv.active then .next (s.setTile t ((s.tile t).resumeTo v)) else .next s

/-! ## Segment entries -/

/-- Whether nothing that comes before the next cycle of the kernel is due at its boundary (R346, R418, R450). -/
def Tile.clear (t : Tile) : Bool :=
  t.running && !t.earlierItem && !t.causeDue && t.stopDue.isNone && t.wdogDue.isNone

/-- The segment entry before the next bundle of the acting tile (R418): the freeze, the release, the checkpoint. A mismatch of the matching
is an event, and a match of the compared issue a verdict, before the segment closes (R426). -/
def State.enterSegment (s : State) : State :=
  let t := s.me
  if !t.clear || !t.entryNeeded then s
  else if t.entryHeld then s.entryFreeze
  else
    let s2 := s.entryFrozen
    if (s2.me.eventDue true).isSome || s2.me.verdictDue.isSome then s2
    else (s2.mapMe fun t => t.resolve.1).commitSegment s.cur

end Sys2Proof.Machine
end

