-- ==== Sys2Proof/Machine/Context.lean ====
section
/-! DEFINITION. The context image (R350, R351; 17 Tables 17.3, 17.5 and 17.6): its bytes, its checks and its restoration, and the
completion of a ctxsave (R357, R381). -/
namespace Sys2Proof.Machine

/-! ## Bytes of the image -/

/-- Bytes padded with zeros, or cut, to a length. -/
def padTo (n : Nat) (bs : List Byte) : List Byte := bs.take n ++ List.replicate (n - bs.length) 0

/-- Tags packed two bits each, the first lowest (17 Table 17.3). -/
def tagBits (l : List Tag) : Nat := l.foldr (fun t n => t.code + 4 * n) 0

/-- A 64-bit little-endian number. -/
def le8 (n : Nat) : List Byte := leBytes 8 n

/-- The 136 bytes of a vector register: lanes, then tags. -/
def vregBytes (x : VReg) : List Byte :=
  ((vlist x).map fun l => leBytes 4 l.v.toNat).flatten ++ le8 (tagBits ((vlist x).map Lane.tag))

/-- The scalar-space destination of a result, 63 where it is pushed only (17 Table 17.6). -/
def scalarDest (d : BitVec 6) : Nat := if d.toNat < 32 ∨ (54 ≤ d.toNat ∧ d.toNat < 62) then d.toNat else 63

/-- The vector-space destination of a result, 63 where it is pushed only. -/
def vectorDest (d : BitVec 6) : Nat := if d.toNat < 16 ∨ (54 ≤ d.toNat ∧ d.toNat < 62) then d.toNat else 63

/-- The sc of latency left of a result at the kernel's next cycle. -/
def InFlight.remain (e : InFlight) (cycle : Nat) : Nat := e.last + 1 - cycle

/-- The scalar records of results in flight, in the order of R351. -/
def scalarRecords (l : List InFlight) : List InFlight :=
  (sortFlight l).filter fun e => match e.res with | .scalar _ _ => true | _ => false

/-- The vector records of results in flight, mask pairs among them, in the order of R351. -/
def vectorRecords (l : List InFlight) : List InFlight :=
  (sortFlight l).filter fun e => match e.res with | .vector _ _ | .vectorPush _ _ | .masks _ _ _ => true | _ => false

/-- The binds in flight of a shape register, the first to arrive first. -/
def bindRecords (l : List InFlight) (h : Nat) : List InFlight :=
  (sortFlight l).filter fun e => match e.res with | .bind k _ => k = h | _ => false

/-- The bytes of an in-flight record (17 Table 17.6): a result that leaves the register it names unwritten (R241) is pushed only. -/
def recordBytes (cycle : Nat) (e : InFlight) : List Byte :=
  let low := e.remain cycle * 2 ^ 56 + e.slot.idx * 2 ^ 44
  match e.res with
  | .scalar x d => le8 x.v.toNat ++ le8 (low + x.tag.code * 2 ^ 54 + scalarDest d * 2 ^ 48 + 2 ^ 40)
  | .vector x d => vregBytes x ++ le8 (low + vectorDest d * 2 ^ 48 + 3 * 2 ^ 40)
  | .vectorPush x _ => vregBytes x ++ le8 (low + 63 * 2 ^ 48 + 3 * 2 ^ 40)
  | .masks j vals voids =>
    padTo 128 (leBytes 4 vals.toNat) ++
    le8 (tagBits ((List.range 32).map fun l => if voids.getLsbD l then Tag.void else Tag.valid)) ++
    le8 (low + j % 4 * 2 ^ 48 + 4 * 2 ^ 40)
  | _ => []

/-- A snapshot of the boundary cache with its state word (R350). -/
def snapshotBytes (s : Option (Shape × Nat)) : List Byte :=
  match s with
  | none => padTo 0x840 []
  | some (h, remain) =>
    padTo 0x808 (leBytes 4 (h.rowLen * 256 + h.fmt) ++ leBytes 4 h.ends.length ++ (h.ends.map fun e => leBytes 4 e).flatten) ++
    padTo 0x38 (le8 (1 + remain * 256))

/-- A region of the image whose layout is not architectural: its token (log 7). -/
def opaqueBytes (token n : Nat) : List Byte := padTo n (le8 token)

/-- CRC-32 of IEEE 802.3, bit by bit: `k` bits of a register. -/
def crcBits : Nat → Nat → Nat
  | 0, c => c
  | k + 1, c => crcBits k (if c % 2 = 1 then (c / 2) ^^^ 0xEDB88320 else c / 2)

/-- The CRC register after bytes. -/
def crcBytes : List Byte → Nat → Nat
  | [], c => c
  | b :: bs, c => crcBytes bs (crcBits 8 (c ^^^ b.toNat))

/-- The CRC-32 of bytes. -/
def crc32 (bs : List Byte) : Nat := crcBytes bs 0xFFFFFFFF ^^^ 0xFFFFFFFF

/-- The opaque regions of the image: offset and length (17 Table 17.3). -/
def opaqueRegions : List (Nat × Nat) :=
  [(0x2940, 0x120), (0x2A60, 0x200), (0x2C60, 0x800), (0x3560, 0x200), (0x3760, 0x1200), (0x4960, 0x1000)]

/-- The counter sets as R324 lays them out. -/
def Counters.bytes (c : Counters) : List Byte :=
  ((vlist c.sets).map fun s => padTo 256 ((vlist s).map le8).flatten).flatten

/-- The bytes of the image after its header (17 Table 17.3). -/
def Tile.imageBody (t : Tile) (token : Nat) : List Byte :=
  let c := t.k
  let cyc := c.cycle
  padTo 0x100 ((vlist c.n).map fun x => le8 x.v.toNat).flatten ++ le8 (tagBits ((vlist c.n).map Scalar.tag)) ++
  padTo 0x80 ((vlist c.sq).map fun x => le8 x.v.toNat).flatten ++ le8 (tagBits ((vlist c.sq).map Scalar.tag)) ++
  le8 (bitsOfList ((vlist c.g).map Guard.val) + bitsOfList ((vlist c.g).map Guard.void) * 65536) ++
  padTo 0x40 ((vlist t.vec.m).map fun m => le8 (m.vals.toNat + m.voids.toNat * 2 ^ 32)).flatten ++ padTo 0x28 [] ++
  padTo 0x880 ((vlist t.vec.v).map vregBytes).flatten ++ padTo 0x880 ((vlist t.vec.vq).map vregBytes).flatten ++
  padTo 0x400 ((scalarRecords c.infl).map (recordBytes cyc)).flatten ++
  padTo 0x1200 ((vectorRecords c.infl).map (recordBytes cyc)).flatten ++
  opaqueBytes token 0x120 ++ opaqueBytes token 0x200 ++ opaqueBytes token 0x800 ++
  padTo 0x100 ((vlist t.sems.cnt).map fun n => leBytes 4 n.toNat).flatten ++
  opaqueBytes token 0x200 ++ opaqueBytes token 0x1200 ++ opaqueBytes token 0x1000 ++
  padTo 0x700 t.counters.bytes ++ padTo 0x38 ((vlist t.counters.freeze).map le8).flatten ++
  le8 t.sems.overflow.toNat ++ le8 t.seg.doubles.toNat ++ le8 t.seg.safeMark ++ le8 t.seg.entryCycle ++
  le8 t.mx.shadowNext ++ padTo 0x40 [] ++
  ((List.range 8).map fun h =>
    snapshotBytes ((vget t.shapes h).map fun s => (s, 0)) ++
    snapshotBytes ((bindRecords c.infl h).head?.bind fun e =>
      match e.res with | .bind _ s => some (s, e.remain cyc) | _ => none)).flatten ++
  padTo 0xB00 []

/-- The image (17 Tables 17.3 and 17.5), its CHECK over the opaque regions. -/
def Tile.image (t : Tile) (magic : Nat) (reason : Word) (token : Nat) : List Byte :=
  let body := t.imageBody token
  let check := crc32 (opaqueRegions.map fun r => (body.drop (r.1 - 0x40)).take r.2).flatten
  padTo 0x40 (leBytes 4 magic ++
    leBytes 4 ((vectorRecords t.k.infl).length * 2 ^ 24 + (scalarRecords t.k.infl).length * 2 ^ 16 + 1) ++
    le8 t.img.kernelId.toNat ++ le8 ((t.run.map fun (r : Run) => r.wid.toNat).getD 0) ++ le8 t.k.cycle ++
    le8 t.k.pos.resume.toNat ++ le8 t.counters.replays ++ le8 reason.toNat ++ le8 (t.priv.trap.cause * 2 ^ 32 + check)) ++ body

/-- What the image's opaque regions stand for (R350). -/
def Tile.opaque_ (t : Tile) (token : Nat) : Opaque :=
  { token := token, k := t.k, vec := t.vec, streams := t.streams, raisers := t.sems.raiser, mx := t.mx, lag := t.eng.lag,
    nextCmd := t.eng.next, stepStart := t.survey.stepStart, stepCycle := t.survey.stepCycle, waits := t.survey.waits }

/-- The next token. -/
def State.nextToken (s : State) : Nat := s.opaques.length + 1

/-! ## ctxsave (R357, R381) -/

/-- Whether everything that a ctxsave waits for at its own tile is over (R357): its segment closed, the commands presented, sparse
operations, elements of read streams already requested, and filled elements of write streams. -/
def Tile.drained (t : Tile) : Bool :=
  !t.seg.pendingEntry && t.sems.pend.isEmpty && t.eng.queue.isEmpty && t.eng.held.isEmpty && t.eng.released.isEmpty &&
  !(t.mx.queue.any fun (x : MxCmd) => x.sparse && x.presented && !x.empty && !x.done) &&
  t.streams.all.all fun (st : Stream) => st.nextElem.isNone

/-- The tiles of a run's gang whose runs have not ended. -/
def State.gangTiles (s : State) (r : Run) : List TileNo :=
  match s.launch r.launch with
  | none => []
  | some l => match l.gangs.find? (fun (g : Gang) => g.index = r.gang) with
    | none => []
    | some g => g.ranks.filterMap fun p => match p with
      | .onTile t | .saving t _ | .restoring t _ => some t
      | _ => none

/-- Whether a tile has finished step 3 of its ctxsave (R381). -/
def Tile.saveReady (t : Tile) : Bool := t.priv.ctxState = 0b10 || (t.priv.saving.isSome && t.drained)

/-- Whether the gang drain lets a tile write its image (R381). -/
def State.gangDrained (s : State) (tn : TileNo) : Bool :=
  (s.tile tn).drained &&
  match (s.tile tn).run with
  | none => true
  | some r => ((s.gangTiles r).all fun t => (s.tile t).saveReady) &&
      !(s.signals.any fun (g : Signal) => g.launch = r.launch && g.gang = r.gang)

/-- Values of a kernel's registers, queues and semaphores. -/
structure Leftover where
  n : Vector Scalar 32
  sq : Vector Scalar 16
  g : Vector Guard 16
  vec : VecState
  streams : Vector (Option Stream) 8
  shapes : Vector (Option Shape) 8
  sems : Vector (BitVec 32) 64
  deriving DecidableEq, Repr, Inhabited

/-- What a ctxsave leaves in the kernel's registers, queues and semaphores, which is not defined (R357): a free value (log 8). -/
opaque leftover : Nat → Leftover

/-- The kernel's registers, queues and semaphores after a ctxsave (R357); g0 and m0 stay as R61 and R63 fix them. No access of its streams
is under way. -/
def Tile.undefined (t : Tile) (u : Leftover) : Tile :=
  let quiet := fun (st : Stream) => { st with presented := false, queue := [], due := [], fault := none, loc := none }
  { t with
    k := { t.k with n := u.n, sq := u.sq, g := vset u.g 0 (vget guardsStart 0) },
    vec := { u.vec with m := vset u.vec.m 0 (vget VecState.start.m 0) }, shapes := u.shapes,
    streams := { t.streams with regs := vmk 8 fun k => (vget u.streams k).map quiet, old := [] },
    sems := { t.sems with cnt := u.sems } }

/-- The ctxsave of the acting tile completes (R357): the image stands in the save bay and CTX_STATE is 0b10; the trace records of what ended
meanwhile are published (R455). -/
def execContextSaveDone (s : State) : Host.Outcome State Fault Refusal :=
  match s.me.priv.saving with
  | none => .next s
  | some a =>
    if !s.gangDrained s.cur then .next s
    else
      let s0 := s.flushTrace s.cur
      let t := s0.me
      let tok := s.nextToken
      let t1 : Tile :=
        { t with spad := t.spad.put Config.saveBay (t.image 0x43544B31 a tok), checker := none,
                 priv := { t.priv with ctxState := 0b10, saving := none, wdogNs := 0, waitSem := none } }
      .next { s0.setMe (t1.undefined (leftover s0.free)) with opaques := s.opaques ++ [t.opaque_ tok], free := s0.free + 1 }

/-! ## ctxload (R358) -/

/-- A little-endian number of an image. -/
def imgNat (m : List Byte) (off n : Nat) : Nat := leAt m off n

/-- Whether packed tags hold the code 0b11. -/
def badTags (n count : Nat) : Bool := (List.range count).any fun k => decide (n / 4 ^ k % 4 = 3)

/-- The word to which the POISON of an image is charged that was not POISON in the context saved: not defined, a free value of the image and
of the place in it (log 42). -/
opaque strayWord : List Byte → Nat → BadWord

/-- A word such as a kernel's own POISON may name without another partition's memory (R358): of a scratchpad bank or of the accumulators. -/
def BadWord.near (w : BadWord) : BadWord := { unit := 4 + w.unit % 2, place := w.place % 0x40000 / 8 * 8 }

/-- A tag of packed tags of an image, for the value at a byte of it: POISON keeps the word that the saved value's had (log 22). -/
def tagAt (m : List Byte) (off n k : Nat) (old : Tag) : Tag :=
  (Tag.ofCode (n / 4 ^ k % 4) (match old with | .poison o => o | _ => (strayWord m off).near)).getD .valid

/-- Whether bytes of an image are not all zero. -/
def someByte (m : List Byte) (off n : Nat) : Bool := ((m.drop off).take n).any fun b => decide (b ≠ 0)

/-- The slot of a number. -/
def slotOf (n : Nat) : Option Slot := Slot.all.find? fun s => s.idx = n

/-- The slots that deliver scalar pushes: all but C; vector pushes: M and V slots; mask pairs: V slots. -/
def scalarSlot (n : Nat) : Bool := n = 0 || n = 1 || (decide (3 ≤ n) && decide (n ≤ 8))
/-- The slots that deliver vector pushes. -/
def vectorSlot (n : Nat) : Bool := decide (3 ≤ n) && decide (n ≤ 6)
/-- The slots that deliver mask pairs. -/
def maskSlot (n : Nat) : Bool := n = 5 || n = 6

/-- Whether a scalar record's word breaks Table 17.6. -/
def badScalarWord (w : Nat) : Bool :=
  let d := w / 2 ^ 48 % 64
  decide (w / 2 ^ 56 = 0) || decide (40 < w / 2 ^ 56) || decide (w / 2 ^ 54 % 4 = 3) || decide (w / 2 ^ 40 % 16 ≠ 1) ||
    decide (w % 2 ^ 40 ≠ 0) || !scalarSlot (w / 2 ^ 44 % 16) || (decide (32 ≤ d) && decide (d < 54)) || d = 62

/-- Whether a vector record's word breaks Table 17.6. -/
def badVectorWord (w : Nat) : Bool :=
  let d := w / 2 ^ 48 % 64
  let k := w / 2 ^ 40 % 16
  let sl := w / 2 ^ 44 % 16
  decide (w / 2 ^ 56 = 0) || decide (40 < w / 2 ^ 56) || decide (w % 2 ^ 40 ≠ 0) ||
    (if k = 3 then !vectorSlot sl || (decide (16 ≤ d) && decide (d < 54)) || d = 62
     else if k = 4 then !maskSlot sl || d = 0 || decide (4 ≤ d) else true)

/-- Whether record words stand in the order of R351. -/
def inRecordOrder : List Nat → Bool
  | w :: v :: rest =>
    (decide (w / 2 ^ 56 < v / 2 ^ 56) ||
      (w / 2 ^ 56 = v / 2 ^ 56 && decide (w / 2 ^ 44 % 16 ≤ v / 2 ^ 44 % 16))) && inRecordOrder (v :: rest)
  | _ => true

/-- Whether a snapshot of the image breaks R358. -/
def badSnapshot (m : List Byte) (off : Nat) : Bool :=
  let st := imgNat m (off + 0x808) 8
  let store : Store := { bytes := ((List.range 0x808).zip ((m.drop off).take 0x808)), poison := [] }
  decide (st / 2 ^ 14 ≠ 0) || decide (st % 256 / 2 ≠ 0) || someByte m (off + 0x810) 0x30 ||
    (st % 2 = 1 && (decide (39 < st / 256 % 64) || !(recordCands store Config.spadBytes 0 0 0).isEmpty))

/-- Whether an architectural region of an image breaks R358 (sub-cause 0x5). -/
def badRegion (m : List Byte) : Bool :=
  let nsf := imgNat m 6 1
  let nvf := imgNat m 7 1
  let sw := (List.range (min nsf 64)).map fun k => imgNat m (0x1340 + 16 * k + 8) 8
  let vw := (List.range (min nvf 32)).map fun k => imgNat m (0x1740 + 144 * k + 0x88) 8
  badTags (imgNat m 0x140 8) 32 || badTags (imgNat m 0x1C8 4) 16 || someByte m 0x1CC 4 || someByte m 0x1D4 4 ||
  ((List.range 16).any fun k => badTags (imgNat m (0x240 + 0x88 * k + 0x80) 8) 32 || badTags (imgNat m (0xAC0 + 0x88 * k + 0x80) 8) 32) ||
  decide (64 < nsf) || decide (32 < nvf) || sw.any badScalarWord || vw.any badVectorWord ||
  !inRecordOrder sw || !inRecordOrder vw ||
  ((List.range (min nvf 32)).any fun k => badTags (imgNat m (0x1740 + 144 * k + 0x80) 8) 32) ||
  someByte m (0x1340 + 16 * min nsf 64) (0x400 - 16 * min nsf 64) ||
  someByte m (0x1740 + 144 * min nvf 32) (0x1200 - 144 * min nvf 32) ||
  someByte m 0x218 0x28 || decide (imgNat m 0x20 8 / 2 ^ 45 ≠ 0) || someByte m 0x3D 3 || someByte m 0x60A2 6 ||
  decide (imgNat m 0x60B8 8 / 64 ≠ 0) || someByte m 0x60C0 0x40 || someByte m 0xE500 0xB00 ||
  (List.range 16).any fun k => badSnapshot m (0x6100 + 0x840 * k)

/-- The first ctxload check that an image fails, by its sub-cause (17 Table 17.4). -/
def loadFault (m : List Byte) (kernelId : Word) : Option Nat :=
  if imgNat m 0 4 ≠ 0x43544B31 then some 1
  else if imgNat m 4 2 ≠ 1 then some 2
  else if imgNat m 8 8 ≠ kernelId.toNat then some 3
  else if imgNat m 0x38 4 ≠ crc32 (opaqueRegions.map fun r => (m.drop r.1).take r.2).flatten then some 4
  else if badRegion m then some 5
  else none

/-- What the bytes of an image that no ctxsave wrote restore in its opaque regions (R358): not defined, a free value of the bytes
(log 42). -/
opaque foreignContext : List Byte → Opaque

/-- Whether POISON names a word that is no other partition's (R358). -/
def Tag.near : Tag → Bool
  | .poison o => decide (o = o.near)
  | _ => true

/-- Whether an element of a stream is such. -/
def Elem.near : Elem → Bool
  | .scalar x => x.tag.near
  | .vector x => (vlist x).all fun l => l.tag.near

/-- Whether a sticky operation is one that an issue of a kernel leaves in its slot (R69, R138, R143). -/
def Sticky.kernels (st : Sticky) (slot : Slot) : Bool :=
  st.op = .nop || ((privileged st.op).isNone && !st.op.oneShot && (st.op.wordFault st.ext.isSome).isNone && st.latch.tag.near &&
    st.stepBy.tag.near &&
    (match decodeSlot slot.kind (encode st.op) with | .ok i => i = st.op | .error _ => false))

/-- Whether a stream is one that an sbind of a kernel could have bound, with the indices that gpushes could have pushed (R271 to R275), and
with no request past its translation (R390). -/
def Stream.within (st : Stream) (t : Tile) : Bool :=
  (patternCands t st.pat).isEmpty && decide (st.buf.length ≤ 8 ∧ st.queue.length ≤ 8 ∧ st.idx.length ≤ 24) && st.loc.isNone &&
  (st.buf.all Elem.near) && (st.queue.all fun r => (r.val.map Elem.near).getD true) && (st.idx.all fun i => i.val.tag.near) &&
  st.idx.all fun i => (elementCands t st.pat
    { base := (gatherAddr st.pat i.val.v).toNat, levels := [], align := st.pat.elem.1, span := st.pat.elem.2 }).isEmpty

/-- Whether an engine command is one that a kernel of the tile's image could have issued (R271, R285). -/
def CmdBody.within (b : CmdBody) (t : Tile) : Bool :=
  match b with
  | .xfer x => (sideCands t x).isEmpty && decide (x.sem < 64) && (!x.remote || decide (x.rank < t.gangSize))
  | .ssig r k n => decide (k < 64 ∧ n < 2 ^ 32) && (r.map fun q => decide (q < t.gangSize)).getD true
  | .sinit k n => decide (k < t.img.nsems ∧ n < 2 ^ 32)
  | .mxsig k => decide (k < t.img.nsems)
  | .launch bs => decide (bs.length = 0x140) && launchReserved.all fun p => word (leNat ((bs.drop p.1).take 8)) &&& p.2 = 0
  | _ => true

/-- Whether a matrix command is one that a kernel of the tile's image could have issued (R265). -/
def MxOp.within (op : MxOp) (t : Tile) : Bool :=
  match op with
  | .zero blk => decide (blk < 16)
  | .go c _ sem _ => (c.goCands t.img.scratch).isEmpty && (match sem with | some k => decide (k < t.img.nsems) | none => true)
  | .drain addr blk fmt rowsM1 pitch _ => decide (blk < 16 ∧ rowsM1 < 64) && drainFmtOk fmt &&
      (spadCands t [] ((List.range (rowsM1 + 1)).map fun (m : Nat) => Touch.range (addr + m * pitch : Nat) (8 * fmtWidth fmt))).isEmpty

/-- Whether a matrix command is within the bounds, with the rows that it still writes its own (R253, R261). -/
def MxCmd.within (x : MxCmd) (t : Tile) : Bool :=
  x.op.within t && x.wait.all fun r => decide (r.2.length = 64) && (r.2.all fun (l : Lane) => l.tag.near) &&
    (match x.op with
      | .zero _ => false
      | .go c _ _ _ => decide (x.start + 72 ≤ r.1 ∧ (r.1 - x.start - 72) / 64 < c.steps ∧ (r.1 - x.start - 72) % 64 < c.rows)
      | .drain _ _ _ rowsM1 _ _ => decide (x.start + 3 ≤ r.1 ∧ r.1 ≤ x.start + 3 + rowsM1))

/-- Whether what an image's opaque regions restore keeps to the bounds of R358: its operations, streams, binds, commands and matrix work are
such as a kernel of the tile's launch could make. -/
def Opaque.within (o : Opaque) (t : Tile) : Bool :=
  ((Slot.all.filter fun s => decide (s.idx < 9)).all fun s => (vget o.k.sticky s.idx).kernels s) &&
  decide (o.k.seq.loops.length ≤ 6 ∧ o.k.seq.rets.length ≤ 8) &&
  (o.streams.all.all fun st => st.within t) && (o.lag.all fun c => c.body.within t && decide (c.id < o.nextCmd)) &&
  ((List.range 8).all fun h => decide ((bindRecords o.k.infl h).length ≤ 1) &&
    (bindRecords o.k.infl h).all fun e => decide (e.slot = .m0 ∨ e.slot = .m1)) &&
  ((vlist o.k.n).all fun x => x.tag.near) && ((vlist o.k.sq).all fun x => x.tag.near) &&
  ((vlist o.vec.v ++ vlist o.vec.vq).all fun x => (Elem.vector x).near) &&
  (o.k.infl.all fun e => match e.res with
    | .scalar x _ => x.tag.near | .vector x _ | .vectorPush x _ => (Elem.vector x).near | _ => true) &&
  decide (o.mx.queue.length ≤ 8) && o.mx.queue.all fun x => x.within t

/-- A context with nothing under way, which stands where a free one would not keep to R358's bounds. -/
def Opaque.start : Opaque :=
  { token := 0, k := Ctx.start 0, vec := VecState.start, streams := Streams.start 0 [], raisers := vrep 64 none, mx := Matrix.start { vals := [], poison := [] },
    lag := [], nextCmd := 0, stepStart := 0, stepCycle := 0, waits := Waits.none }

/-- The opaque part of an image: what the ctxsave kept that wrote it, where its bytes stand unchanged (R350), else a free value within the
bounds of R358 (log 42). -/
def State.opaqueOf (s : State) (m : List Byte) : Opaque :=
  let same := fun (o : Opaque) => opaqueRegions.all fun r => decide ((m.drop r.1).take r.2 = opaqueBytes o.token r.2)
  match s.opaques.find? fun (o : Opaque) => decide (o.token = imgNat m 0x2940 8) && same o with
  | some o => o
  | none =>
    let o := foreignContext m
    if o.within s.me then o else Opaque.start

/-- A vector register of an image, where the context saved had one. -/
def vregAt (m : List Byte) (off : Nat) (old : VReg) : VReg :=
  let tags := imgNat m (off + 0x80) 8
  vmk 32 fun l => { v := BitVec.ofNat 32 (imgNat m (off + 4 * l) 4), tag := tagAt m (off + 4 * l) tags l (vget old l).tag }

/-- The result of a scalar record, where the context saved had one. -/
def scalarResult (m : List Byte) (off : Nat) (old : Option InFlight) : Result :=
  let w := imgNat m (off + 8) 8
  let tag := match old.map InFlight.res with | some (.scalar x _) => x.tag | _ => .valid
  .scalar { v := word (imgNat m off 8), tag := tagAt m off (w / 2 ^ 54) 0 tag } (BitVec.ofNat 6 (w / 2 ^ 48))

/-- The result of a vector record, where the context saved had one: one that leaves the register it names unwritten (R241) keeps naming it. -/
def vectorResult (m : List Byte) (off : Nat) (old : Option InFlight) : Result :=
  let w := imgNat m (off + 0x88) 8
  if w / 2 ^ 40 % 16 = 4 then
    let tags := imgNat m (off + 0x80) 8
    .masks (w / 2 ^ 48 % 4) (BitVec.ofNat 32 (imgNat m off 4))
      (BitVec.ofNat 32 (bitsOfList ((List.range 32).map fun l => decide (tags / 4 ^ l % 4 = 1))))
  else
    match old.map InFlight.res with
    | some (.vectorPush x d) => if w / 2 ^ 48 % 64 = 63 then .vectorPush (vregAt m off x) d else .vector (vregAt m off x) (BitVec.ofNat 6 (w / 2 ^ 48))
    | some (.vector x _) => .vector (vregAt m off x) (BitVec.ofNat 6 (w / 2 ^ 48))
    | _ => .vector (vregAt m off vvoid) (BitVec.ofNat 6 (w / 2 ^ 48))

/-- A record restored: the saved one in its place gives what the record does not show, its issue and its stream
position. -/
def restoreRecord (cycle w : Nat) (res : Result) (old : Option InFlight) : InFlight :=
  { slot := (slotOf (w / 2 ^ 44 % 16)).getD .s0, issued := (old.map InFlight.issued).getD 0, last := cycle + w / 2 ^ 56 - 1,
    res := res, place := old.bind InFlight.place }

/-- The shape of a snapshot, when it is VALID, with its latency left. -/
def snapshotAt (m : List Byte) (off : Nat) : Option (Shape × Nat) :=
  let st := imgNat m (off + 0x808) 8
  if st % 2 = 0 then none
  else
    let w0 := imgNat m off 4
    some ({ fmt := w0 % 16, rowLen := w0 / 256,
            ends := (List.range (imgNat m (off + 4) 2 % 1024)).map fun k => imgNat m (off + 8 + 4 * k) 4 }, st / 256 % 64)

/-- The results in flight of an image. -/
def restoreFlight (m : List Byte) (o : Opaque) (cycle : Nat) : List InFlight :=
  let olds := scalarRecords o.k.infl
  let oldv := vectorRecords o.k.infl
  ((List.range (imgNat m 6 1)).map fun k =>
    restoreRecord cycle (imgNat m (0x1340 + 16 * k + 8) 8) (scalarResult m (0x1340 + 16 * k) olds[k]?) olds[k]?) ++
  ((List.range (imgNat m 7 1)).map fun k =>
    restoreRecord cycle (imgNat m (0x1740 + 144 * k + 0x88) 8) (vectorResult m (0x1740 + 144 * k) oldv[k]?) oldv[k]?) ++
  ((List.range 8).map fun h =>
    let old := bindRecords o.k.infl h
    (match snapshotAt m (0x6100 + 0x840 * (2 * h + 1)) with
      | some (s, r) => [restoreRecord cycle (r * 2 ^ 56 + ((old.head?.map fun e => e.slot.idx).getD 3) * 2 ^ 44) (.bind h s) old.head?]
      | none => []) ++ old.tail).flatten

/-- The position that an image's RESUME gives (R349); what RESUME does not show is the opaque region's. -/
def restorePos (r : Nat) (old : Position) : Position :=
  { old with
    mode := match r / 2 ^ 43 % 4 with | 0 => .fresh | 1 => .cont | _ => .xfer
    addr := r % 2 ^ 32, issues := r / 2 ^ 32 % 32, waits := r / 2 ^ 37 % 8, bubbles := r / 2 ^ 40 % 8, boundary := false }

/-- The context of an image restored on a tile (R358); g0 and m0 stay as R61 and R63 fix them. -/
def Tile.restoreImage (t : Tile) (m : List Byte) (o : Opaque) : Tile :=
  let cyc := imgNat m 0x18 8
  let k : Ctx :=
    { o.k with
      n := vmk 32 fun j => { v := word (imgNat m (0x40 + 8 * j) 8), tag := tagAt m (0x40 + 8 * j) (imgNat m 0x140 8) j (vget o.k.n j).tag },
      sq := vmk 16 fun j => { v := word (imgNat m (0x148 + 8 * j) 8), tag := tagAt m (0x148 + 8 * j) (imgNat m 0x1C8 4) j (vget o.k.sq j).tag },
      g := vmk 16 fun j => if j = 0 then vget guardsStart 0 else
        { val := (imgNat m 0x1D0 8).testBit j, void := (imgNat m 0x1D0 8).testBit (16 + j) },
      pos := restorePos (imgNat m 0x20 8) o.k.pos, infl := restoreFlight m o cyc, cycle := cyc }
  let vec : VecState :=
    { v := vmk 16 fun j => vregAt m (0x240 + 0x88 * j) (vget o.vec.v j), vq := vmk 16 fun j => vregAt m (0xAC0 + 0x88 * j) (vget o.vec.vq j),
      m := vmk 8 fun j => if j = 0 then vget VecState.start.m 0 else
        { vals := BitVec.ofNat 32 (imgNat m (0x1D8 + 8 * j) 4), voids := BitVec.ofNat 32 (imgNat m (0x1DC + 8 * j) 4) } }
  let mx := { o.mx with acc := t.mx.acc, queue := o.mx.queue.map fun (x : MxCmd) => { x with segNo := 0 }, shadowNext := imgNat m 0x60B8 8 % 64 }
  let g := { Segment.reset with
    number := t.seg.number, rewinds := t.seg.rewinds, lastVerdict := t.seg.lastVerdict, lastCause := t.seg.lastCause,
    lastUnit := t.seg.lastUnit, doubles := BitVec.ofNat 16 (imgNat m 0x60A0 2), safeMark := imgNat m 0x60A8 8 }
  let t1 : Tile :=
    { t with
      k := k, vec := vec, streams := o.streams, shapes := vmk 8 fun h => (snapshotAt m (0x6100 + 0x840 * (2 * h))).map Prod.fst,
      sems := { cnt := vmk 64 fun j => BitVec.ofNat 32 (imgNat m (0x3460 + 4 * j) 4), raiser := o.raisers,
                overflow := BitVec.ofNat 64 (imgNat m 0x6098 8), pend := [] },
      eng := { lag := o.lag.map fun (c : Cmd) => { c with segNo := 0 }, held := [], released := [], queue := [], next := o.nextCmd }, mx := mx,
      counters := { sets := vmk 7 fun d => vmk 29 fun j => imgNat m (0x5960 + 256 * d + 8 * j) 6, replays := imgNat m 0x28 8,
                    freeze := vmk 7 fun j => imgNat m (0x6060 + 8 * j) 8 },
      run := t.run.map fun (r : Run) => { r with wid := word (imgNat m 0x10 8), sc := 0, resident := true, started := true, itemEnded := false },
      survey := { t.survey with stepStart := o.stepStart, stepCycle := o.stepCycle, waits := o.waits },
      checker := none, dbg := { t.dbg with brkCode := none, skip := t.dbg.single && t.dbg.skip },
      priv := { t.priv with ctxState := 0b01, trap := { t.priv.trap with cause := imgNat m 0x3C 1 } } }
  let t2 := { t1 with seg := g }.newSegment
  { t2 with seg := { t2.seg with entryCycle := imgNat m 0x60B0 8 } }

/-- What a ctxload does (R358): its checks, and the restoration. -/
def State.ctxLoad (s : State) (a : Word) : State :=
  s.mapMe fun t =>
    if t.priv.ctxState.toNat < 2 then t.handlerFault 3 1
    else
      let m := t.spad.read Config.saveBay 0xF000
      match loadFault m a with
      | some n => t.handlerFault 2 n
      | none =>
        let rec_ := (t.run.bind fun (r : Run) => s.launch r.launch).map Launch.record
        let t1 := t.restoreImage m (s.opaqueOf m)
        { t1 with run := t1.run.map fun (r : Run) => { r with item := (rec_.map fun l => l.itemOf r.wid).getD 0 } }

end Sys2Proof.Machine
end

