-- ==== Sys2Proof/Machine/System.lean ====
section
/-! DEFINITION. The system operations of slot C (R353 to R358): writes of the privileged space by number (17 Table 17.1, 19 Table
19.5, 20 Table 20.9, 22 Table 22.1), the return from a handler, invalidation, and the saving and loading of contexts. -/
namespace Sys2Proof.Machine

/-! ## Registers of a tile -/

/-- Change the privileged state of a tile. -/
def Tile.mapPriv (t : Tile) (f : Priv → Priv) : Tile := { t with priv := f t.priv }

/-- A write of a register of one tile that needs nothing of the partition. -/
def Tile.writeReg (t : Tile) (n : Nat) (v : Word) : Tile :=
  if 0x178 ≤ n ∧ n ≤ 0x17F then
    let k := (n - 0x178) / 2
    let c := vget t.dbg.comps k
    let c1 : Comparator :=
      if n % 2 = 0 then { c with en := v.getLsbD 63, cyc := v.getLsbD 62, addr := v.setWidth 32 } else { c with cycle := v }
    { t with dbg := { t.dbg with comps := vset t.dbg.comps k c1 } }
  else match n with
    | 0x108 => t.resumeTo v
    | 0x110 => t.mapPriv fun p => { p with wdogEn := v.getLsbD 2, debugArmed := v.getLsbD 1, earlyTrap := v.getLsbD 0 }
    | 0x112 => t.mapPriv fun p => { p with wdogLimit := v.setWidth 32 }
    | 0x156 => { t with xlat := { t.xlat with walkPaddr := bitsNat v 47 3 * 8, walkPending := true } }
    | 0x163 => t.mapPriv fun p => { p with errTrapEn := v.getLsbD 0 }
    | 0x175 => { t with dbg := { t.dbg with dump := bitsNat v 56 6 * 64 } }
    | _ => t

/-! ## Registers of a partition -/

/-- Change the ring registers of a partition. -/
def State.mapRings (s : State) (p : PartNo) (f : PartRings → PartRings) : State :=
  s.setPart p { s.part p with rings := f (s.part p).rings }

/-- Change a partition. -/
def State.mapPart (s : State) (p : PartNo) (f : Part → Part) : State := s.setPart p (f (s.part p))

/-- A write of RING_TAIL (R323): only to the start of a report or pad not yet consumed, or to RING_HEAD. -/
def PartRings.setTail (r : PartRings) (v : Word) : PartRings :=
  if v = r.ringHead then { r with ringTail := v, starts := [] }
  else if r.starts.any fun p => p.1 = v then { r with ringTail := v, starts := r.starts.dropWhile fun p => p.1 ≠ v }
  else r

/-- DIVERGED cleared (R459): the launches that it holds back go on. -/
def State.clearDiverged (s : State) (p : PartNo) : State :=
  { s.setPart p { s.part p with diverged := false } with
    launches := s.launches.map fun (l : Launch) => if l.part = p then { l with divHeld := false } else l }

/-- What a write leaves in MIG_MODE or WALK_MODE: 0b11 leaves the field unchanged (R402). -/
def modeField (old : BitVec 2) (v : Word) : BitVec 2 := if v.setWidth 2 = 3#2 then old else v.setWidth 2

/-- A write of a partition's register (Tables 17.1, 19.5, 22.1). `plain`: W1C fields clear (R354). A reference log is read from its
base (R457). -/
def State.writePartReg (s : State) (o : Origin) (p : PartNo) (n : Nat) (v : Word) (plain : Bool) : State :=
  match n with
  | 0x120 => s.mapRings p fun r => { r with ringBase := bitsNat v 56 6 * 64 }
  | 0x121 => s.mapRings p fun r => { r with ringPages := v.toNat % 2 ^ 32, ctrsEn := v.getLsbD 32, ringOverwrite := v.getLsbD 33 }
  | 0x123 => s.mapRings p fun r => r.setTail v
  | 0x124 => if plain then s.mapRings p fun r => { r with ringDrops := r.ringDrops &&& ~~~v } else s
  | 0x150 => s.mapXl p fun x => { x with root := bitsNat v 47 12 * 2 ^ 12, walkMode := modeField x.walkMode v }
  | 0x151 => s.mapXl p fun x =>
      { x with migThresh := bitsNat v 39 32, migDecay := bitsNat v 31 16, migMode := modeField x.migMode v }
  | 0x152 => s.xlShoot o v
  | 0x158 => s.walkFill o v
  | 0x159 => s.mapXl p fun x => { x with hfillTile := bitsNat v 26 16, hfillEngine := v.getLsbD 0 }
  | 0x15A => s.mapXl p fun x => { x with missBase := bitsNat v 56 12 * 2 ^ 12, missSlotsM1 := v.toNat % 2 ^ 12 }
  | 0x15D => s.efResume o v
  | 0x15E => s.migCmd o v
  | 0x171 => s.setPart p { s.part p with dbgSel := bitsNat v 26 16 }
  | 0x180 => s.mapRings p fun r => { r with traceBase := bitsNat v 56 6 * 64 }
  | 0x181 => s.mapRings p fun r => { r with traceMask := BitVec.ofNat 9 (bitsNat v 40 32), traceSlots := v.toNat % 2 ^ 32 }
  | 0x183 => if plain then s.mapRings p fun r => { r with traceDrops := r.traceDrops &&& ~~~v } else s
  | 0x188 => s.mapRings p fun r => { r with divStop := v.getLsbD 2, divMode := v.setWidth 2 }
  | 0x189 => s.mapRings p fun r => { r with divLog := bitsNat v 56 6 * 64 }
  | 0x18A => (s.mapRings p fun r => { r with divRef := bitsNat v 56 6 * 64 }).mapPart p fun x => { x with divNext := 0 }
  | 0x18B => s.mapRings p fun r => { r with divRpt := bitsNat v 56 6 * 64 }
  | 0x18C => if plain && v.getLsbD 0 then s.clearDiverged p else s
  | _ => s

/-- Whether a number is a register of one tile that a write may change. -/
def isTileReg (n : Nat) : Bool := [0x108, 0x110, 0x112, 0x156, 0x163, 0x175].contains n || (decide (0x178 ≤ n) && decide (n ≤ 0x17F))

/-- A write of a control register by the acting tile's handler (R341, R354); numbers up to 0x0FF ignore it. -/
def State.writeCtl (s : State) (n : Nat) (v : Word) (plain : Bool) : State :=
  if isTileReg n then s.mapMe fun t => t.writeReg n v
  else s.writePartReg (.handler s.cur) (s.partOf s.cur) n v plain

/-- A write operation (R354): the value from what a read would return and the operand. -/
def writeSem (cr : BitVec 12) (plain : Bool) (f : Word → Word → Word) : OpSem :=
  OpSem.plain (consuming Env.a (fun e s => s.writeCtl cr.toNat (f (s.readCtl cr.toNat) e.a.v) plain) (fun _ s => s))

/-- R354: the register becomes a. -/
def semWrctl (f : FormCX) : OpSem := writeSem f.cr true fun _ a => a

/-- wrctl (R354). -/
def execWrctl (f : FormCX) (s : State) : Host.Outcome State Fault Refusal := issueAlone (.wrctl f) (semWrctl f) s

/-- R354: the register takes the bits of a too. -/
def semSetctl (f : FormCX) : OpSem := writeSem f.cr false fun c a => c ||| a

/-- setctl (R354). -/
def execSetctl (f : FormCX) (s : State) : Host.Outcome State Fault Refusal := issueAlone (.setctl f) (semSetctl f) s

/-- R354: the register loses the bits of a. -/
def semClrctl (f : FormCX) : OpSem := writeSem f.cr false fun c a => c &&& ~~~a

/-- clrctl (R354). -/
def execClrctl (f : FormCX) (s : State) : Host.Outcome State Fault Refusal := issueAlone (.clrctl f) (semClrctl f) s

/-! ## The end of a handler (R348, R355, R381, R383) -/

/-- Change the gang of a run. -/
def State.mapGang (s : State) (launch gang : Nat) (f : Gang → Gang) : State :=
  s.mapLaunch launch fun l => { l with gangs := l.gangs.map fun (g : Gang) => if g.index = gang then f g else g }

/-- The place of a rank replaced. -/
def Gang.setRank (g : Gang) (rank : Nat) (p : RankPlace) : Gang := { g with ranks := g.ranks.set rank p }

/-- The rank place of the run on a tile. -/
def State.rankPlace (s : State) (r : Run) : Option RankPlace :=
  (s.launch r.launch).bind fun l => (l.gangs.find? fun (g : Gang) => g.index = r.gang).bind fun g => g.ranks[r.rank]?

/-- Whether every rank of a gang that is being restored has loaded its context (R42, R383). -/
def State.gangLoaded (s : State) (r : Run) : Bool :=
  match s.launch r.launch with
  | none => true
  | some l => match l.gangs.find? (fun (g : Gang) => g.index = r.gang) with
    | none => true
    | some g => g.ranks.all fun p => match p with
      | .restoring t _ => (s.tile t).priv.ctxState = 0b01
      | .saved _ => false
      | _ => true

/-- The acting tile's gang, being restored, is resident once the last of its ranks has loaded its context (R374, R378). -/
def State.noteLoaded (s : State) : State :=
  match s.me.run with
  | none => s
  | some r => match s.rankPlace r with
    | some (.restoring _ _) =>
      if s.gangLoaded r then s.mapGang r.launch r.gang fun g => { g with residentAt := g.residentAt.or (some s.ns) } else s
    | _ => s

/-- A restored rank resumes: its slot is free, and its gang's slice begins (R378, R383), paused if a halt of a die pauses it (R453). -/
def State.rankResumed (s : State) (tn : TileNo) : State :=
  match (s.tile tn).run with
  | none => s
  | some r => match s.rankPlace r with
    | some (.restoring _ slot) =>
      let slice := ((s.launch r.launch).map fun (l : Launch) => l.record.slice).getD 0
      (s.freeSlot r.part slot).mapGang r.launch r.gang fun g =>
        { g.setRank r.rank (.onTile tn) with
          since := s.ns, sliceEnd := if slice = 0 then 0 else s.ns + 1024 * slice, expired := false, paused := g.paused.map fun _ => s.ns }
    | _ => s

/-- The rank of a tile that becomes idle with its context saved, or that loaded none (R355, R381; log 44). -/
def State.rankParked (s : State) (tn : TileNo) : State :=
  match (s.tile tn).run with
  | none => s
  | some r => match s.rankPlace r with
    | some (.saving _ slot) | some (.restoring _ slot) => s.mapGang r.launch r.gang fun g => g.setRank r.rank (.saved slot)
    | _ => s

/-- A handler that has ended with no kernel context in place leaves its tile idle once no ectl transfer is pending
(R355, R381), with CTX_STATE 0b11 (R343; log 44); causes still pending for the context that left are dropped (log 43). -/
def State.parkDone (s : State) (tn : TileNo) : State :=
  let t := s.tile tn
  if t.priv.active && t.priv.rftDone && decide (2 ≤ t.priv.ctxState.toNat) && t.priv.ectl.isEmpty then
    let s1 := s.rankParked tn
    let t1 := (s1.tile tn).mapPriv fun p =>
      { p with active := false, rftDone := false, walkEntry := false, async := [], after := [], ctxState := 0b11 }
    (s1.setTile tn { t1 with run := none, dbg := { t1.dbg with skip := false, single := false } }).onIdle tn
  else s

/-- Whether a handler's rft has issued and its bundle's last cycle has passed. -/
def Tile.rftOver (t : Tile) : Bool :=
  t.priv.active && t.priv.rftDone && !t.priv.parked && decide (t.priv.shadow.pos.issues = 0 ∧ t.priv.shadow.pos.waits = 0)

/-- The end of the acting tile's handler (R355): the kernel resumes; or waits for its gang to load; or no context remains. A run killed meanwhile
ends here (R346, R359), and a fatal verdict that the handler has not answered ends the launch (R430). -/
def State.handlerEnd (s : State) : State :=
  let t := s.me
  if !t.rftOver then s
  else if (t.run.map Run.killed).getD false then (s.killedEnds s.cur).parkDone s.cur
  else match t.priv.ctxState.toNat, t.seg.fatal with
    | 1, some (code, e) => (s.fatalContained s.cur code 0 e).parkDone s.cur
    | 1, none =>
      match t.run with
      | some r => match s.rankPlace r with
        | some (.restoring _ _) => if s.gangLoaded r then (s.rankResumed s.cur).returnToKernel else s
        | _ => s.returnToKernel
      | none => s.returnToKernel
    | _, _ => s.parkDone s.cur

/-- R355: the handler ends after its bundle's last cycle. -/
def semRft (_f : FormGZ) : OpSem :=
  OpSem.plain fun _ s => s.mapMe fun t => t.mapPriv fun p => { p with rftDone := true }

/-- rft (R355). -/
def execRft (f : FormGZ) (s : State) : Host.Outcome State Fault Refusal := .next ((s.alone (.rft f) (semRft f)).handlerEnd)

/-! ## xlinv, ctxsave, ctxload (R356 to R358) -/

/-- R356: entries of the tile's translation caches are invalidated. -/
def semXlinv (_f : FormCA) : OpSem :=
  OpSem.plain (consuming Env.a (fun e s => s.mapMe fun t =>
    match invalidation e.a.v with
    | .bad => t.handlerFault 6 0
    | i => { t with xlat := t.xlat.invalidate i }) (fun _ s => s))

/-- xlinv (R356). -/
def execXlinv (f : FormCA) (s : State) : Host.Outcome State Fault Refusal := issueAlone (.xlinv f) (semXlinv f) s

/-- The event of a closing segment that comes before its close at a ctxsave, whatever its cycle: the kernel makes no further issue (log 107). -/
def Tile.savedEvent (t : Tile) : Option Event := (t.eventDue true).or t.seg.pendEvents.head?

/-- One clock period of step 1 of a ctxsave (R357, R418): the segment entry's freeze, which the trap is charged with (R34), and at its end the
close. A mismatch that the matching finds is an event of the closing segment, and the verdict of a compared issue is reached, before it; after
a fatal one the held effects are never released (R428), and the ctxsave comes to nothing (log 107). -/
def State.saveEntry (s : State) : State :=
  let step := fun (s : State) => s.clk.mapMe fun t => { t with
    seg := { t.seg with freezeLeft := t.seg.freezeLeft + 1 },
    eng := { t.eng with lag := match t.eng.lag with
      | [] => []
      | c :: cs => c :: cs.map fun d => { d with late := d.late - 1 } } }
  if s.me.entryHeld then step s
  else
    let n := if s.me.img.coverage = 0 then 0 else 4 - s.me.seg.freezeLeft
    let s1 := ((List.range n).foldl (fun st _ => step st) s).mapMe Tile.matchLag
    let s2 := match s1.me.savedEvent with
      | some e => s1.takeEvent e
      | none => match s1.me.seg.mode, s1.me.seg.verdict with
        | .decide, some (code, e) => if code < 8 then s1.transientVerdict s1.cur code e else s1.fatalVerdict s1.cur code e
        | _, _ => s1
    if s2.me.seg.fatal.isSome then s2.mapMe fun t => t.mapPriv fun p => { p with saving := none }
    else if s2.me.priv.saving.isSome then s2.commitSegment s2.cur else s2

/-- The segment entry of the acting tile: before its kernel's next bundle, or at step 1 of its handler's ctxsave (R357, R418). -/
def execSegmentEntry (s : State) : Host.Outcome State Fault Refusal :=
  if s.me.priv.active && s.me.priv.saving.isSome && s.me.seg.pendingEntry then .next s.saveEntry else .next s.enterSegment

/-- R357: the segment is to close, and the shadow context stands until the image is written. After a fatal verdict, whose launch the handler
only ends (R430), nothing is saved (log 107). -/
def semCtxsave (_f : FormCA) : OpSem :=
  OpSem.plain (consuming Env.a (fun e s =>
    if s.me.priv.ctxState ≠ 0b01 then s.mapMe fun t => t.handlerFault 3 0
    else if s.me.seg.fatal.isSome then s
    else s.mapMe fun t => { t with
      priv := { t.priv with saving := some e.a.v }, seg := { t.seg with pendingEntry := true, freezeLeft := 0 } }) (fun _ s => s))

/-- ctxsave (R357). -/
def execCtxsave (f : FormCA) (s : State) : Host.Outcome State Fault Refusal := issueAlone (.ctxsave f) (semCtxsave f) s

/-- R358: the image is checked and restored. -/
def semCtxload (_f : FormCA) : OpSem :=
  OpSem.plain (consuming Env.a (fun e s => (s.ctxLoad e.a.v).noteLoaded) (fun _ s => s))

/-- ctxload (R358). -/
def execCtxload (f : FormCA) (s : State) : Host.Outcome State Fault Refusal := issueAlone (.ctxload f) (semCtxload f) s

end Sys2Proof.Machine
end

