-- ==== Sys2Proof/Machine/Ectl.lean ====
section
/-! DEFINITION. The ectl operations (R359): their checks, the transfers they start, their completion, and the kill. -/
namespace Sys2Proof.Machine

/-- A handler fault of an ectl outside R359 (17 Table 17.4). -/
def ectlFault (minor : Nat) : List Cand := [hfCand 8 4 minor]

/-- Whether an ectl action is allowed in a CTX_STATE (17 Table 17.8). -/
def ectlState (minor : Nat) (st : BitVec 2) : Bool := if minor = 0 then st = 0b10 else st = 0b10 || st = 0b11

/-- What an ectl transfer raises (R359): the state, the address, the length. -/
def ectlCands (minor : Nat) (t : Tile) (a len : Nat) : List Cand :=
  if !ectlState minor t.priv.ctxState || a % 64 ≠ 0 || len % 64 ≠ 0 || decide (0x5F0000 < len) then ectlFault minor else []

/-- An ectl transfer of a fixed length, or of length b. -/
def ectlSem (minor : Nat) (len : Env → Nat) : OpSem :=
  commandSem (fun e s => ectlCands minor s.me e.a.v.toNat (len e))
    (fun e s => s.mapMe fun t => t.mapPriv fun p => { p with ectl := p.ectl ++
      [{ minor := minor, va := e.a.v.toNat % 2 ^ 57, len := len e, moved := 0, addr := e.addr, cycle := e.cycle, fault := none }] })
    nothing

/-- R359: the image to global memory. -/
def semEctlBayout (_f : FormGAB) : OpSem := ectlSem 0 fun _ => 0xF000

/-- ectl.bayout (R359). -/
def execEctlBayout (f : FormGAB) (s : State) : Host.Outcome State Fault Refusal :=
  issueAlone (.ectlBayout f) (semEctlBayout f) s

/-- R359: the image from global memory. -/
def semEctlBayin (_f : FormGAB) : OpSem := ectlSem 1 fun _ => 0xF000

/-- ectl.bayin (R359). -/
def execEctlBayin (f : FormGAB) (s : State) : Host.Outcome State Fault Refusal :=
  issueAlone (.ectlBayin f) (semEctlBayin f) s

/-- R359: scratchpad bytes to global memory. -/
def semEctlSpout (_f : FormGAB) : OpSem := ectlSem 2 fun e => e.b.v.toNat

/-- ectl.spout (R359). -/
def execEctlSpout (f : FormGAB) (s : State) : Host.Outcome State Fault Refusal :=
  issueAlone (.ectlSpout f) (semEctlSpout f) s

/-- R359: scratchpad bytes from global memory. -/
def semEctlSpin (_f : FormGAB) : OpSem := ectlSem 3 fun e => e.b.v.toNat

/-- ectl.spin (R359). -/
def execEctlSpin (f : FormGAB) (s : State) : Host.Outcome State Fault Refusal :=
  issueAlone (.ectlSpin f) (semEctlSpin f) s

/-- R359: the accumulator store to global memory. -/
def semEctlAccout (_f : FormGAB) : OpSem := ectlSem 4 fun _ => 0x40000

/-- ectl.accout (R359). -/
def execEctlAccout (f : FormGAB) (s : State) : Host.Outcome State Fault Refusal :=
  issueAlone (.ectlAccout f) (semEctlAccout f) s

/-- R359: the accumulator store from global memory. -/
def semEctlAccin (_f : FormGAB) : OpSem := ectlSem 5 fun _ => 0x40000

/-- ectl.accin (R359). -/
def execEctlAccin (f : FormGAB) (s : State) : Host.Outcome State Fault Refusal :=
  issueAlone (.ectlAccin f) (semEctlAccin f) s

/-- The kill of the acting tile's work item (R359): with a fatal verdict standing, its boundary and STATUS apply (R430). -/
def State.ectlKill (s : State) (code : Nat) : State :=
  match s.me.seg.fatal with
  | some (c, e) => s.fatalContained s.cur c code e
  | none => s.killItem s.cur { status := 2, code := 0, killCode := code, cause := 0, unitKind := 0, unitPlace := 0 } false

/-- R359: the work item ends as killed; CTX_STATE becomes 0b11. -/
def semEctlKill (_f : FormGAB) : OpSem :=
  commandSem (fun _ s => if s.me.priv.ectl.isEmpty then [] else ectlFault 6)
    (fun e s => (s.ectlKill (e.b.v.toNat % 65536)).mapMe fun t => t.mapPriv fun p => { p with ctxState := 0b11 }) nothing

/-- ectl.kill (R359). -/
def execEctlKill (f : FormGAB) (s : State) : Host.Outcome State Fault Refusal :=
  issueAlone (.ectlKill f) (semEctlKill f) s

/-! ## The transfers -/

/-- The bytes of the accumulator store, with the POISON of each 8-byte word (R359). -/
def Acc.bytes (a : Acc) : List (Byte × Bool) :=
  ((List.range 0x8000).map fun w =>
    let lo := a.get (2 * w)
    let hi := a.get (2 * w + 1)
    let p := lo.tag.isPoison || hi.tag.isPoison
    (leBytes 4 lo.v.toNat ++ leBytes 4 hi.v.toNat).map fun b => (b, p)).flatten

/-- The accumulator store that bytes give (R359). -/
def accOf (bs : List (Byte × Bool)) : Acc :=
  (List.range 0x10000).foldl (fun (a : Acc) k =>
    let cell := (bs.drop (4 * k)).take 4
    a.put k { v := BitVec.ofNat 32 (leNat (cell.map Prod.fst)), tag := if cell.any Prod.snd then accPoison k else .valid })
    { vals := [], poison := [] }

/-- Whether an ectl action reads the tile and writes global memory. -/
def Ectl.outward (e : Ectl) : Bool := e.minor % 2 = 0

/-- The bytes that an outward transfer carries. -/
def Tile.ectlBytes (t : Tile) (e : Ectl) : List (Byte × Bool) :=
  let spad := fun (a n : Nat) => (List.range n).map fun k => (readCell t.spad.bytes (a + k), t.spad.poisoned (a + k))
  match e.minor with
  | 0 => spad Config.saveBay 0xF000
  | 2 => spad 0 e.len
  | _ => t.mx.acc.bytes

/-- The bytes of an inward transfer written to the tile. -/
def Tile.ectlTake (t : Tile) (e : Ectl) (bs : List (Byte × Bool)) : Tile :=
  match e.minor with
  | 1 => t.engineWrite (byteWrite Config.saveBay bs)
  | 3 => t.engineWrite (byteWrite 0 bs)
  | _ => { t with mx := { t.mx with acc := accOf bs } }

/-- The pages of a transfer: an address and a length each. -/
def pagesOf : Nat → Nat → Nat → List (Nat × Nat)
  | 0, _, _ => []
  | fuel + 1, va, n =>
    if n = 0 then []
    else
      let k := min n (2 ^ 16 - va % 2 ^ 16)
      (va, k) :: pagesOf fuel (va + k) (n - k)

/-- The locations of a transfer's pages, or the first engine fault that it meets, with its address (R359, R389, R397). -/
def State.ectlPages (s : State) (p : PartNo) (e : Ectl) : Except (Nat × Nat × Nat × Nat) (List (Loc × Nat)) :=
  (pagesOf (e.len / 2 ^ 16 + 2) e.va e.len).foldl (fun (acc : Except (Nat × Nat × Nat × Nat) (List (Loc × Nat))) pg =>
    match acc with
    | .error x => .error x
    | .ok l => match s.privWalk p pg.1 with
      | .error d => .error (1, d, pg.1, 0)
      | .ok leaf => match s.homeCheck p (leaf.loc pg.1) e.outward with
        | some d => .error (3, d, pg.1, (leaf.loc pg.1).pa)
        | none => .ok (l ++ [(leaf.loc pg.1, pg.2)])) (.ok [])

/-- Bytes written to locations in turn. -/
def State.writeLocs (s : State) : List (Loc × Nat) → List (Byte × Bool) → State
  | [], _ => s
  | l :: rest, bs => (s.writeLoc l.1 (bs.take l.2)).writeLocs rest (bs.drop l.2)

/-- The oldest ectl transfer of the acting tile completes, or meets an engine fault and waits (R359); one to a frame that moves, to a home being
reset, or to host memory with the Gallery die lost, is held (R401, R433, R439). -/
def execEctlTransferComplete (s : State) : Host.Outcome State Fault Refusal :=
  match s.me.priv.ectl with
  | [] => .next s
  | e :: rest =>
    if e.fault.isSome then .next s
    else match s.ectlPages (s.partOf s.cur) e with
      | .error (k, d, va, pa) =>
        let s0 := if k = 3 then s.refuse (homeDie pa) s.cur d pa else s
        let s1 := s0.mapMe fun t => t.mapPriv fun p => { p with ectl := { e with fault := some (k, d) } :: rest }
        .next (if s.me.priv.ef.standing then s1 else s1.reportFault s.cur (k, d) true va e.addr e.cycle)
      | .ok ls =>
        if ls.any fun l => s.heldAt (if e.outward then .write else .read) l.1 then .next s else
        let s1 := if e.outward then s.writeLocs ls (s.me.ectlBytes e)
          else s.mapMe fun t => t.ectlTake e (ls.map fun l => s.readLoc l.1 l.2).flatten
        .next ((s1.mapMe fun t => t.mapPriv fun p => { p with ectl := rest }).parkDone s.cur)

end Sys2Proof.Machine
end

