-- ==== Sys2Proof/Machine/Scalar.lean ====
section
/-! DEFINITION. The S-slot operations (chapter 08): each over the frame of R177. -/
namespace Sys2Proof.Machine

/-! ## The frame of R177 and the arithmetic -/

/-- The join of the tags of the operands read (R56). -/
def Env.tags (e : Env) : Tag :=
  tagJoin (e.vals.map fun p => match p.2 with | .sc x => x.tag | .ve _ => .valid)

/-- An S operation that pushes a result of its A and B operands (R177). -/
def binarySem (lat : Nat) (f : Word → Word → Word) : OpSem :=
  OpSem.scalar lat fun e s =>
    e.pushScalar lat (if e.tags = .valid then validWord (f e.a.v e.b.v) else { v := 0, tag := e.tags }) s

/-- An S operation that pushes a result of its A operand (R177). -/
def unarySem (lat : Nat) (f : Word → Word) : OpSem := binarySem lat fun a _ => f a

/-- An S operation that pushes one operand with its tag, chosen by tags or guards, in place of the join of R177. -/
def chooseSem (f : Env → State → Scalar) : OpSem :=
  OpSem.scalar 1 fun e s => e.pushScalar 1 (f e s) s

/-- A carry or borrow operation (R183): the result and the carry from a, b and the carry in; the carry in is read from
the pair's even guard where `chain` holds, its tag joining the operands'. -/
def carrySem (j : BitVec 3) (chain : Bool) (f : Nat → Nat → Nat → Word × Bool) : OpSem :=
  { dyn := fun _ _ => [], wait := fun _ _ => [],
    run := fun e s =>
      let g := vget s.me.ctx.g (2 * j.toNat)
      let tg := if chain ∧ g.void then e.tags.join .void else e.tags
      if tg.isPoison then e.consume tg s
      else if tg = .void then e.putGuards j.toNat guardPairVoid (e.pushScalar 1 zeroVoid s)
      else
        let r := f e.a.v.toNat e.b.v.toNat (if chain ∧ g.val then 1 else 0)
        e.putGuards j.toNat (guardPair r.2) (e.pushScalar 1 (validWord r.1) s)
    off := fun e s => e.putGuards j.toNat guardPairVoid (e.pushScalar 1 zeroVoid s) }

/-- A compare that writes a guard pair (R62, R186). -/
def compareSem (j : BitVec 3) (f : Word → Word → Bool) : OpSem :=
  { dyn := fun _ _ => [], wait := fun _ _ => [],
    run := fun e s =>
      if e.tags.isPoison then e.consume e.tags s
      else if e.tags = .void then e.putGuards j.toNat guardPairVoid s
      else e.putGuards j.toNat (guardPair (f e.a.v e.b.v)) s
    off := fun e s => e.putGuards j.toNat guardPairVoid s }

/-- Guard logic (R187): each operand guard inverted by its bit 4; a VOID operand makes the pair VOID. -/
def guardSem (f : FormSL) (op : Bool → Bool → Bool) : OpSem :=
  { dyn := fun _ _ => [], wait := fun _ _ => [],
    run := fun e s =>
      let x := vget s.me.ctx.g (f.ga.toNat % 16)
      let y := vget s.me.ctx.g (f.gb.toNat % 16)
      if x.void ∨ y.void then e.putGuards f.pair.toNat guardPairVoid s
      else e.putGuards f.pair.toNat (guardPair (op (x.val ^^ f.ga.getLsbD 4) (y.val ^^ f.gb.getLsbD 4))) s
    off := fun e s => e.putGuards f.pair.toNat guardPairVoid s }

/-- The carry-less product of two words (R180). -/
def clmulNat (a b : Nat) : Nat :=
  (List.range 64).foldl (fun p k => if b.testBit k then p ^^^ (a <<< k) else p) 0

/-- The number of 0 bits above the highest 1 bit, 64 for 0 (R180). -/
def clz64 (a : Word) : Nat := ((List.range 64).find? fun k => a.getLsbD (63 - k)).getD 64

/-- The number of 0 bits below the lowest 1 bit, 64 for 0 (R180). -/
def ctz64 (a : Word) : Nat := ((List.range 64).find? fun k => a.getLsbD k).getD 64

/-- Bits in reverse order (R180). -/
def brev64 (a : Word) : Word := BitVec.ofNat 64 (bitsOfList ((List.range 64).map fun k => a.getLsbD (63 - k)))

/-- Bytes in reverse order (R180). -/
def bswap64 (a : Word) : Word := BitVec.ofNat 64 (leNat (leBytes 8 a.toNat).reverse)

/-- Signed quotient and remainder of R184. -/
def divS (a b : Int) : Int × Int :=
  if b = 0 then (-1, a) else (a.tdiv b, a - a.tdiv b * b)

/-- Unsigned quotient and remainder of R184. -/
def divZ (a b : Nat) : Nat × Nat := if b = 0 then (2 ^ 64 - 1, a) else (a / b, a % b)

/-- Position and width of a bit field, shortened to end at bit 63 (R185). -/
def bitField (b : Word) : Nat × Nat :=
  let pos := b.toNat % 64
  (pos, min (b.toNat / 256 % 64 + 1) (64 - pos))

/-- bfins (R185): the field of d replaced. -/
def bfinsWord (d a b : Word) : Word :=
  let p := bitField b
  let m := 2 ^ p.2 - 1
  BitVec.ofNat 64 (d.toNat - d.toNat / 2 ^ p.1 % 2 ^ p.2 * 2 ^ p.1 + a.toNat % (m + 1) * 2 ^ p.1)

/-- The result and carry of an addition with a carry in (R183). -/
def addCarry (a b c : Nat) : Word × Bool := (BitVec.ofNat 64 (a + b + c), decide (2 ^ 64 ≤ a + b + c))

/-- The result and borrow of a subtraction with a borrow in (R183). -/
def subBorrow (a b c : Nat) : Word × Bool := (BitVec.ofInt 64 ((a : Int) - b - c), decide (a < b + c))

/-! ## The operations -/

/-- R180: a. -/
def semMov (_f : FormSU) : OpSem :=
  unarySem 1 id

/-- mov: R180: a. -/
def execMov (f : FormSU) (s : State) : Host.Outcome State Fault Refusal :=
  issueAlone (.mov f) (semMov f) s

/-- R180: (a + b) mod 2^64. -/
def semAdd (_f : FormSA) : OpSem :=
  binarySem 1 (· + ·)

/-- add: R180: (a + b) mod 2^64. -/
def execAdd (f : FormSA) (s : State) : Host.Outcome State Fault Refusal :=
  issueAlone (.add f) (semAdd f) s

/-- R180: (a - b) mod 2^64. -/
def semSub (_f : FormSA) : OpSem :=
  binarySem 1 (· - ·)

/-- sub: R180: (a - b) mod 2^64. -/
def execSub (f : FormSA) (s : State) : Host.Outcome State Fault Refusal :=
  issueAlone (.sub f) (semSub f) s

/-- R183: the sum, its carry to the pair. -/
def semAddo (f : FormSC) : OpSem :=
  carrySem f.j false addCarry

/-- addo: R183: the sum, its carry to the pair. -/
def execAddo (f : FormSC) (s : State) : Host.Outcome State Fault Refusal :=
  issueAlone (.addo f) (semAddo f) s

/-- R183: the sum with the carry in, its carry to the pair. -/
def semAddc (f : FormSC) : OpSem :=
  carrySem f.j true addCarry

/-- addc: R183: the sum with the carry in, its carry to the pair. -/
def execAddc (f : FormSC) (s : State) : Host.Outcome State Fault Refusal :=
  issueAlone (.addc f) (semAddc f) s

/-- R183: the difference, its borrow to the pair. -/
def semSubo (f : FormSC) : OpSem :=
  carrySem f.j false subBorrow

/-- subo: R183: the difference, its borrow to the pair. -/
def execSubo (f : FormSC) (s : State) : Host.Outcome State Fault Refusal :=
  issueAlone (.subo f) (semSubo f) s

/-- R183: the difference with the borrow in, its borrow to the pair. -/
def semSubc (f : FormSC) : OpSem :=
  carrySem f.j true subBorrow

/-- subc: R183: the difference with the borrow in, its borrow to the pair. -/
def execSubc (f : FormSC) (s : State) : Host.Outcome State Fault Refusal :=
  issueAlone (.subc f) (semSubc f) s

/-- R180: (a × b) mod 2^64. -/
def semMul (_f : FormSA) : OpSem :=
  binarySem 3 (· * ·)

/-- mul: R180: (a × b) mod 2^64. -/
def execMul (f : FormSA) (s : State) : Host.Outcome State Fault Refusal :=
  issueAlone (.mul f) (semMul f) s

/-- R180: bits [127:64] of the signed product. -/
def semMulhS64 (_f : FormSA) : OpSem :=
  binarySem 4 fun a b => BitVec.ofInt 64 (Int.fdiv (a.toInt * b.toInt) (2 ^ 64))

/-- mulhS64: R180: bits [127:64] of the signed product. -/
def execMulhS64 (f : FormSA) (s : State) : Host.Outcome State Fault Refusal :=
  issueAlone (.mulhS64 f) (semMulhS64 f) s

/-- R180: bits [127:64] of the unsigned product. -/
def semMulhZ64 (_f : FormSA) : OpSem :=
  binarySem 4 fun a b => BitVec.ofNat 64 (a.toNat * b.toNat / 2 ^ 64)

/-- mulhZ64: R180: bits [127:64] of the unsigned product. -/
def execMulhZ64 (f : FormSA) (s : State) : Host.Outcome State Fault Refusal :=
  issueAlone (.mulhZ64 f) (semMulhZ64 f) s

/-- R184: the signed quotient. -/
def semDivS64 (_f : FormSA) : OpSem :=
  binarySem 20 fun a b => BitVec.ofInt 64 (divS a.toInt b.toInt).1

/-- divS64: R184: the signed quotient. -/
def execDivS64 (f : FormSA) (s : State) : Host.Outcome State Fault Refusal :=
  issueAlone (.divS64 f) (semDivS64 f) s

/-- R184: the unsigned quotient. -/
def semDivZ64 (_f : FormSA) : OpSem :=
  binarySem 20 fun a b => BitVec.ofNat 64 (divZ a.toNat b.toNat).1

/-- divZ64: R184: the unsigned quotient. -/
def execDivZ64 (f : FormSA) (s : State) : Host.Outcome State Fault Refusal :=
  issueAlone (.divZ64 f) (semDivZ64 f) s

/-- R184: the signed remainder. -/
def semRemS64 (_f : FormSA) : OpSem :=
  binarySem 20 fun a b => BitVec.ofInt 64 (divS a.toInt b.toInt).2

/-- remS64: R184: the signed remainder. -/
def execRemS64 (f : FormSA) (s : State) : Host.Outcome State Fault Refusal :=
  issueAlone (.remS64 f) (semRemS64 f) s

/-- R184: the unsigned remainder. -/
def semRemZ64 (_f : FormSA) : OpSem :=
  binarySem 20 fun a b => BitVec.ofNat 64 (divZ a.toNat b.toNat).2

/-- remZ64: R184: the unsigned remainder. -/
def execRemZ64 (f : FormSA) (s : State) : Host.Outcome State Fault Refusal :=
  issueAlone (.remZ64 f) (semRemZ64 f) s

/-- R180: the lesser signed. -/
def semMinS64 (_f : FormSA) : OpSem :=
  binarySem 1 fun a b => if a.toInt ≤ b.toInt then a else b

/-- minS64: R180: the lesser signed. -/
def execMinS64 (f : FormSA) (s : State) : Host.Outcome State Fault Refusal :=
  issueAlone (.minS64 f) (semMinS64 f) s

/-- R180: the lesser unsigned. -/
def semMinZ64 (_f : FormSA) : OpSem :=
  binarySem 1 fun a b => if a.toNat ≤ b.toNat then a else b

/-- minZ64: R180: the lesser unsigned. -/
def execMinZ64 (f : FormSA) (s : State) : Host.Outcome State Fault Refusal :=
  issueAlone (.minZ64 f) (semMinZ64 f) s

/-- R180: the greater signed. -/
def semMaxS64 (_f : FormSA) : OpSem :=
  binarySem 1 fun a b => if b.toInt ≤ a.toInt then a else b

/-- maxS64: R180: the greater signed. -/
def execMaxS64 (f : FormSA) (s : State) : Host.Outcome State Fault Refusal :=
  issueAlone (.maxS64 f) (semMaxS64 f) s

/-- R180: the greater unsigned. -/
def semMaxZ64 (_f : FormSA) : OpSem :=
  binarySem 1 fun a b => if b.toNat ≤ a.toNat then a else b

/-- maxZ64: R180: the greater unsigned. -/
def execMaxZ64 (f : FormSA) (s : State) : Host.Outcome State Fault Refusal :=
  issueAlone (.maxZ64 f) (semMaxZ64 f) s

/-- R180: bitwise and. -/
def semAndOp (_f : FormSA) : OpSem :=
  binarySem 1 (· &&& ·)

/-- andOp: R180: bitwise and. -/
def execAndOp (f : FormSA) (s : State) : Host.Outcome State Fault Refusal :=
  issueAlone (.andOp f) (semAndOp f) s

/-- R180: bitwise or. -/
def semOrOp (_f : FormSA) : OpSem :=
  binarySem 1 (· ||| ·)

/-- orOp: R180: bitwise or. -/
def execOrOp (f : FormSA) (s : State) : Host.Outcome State Fault Refusal :=
  issueAlone (.orOp f) (semOrOp f) s

/-- R180: bitwise exclusive or. -/
def semXorOp (_f : FormSA) : OpSem :=
  binarySem 1 (· ^^^ ·)

/-- xorOp: R180: bitwise exclusive or. -/
def execXorOp (f : FormSA) (s : State) : Host.Outcome State Fault Refusal :=
  issueAlone (.xorOp f) (semXorOp f) s

/-- R180: a and not b. -/
def semAndn (_f : FormSA) : OpSem :=
  binarySem 1 fun a b => a &&& ~~~b

/-- andn: R180: a and not b. -/
def execAndn (f : FormSA) (s : State) : Host.Outcome State Fault Refusal :=
  issueAlone (.andn f) (semAndn f) s

/-- R181: shift left by b[5:0]. -/
def semShl (_f : FormSA) : OpSem :=
  binarySem 1 fun a b => a <<< (b.toNat % 64)

/-- shl: R181: shift left by b[5:0]. -/
def execShl (f : FormSA) (s : State) : Host.Outcome State Fault Refusal :=
  issueAlone (.shl f) (semShl f) s

/-- R181: shift right by b[5:0], zeros in. -/
def semShrZ64 (_f : FormSA) : OpSem :=
  binarySem 1 fun a b => a >>> (b.toNat % 64)

/-- shrZ64: R181: shift right by b[5:0], zeros in. -/
def execShrZ64 (f : FormSA) (s : State) : Host.Outcome State Fault Refusal :=
  issueAlone (.shrZ64 f) (semShrZ64 f) s

/-- R181: shift right by b[5:0], the sign in. -/
def semShrS64 (_f : FormSA) : OpSem :=
  binarySem 1 fun a b => a.sshiftRight (b.toNat % 64)

/-- shrS64: R181: shift right by b[5:0], the sign in. -/
def execShrS64 (f : FormSA) (s : State) : Host.Outcome State Fault Refusal :=
  issueAlone (.shrS64 f) (semShrS64 f) s

/-- R181: rotate left by b[5:0]. -/
def semRotl (_f : FormSA) : OpSem :=
  binarySem 1 fun a b => a.rotateLeft (b.toNat % 64)

/-- rotl: R181: rotate left by b[5:0]. -/
def execRotl (f : FormSA) (s : State) : Host.Outcome State Fault Refusal :=
  issueAlone (.rotl f) (semRotl f) s

/-- R181: rotate right by b[5:0]. -/
def semRotr (_f : FormSA) : OpSem :=
  binarySem 1 fun a b => a.rotateRight (b.toNat % 64)

/-- rotr: R181: rotate right by b[5:0]. -/
def execRotr (f : FormSA) (s : State) : Host.Outcome State Fault Refusal :=
  issueAlone (.rotr f) (semRotr f) s

/-- R180: leading zeros. -/
def semClz (_f : FormSU) : OpSem :=
  unarySem 2 fun a => word (clz64 a)

/-- clz: R180: leading zeros. -/
def execClz (f : FormSU) (s : State) : Host.Outcome State Fault Refusal :=
  issueAlone (.clz f) (semClz f) s

/-- R180: trailing zeros. -/
def semCtz (_f : FormSU) : OpSem :=
  unarySem 2 fun a => word (ctz64 a)

/-- ctz: R180: trailing zeros. -/
def execCtz (f : FormSU) (s : State) : Host.Outcome State Fault Refusal :=
  issueAlone (.ctz f) (semCtz f) s

/-- R180: one bits. -/
def semPopc (_f : FormSU) : OpSem :=
  unarySem 2 fun a => word (popN a.toNat 64)

/-- popc: R180: one bits. -/
def execPopc (f : FormSU) (s : State) : Host.Outcome State Fault Refusal :=
  issueAlone (.popc f) (semPopc f) s

/-- R180: bits reversed. -/
def semBrev (_f : FormSU) : OpSem :=
  unarySem 2 brev64

/-- brev: R180: bits reversed. -/
def execBrev (f : FormSU) (s : State) : Host.Outcome State Fault Refusal :=
  issueAlone (.brev f) (semBrev f) s

/-- R180: bytes reversed. -/
def semBswap (_f : FormSU) : OpSem :=
  unarySem 2 bswap64

/-- bswap: R180: bytes reversed. -/
def execBswap (f : FormSU) (s : State) : Host.Outcome State Fault Refusal :=
  issueAlone (.bswap f) (semBswap f) s

/-- R185: a field, sign-extended. -/
def semBfextS64 (_f : FormSA) : OpSem :=
  binarySem 2 fun a b => BitVec.ofInt 64 (sextN (a.toNat >>> (bitField b).1) (bitField b).2)

/-- bfextS64: R185: a field, sign-extended. -/
def execBfextS64 (f : FormSA) (s : State) : Host.Outcome State Fault Refusal :=
  issueAlone (.bfextS64 f) (semBfextS64 f) s

/-- R185: a field, zero-extended. -/
def semBfextZ64 (_f : FormSA) : OpSem :=
  binarySem 2 fun a b => word ((a.toNat >>> (bitField b).1) % 2 ^ (bitField b).2)

/-- bfextZ64: R185: a field, zero-extended. -/
def execBfextZ64 (f : FormSA) (s : State) : Host.Outcome State Fault Refusal :=
  issueAlone (.bfextZ64 f) (semBfextZ64 f) s

/-- R185: a field of d replaced. -/
def semBfins (_f : FormSA) : OpSem :=
  OpSem.scalar 2 fun e s =>
    e.pushScalar 2 (if e.tags = .valid then validWord (bfinsWord e.d.v e.a.v e.b.v) else { v := 0, tag := e.tags }) s

/-- bfins: R185: a field of d replaced. -/
def execBfins (f : FormSA) (s : State) : Host.Outcome State Fault Refusal :=
  issueAlone (.bfins f) (semBfins f) s

/-- R180: the low carry-less product. -/
def semClmul (_f : FormSA) : OpSem :=
  binarySem 3 fun a b => word (clmulNat a.toNat b.toNat)

/-- clmul: R180: the low carry-less product. -/
def execClmul (f : FormSA) (s : State) : Host.Outcome State Fault Refusal :=
  issueAlone (.clmul f) (semClmul f) s

/-- R180: the high carry-less product. -/
def semClmulh (_f : FormSA) : OpSem :=
  binarySem 3 fun a b => word (clmulNat a.toNat b.toNat / 2 ^ 64)

/-- clmulh: R180: the high carry-less product. -/
def execClmulh (f : FormSA) (s : State) : Host.Outcome State Fault Refusal :=
  issueAlone (.clmulh f) (semClmulh f) s

/-- R186: a signed compare. -/
def semCmpS64 (f : FormSP) : OpSem :=
  compareSem f.pair fun a b => cmpInt f.cond.toNat a.toInt b.toInt

/-- cmpS64: R186: a signed compare. -/
def execCmpS64 (f : FormSP) (s : State) : Host.Outcome State Fault Refusal :=
  issueAlone (.cmpS64 f) (semCmpS64 f) s

/-- R186: an unsigned compare. -/
def semCmpZ64 (f : FormSP) : OpSem :=
  compareSem f.pair fun a b => cmpNat f.cond.toNat a.toNat b.toNat

/-- cmpZ64: R186: an unsigned compare. -/
def execCmpZ64 (f : FormSP) (s : State) : Host.Outcome State Fault Refusal :=
  issueAlone (.cmpZ64 f) (semCmpZ64 f) s

/-- R187: and of two guards. -/
def semGdand (f : FormSL) : OpSem :=
  guardSem f (fun x y => x && y)

/-- gdand: R187: and of two guards. -/
def execGdand (f : FormSL) (s : State) : Host.Outcome State Fault Refusal :=
  issueAlone (.gdand f) (semGdand f) s

/-- R187: or of two guards. -/
def semGdor (f : FormSL) : OpSem :=
  guardSem f (fun x y => x || y)

/-- gdor: R187: or of two guards. -/
def execGdor (f : FormSL) (s : State) : Host.Outcome State Fault Refusal :=
  issueAlone (.gdor f) (semGdor f) s

/-- R187: exclusive or of two guards. -/
def semGdxor (f : FormSL) : OpSem :=
  guardSem f (fun x y => x ^^ y)

/-- gdxor: R187: exclusive or of two guards. -/
def execGdxor (f : FormSL) (s : State) : Host.Outcome State Fault Refusal :=
  issueAlone (.gdxor f) (semGdxor f) s

/-- R188: the operand that the pair's even guard selects. -/
def semSel (f : FormSC) : OpSem :=
  chooseSem fun e s =>
    let g := vget s.me.ctx.g (2 * f.j.toNat)
    if g.void then zeroVoid else if g.val then e.a else e.b

/-- sel: R188: the operand that the pair's even guard selects. -/
def execSel (f : FormSC) (s : State) : Host.Outcome State Fault Refusal :=
  issueAlone (.sel f) (semSel f) s

/-- R180: a + b × 2^sh. -/
def semLea (f : FormSLea) : OpSem :=
  binarySem 1 fun a b => a + (b <<< f.sh.toNat)

/-- lea: R180: a + b × 2^sh. -/
def execLea (f : FormSLea) (s : State) : Host.Outcome State Fault Refusal :=
  issueAlone (.lea f) (semLea f) s

/-- R189: the code of a's tag. -/
def semTagof (_f : FormSU) : OpSem :=
  chooseSem fun e _ => validWord (word e.a.tag.code)

/-- tagof: R189: the code of a's tag. -/
def execTagof (f : FormSU) (s : State) : Host.Outcome State Fault Refusal :=
  issueAlone (.tagof f) (semTagof f) s

/-- R190: b where a is VOID. -/
def semDflt (_f : FormSA) : OpSem :=
  chooseSem fun e _ =>
    match e.a.tag with
    | .valid => e.a
    | .poison o => { v := 0, tag := .poison o }
    | .void => e.b

/-- dflt: R190: b where a is VOID. -/
def execDflt (f : FormSA) (s : State) : Host.Outcome State Fault Refusal :=
  issueAlone (.dflt f) (semDflt f) s

/-- R191, R192, R338: a control register; a read of 0x157 waits for its value (19 Table 19.5). -/
def semRdctl (f : FormSR) : OpSem :=
  { OpSem.scalar 2 (fun e s =>
      let s1 := e.pushScalar 2 (validWord (s.readCtl f.cr.toNat)) s
      if f.cr.toNat = 0x130 then s1.mapMe fun t => { t with dfr := { t.dfr with popSig := true } } else s1) with
    wait := fun _ s => if f.cr.toNat = 0x157 ∧ s.me.xlat.walkPending then [.xlat] else [] }

/-- rdctl: R191, R192, R338: a control register; a read of 0x157 waits for its value (19 Table 19.5). -/
def execRdctl (f : FormSR) (s : State) : Host.Outcome State Fault Refusal :=
  issueAlone (.rdctl f) (semRdctl f) s

/-- R180: the low 8, 16 or 32 bits, sign-extended. -/
def semSxt (f : FormSW) : OpSem :=
  unarySem 1 fun a => BitVec.ofInt 64 (sextN a.toNat (8 * 2 ^ f.w.toNat))

/-- sxt: R180: the low 8, 16 or 32 bits, sign-extended. -/
def execSxt (f : FormSW) (s : State) : Host.Outcome State Fault Refusal :=
  issueAlone (.sxt f) (semSxt f) s

/-- R180: the low 8, 16 or 32 bits, zero-extended. -/
def semZxt (f : FormSW) : OpSem :=
  unarySem 1 fun a => word (a.toNat % 2 ^ (8 * 2 ^ f.w.toNat))

/-- zxt: R180: the low 8, 16 or 32 bits, zero-extended. -/
def execZxt (f : FormSW) (s : State) : Host.Outcome State Fault Refusal :=
  issueAlone (.zxt f) (semZxt f) s

end Sys2Proof.Machine
end

