-- ==== Sys2Proof/Machine/Issue.lean ====
section
/-! DEFINITION. Cycles of a tile (chapters 05 and 07): the issue of a bundle, presented and by sticky re-issue, wait and bubble
cycles, of the kernel and of the handler; and the matrix engine's cycles after a work item's last. -/
namespace Sys2Proof.Machine

/-- A slot that issues nothing. -/
def OpSem.idle : OpSem := OpSem.plain fun _ s => s

/-- What each slot operation does at an issue; an event never stands in a slot. -/
def slotSem (i : Instr) : OpSem :=
  match i with
  | .mov f => semMov f
  | .add f => semAdd f
  | .sub f => semSub f
  | .addo f => semAddo f
  | .addc f => semAddc f
  | .subo f => semSubo f
  | .subc f => semSubc f
  | .mul f => semMul f
  | .mulhS64 f => semMulhS64 f
  | .mulhZ64 f => semMulhZ64 f
  | .divS64 f => semDivS64 f
  | .divZ64 f => semDivZ64 f
  | .remS64 f => semRemS64 f
  | .remZ64 f => semRemZ64 f
  | .minS64 f => semMinS64 f
  | .minZ64 f => semMinZ64 f
  | .maxS64 f => semMaxS64 f
  | .maxZ64 f => semMaxZ64 f
  | .andOp f => semAndOp f
  | .orOp f => semOrOp f
  | .xorOp f => semXorOp f
  | .andn f => semAndn f
  | .shl f => semShl f
  | .shrZ64 f => semShrZ64 f
  | .shrS64 f => semShrS64 f
  | .rotl f => semRotl f
  | .rotr f => semRotr f
  | .clz f => semClz f
  | .ctz f => semCtz f
  | .popc f => semPopc f
  | .brev f => semBrev f
  | .bswap f => semBswap f
  | .bfextS64 f => semBfextS64 f
  | .bfextZ64 f => semBfextZ64 f
  | .bfins f => semBfins f
  | .clmul f => semClmul f
  | .clmulh f => semClmulh f
  | .cmpS64 f => semCmpS64 f
  | .cmpZ64 f => semCmpZ64 f
  | .gdand f => semGdand f
  | .gdor f => semGdor f
  | .gdxor f => semGdxor f
  | .sel f => semSel f
  | .lea f => semLea f
  | .tagof f => semTagof f
  | .dflt f => semDflt f
  | .rdctl f => semRdctl f
  | .sxt f => semSxt f
  | .zxt f => semZxt f
  | .prepOffset f => semPrepOffset f
  | .prepRegister f => semPrepRegister f
  | .br f => semBr f
  | .call f => semCall f
  | .ret f => semRet f
  | .loop f => semLoop f
  | .lbrk f => semLbrk f
  | .semwImmediate f => semSemwImmediate f
  | .semwRegister f => semSemwRegister f
  | .waitw f => semWaitw f
  | .stepMark f => semStepMark f
  | .brk f => semBrk f
  | .trap f => semTrap f
  | .sys f => semSys f
  | .endItem f => semEndItem f
  | .chkctl f => semChkctl f
  | .dblctl f => semDblctl f
  | .ctrap f => semCtrap f
  | .commit f => semCommit f
  | .wrctl f => semWrctl f
  | .setctl f => semSetctl f
  | .clrctl f => semClrctl f
  | .rft f => semRft f
  | .xlinv f => semXlinv f
  | .ctxsave f => semCtxsave f
  | .ctxload f => semCtxload f
  | .ldS8 f => semLdS8 f
  | .ldZ8 f => semLdZ8 f
  | .ldS16 f => semLdS16 f
  | .ldZ16 f => semLdZ16 f
  | .ldS32 f => semLdS32 f
  | .ldZ32 f => semLdZ32 f
  | .ldZ64 f => semLdZ64 f
  | .stZ8 f => semStZ8 f
  | .stZ16 f => semStZ16 f
  | .stZ32 f => semStZ32 f
  | .stZ64 f => semStZ64 f
  | .vld f => semVld f
  | .vst f => semVst f
  | .vlds f => semVlds f
  | .vsts f => semVsts f
  | .vldx f => semVldx f
  | .vstx f => semVstx f
  | .vldr f => semVldr f
  | .hbind f => semHbind f
  | .hunbind f => semHunbind f
  | .ladd f => semLadd f
  | .lminS64 f => semLminS64 f
  | .lminZ64 f => semLminZ64 f
  | .lmaxS64 f => semLmaxS64 f
  | .lmaxZ64 f => semLmaxZ64 f
  | .lxch f => semLxch f
  | .lcas f => semLcas f
  | .vmov f => semVmov f
  | .vsel f => semVsel f
  | .vchk f => semVchk f
  | .vcvt f => semVcvt f
  | .vand f => semVand f
  | .vor f => semVor f
  | .vxor f => semVxor f
  | .vshl f => semVshl f
  | .vshrZ32 f => semVshrZ32 f
  | .vshrS32 f => semVshrS32 f
  | .vperm f => semVperm f
  | .vbcast f => semVbcast f
  | .vaddS32 f => semVaddS32 f
  | .vsubS32 f => semVsubS32 f
  | .vmulS32 f => semVmulS32 f
  | .vaddsS32 f => semVaddsS32 f
  | .vminS32 f => semVminS32 f
  | .vminZ32 f => semVminZ32 f
  | .vmaxS32 f => semVmaxS32 f
  | .vmaxZ32 f => semVmaxZ32 f
  | .vcmpS32 f => semVcmpS32 f
  | .vcmpZ32 f => semVcmpZ32 f
  | .vext f => semVext f
  | .vins f => semVins f
  | .vrcpF32 f => semVrcpF32 f
  | .vrsqF32 f => semVrsqF32 f
  | .vitpF32 f => semVitpF32 f
  | .vitpBf16 f => semVitpBf16 f
  | .vaddF f => semVaddF f
  | .vsubF f => semVsubF f
  | .vmulF f => semVmulF f
  | .vfma f => semVfma f
  | .vfnma f => semVfnma f
  | .vminF f => semVminF f
  | .vmaxF f => semVmaxF f
  | .vcmpF f => semVcmpF f
  | .vssum f => semVssum f
  | .vsmin f => semVsmin f
  | .vsmax f => semVsmax f
  | .vsscan f => semVsscan f
  | .vsmean f => semVsmean f
  | .vsvar f => semVsvar f
  | .vssmx f => semVssmx f
  | .xnest f => semXnest f
  | .xbase f => semXbase f
  | .xfmt f => semXfmt f
  | .xsrc f => semXsrc f
  | .xbmp f => semXbmp f
  | .xsdiag f => semXsdiag f
  | .xzero f => semXzero f
  | .xgo f => semXgo f
  | .xdrain f => semXdrain f
  | .xwait f => semXwait f
  | .xstat f => semXstat f
  | .sbind f => semSbind f
  | .sunbind f => semSunbind f
  | .gpush f => semGpush f
  | .copy f => semCopy f
  | .send f => semSend f
  | .rsend f => semRsend f
  | .ssig f => semSsig f
  | .ssigR f => semSsigR f
  | .sinit f => semSinit f
  | .sread f => semSread f
  | .aadd f => semAadd f
  | .aminS64 f => semAminS64 f
  | .aminZ64 f => semAminZ64 f
  | .amaxS64 f => semAmaxS64 f
  | .amaxZ64 f => semAmaxZ64 f
  | .aand f => semAand f
  | .aor f => semAor f
  | .axor f => semAxor f
  | .axch f => semAxch f
  | .acas f => semAcas f
  | .afaddF32 f => semAfaddF32 f
  | .afaddBf16 f => semAfaddBf16 f
  | .fence f => semFence f
  | .launch f => semLaunch f
  | .pref f => semPref f
  | .ectlBayout f => semEctlBayout f
  | .ectlBayin f => semEctlBayin f
  | .ectlSpout f => semEctlSpout f
  | .ectlSpin f => semEctlSpin f
  | .ectlAccout f => semEctlAccout f
  | .ectlAccin f => semEctlAccin f
  | .ectlKill f => semEctlKill f
  | .streamElementFill _ _
  | .streamElementDrain _ _
  | .globalRequestPerform _ _
  | .transferCompletion _ _
  | .semaphoreSignalArrival _
  | .globalAtomicPerform _ _
  | .translationMiss _ _
  | .translationWalkComplete _ _
  | .walkFill _ _
  | .engineFault _ _
  | .efResume _ _
  | .xlShoot _ _
  | .xlShootDone _
  | .homeDieRequest _ _
  | .migCmd _ _
  | .migDecayHalving _ _
  | .frameSet _ _
  | .freePush _ _
  | .resumeWrite _ _
  | .qtail _ _ _
  | .launchCompletion _
  | .gateSig _ _
  | .gateInit _ _
  | .preempt _ _
  | .kill _ _
  | .modeSet _ _
  | .hset _ _
  | .quarantine _ _
  | .governorThresholds _ _ _
  | .resetCmd _
  | .linkFailure _ _
  | .rsendContribution _
  | .groupCfg _
  | .hsumpDone _ _
  | .hostMemWrite _ _
  | .hostMemRead _ _
  | .windowRegisterWrite _ _ _
  | .ringTail _ _
  | .errTail _ _
  | .dbgStopTile _ _
  | .dbgReleaseTile _ _
  | .dbgSingleIssue _ _
  | .dbgHaltDie _ _
  | .dbgReleaseDie _ _
  | .dbgDump _ _
  | .dbgPatch _ _
  | .divergenceHash _
  | .divergedClear _
  | .serviceCommand _
  | .attestationRequest _
  | .powerCap _
  | .engineHardError _
  | .partitionCreate _ _
  | .junctionThrottle _ _
  | .wallTimeDiscipline _
  | .ualinkPortState _ _ _
  | .bundleIssue
  | .waitCycle
  | .bubbleCycle
  | .waitwDeadline
  | .resultArrival
  | .engineCommandPresentation
  | .denseMatrixCycle
  | .matrixBlockZero
  | .drainRowWrite
  | .sparseMatrixStart
  | .sparseMatrixComplete
  | .segmentEntry
  | .segmentRewind
  | .deciderVerdict
  | .trapTaken
  | .semaphoreWaitWatchdog
  | .debugStop
  | .walkData
  | .migrationComplete
  | .refuseLog
  | .signalLog
  | .launchAccept
  | .sumpAdmit
  | .launchEligible
  | .gangPlacement
  | .runResident
  | .gangStart
  | .workItemComplete
  | .sliceExpiry
  | .gangPreemption
  | .contextSaveDone
  | .ectlTransferComplete
  | .gangRestore
  | .marginMeasurement
  | .resetDone
  | .dieFailure
  | .galleryDieLoss
  | .thermalTrip
  | .surveyReportWrite
  | .powerOn
  | .nop => OpSem.idle

/-! ## Fetch (R117, R118, R143, R338) -/

/-- The code region of the context that issues: that of the image, or the handler store. -/
def Tile.codeRegion (t : Tile) : Nat × Nat :=
  if t.priv.active then (0, Config.storeBytes) else (t.img.codeOff, t.img.codeOff + t.img.codeLen)

/-- The header word at an address. -/
def Tile.headerAt (t : Tile) (a : Nat) : Insn := BitVec.ofNat 32 (leNat (readCells t.code a 4))

/-- The slot words after a header. -/
def Tile.wordsAt (t : Tile) (a n : Nat) : List Insn :=
  (List.range n).map fun k => BitVec.ofNat 32 (leNat (readCells t.code (a + 4 + 4 * k) 4))

/-- Whether a bundle lies wholly inside the code region (R118, R143). -/
def Tile.fetchable (t : Tile) (a : Nat) : Bool :=
  let r := t.codeRegion
  decide (r.1 ≤ a ∧ a + 4 ≤ r.2) && decide (a + (Header.ofWord (t.headerAt a)).len ≤ r.2)

/-- The operation that a slot issues when its word is not presented: its sticky one (R69). -/
def stickyIssue (c : Ctx) (s : Slot) : Issue :=
  let st := vget c.sticky s.idx
  { slot := s, op := st.op, ext := st.ext, first := false, latch := st.latch, stepBy := st.stepBy }

/-- The operations that issue together, in slot order: presented words at a first issue, sticky operations elsewhere;
a donor slot issues nothing (R69, R70, R120, R125). -/
def issuesOf (c : Ctx) (h : Header) (ops : List SlotOp) : List (Issue × OpSem) :=
  (Slot.all.filter fun s => !(donors h.limm).contains s).map fun s =>
    let i := match ops.find? fun (o : SlotOp) => o.slot = s with
      | some o => { slot := s, op := o.op, ext := o.ext, first := true, latch := zeroVoid, stepBy := zeroVoid }
      | none => stickyIssue c s
    (i, slotSem i.op)

/-- What the context that issues does next at its resolved position: a cause, POISON in its code, or a batch. -/
inductive Next where
  | cause (c : Cand)
  | poisoned
  | batch (b : Batch)
  deriving Inhabited

/-- The next issue of the context (R118, R120, R143, R345; 20 R415 for poisoned code). An address that is not a multiple of 4, which a
handler may write to RESUME (R349), is a bundle address fault (R117, R141; log 79). -/
def Tile.nextIssue (t : Tile) : Next :=
  let c := t.ctx
  let p := c.pos
  let a := p.addr
  if p.mode ≠ .cont ∧ !t.fetchable a then .cause { cause := 2, sub := 5, slot := 15, value := word a }
  else if a % 4 ≠ 0 then .cause { cause := 1, sub := 0xB, slot := 15, value := word a }
  else
    let hw := t.headerAt a
    let h := Header.ofWord hw
    let extra := boundCands t h
    if !t.priv.active && t.spad.anyPoison a h.len then .poisoned
    else if p.mode = .cont then
      .batch { hdr := h, addr := a, next := a + h.len, first := false, ops := issuesOf c h [], extra := extra }
    else match decodeBundle hw (t.wordsAt a h.slots.length) with
      | .error r => .cause { cause := 1, sub := r.sub, slot := r.slot, value := r.value }
      | .ok b => .batch { hdr := b.hdr, addr := a, next := a + b.hdr.len, first := true, ops := issuesOf c b.hdr b.ops, extra := extra }

/-! ## The physical world (log 10) -/

/-- An upset strikes the tile (R414). An uncorrectable error of the instruction buffer refetches the bundle from the scratchpad and
changes nothing (R415). -/
def Tile.strike (t : Tile) (u : Upset) : Tile :=
  let copy := t.checker.getD (t.k, t.vec)
  let flip := fun (c : Ctx) (n : Nat) (m : Word) =>
    { c with n := vset c.n n { vget c.n n with v := (vget c.n n).v ^^^ m } }
  match u with
  | .reg n m => { t with checker := some copy, k := flip t.k n m }
  | .checkerReg n m => { t with checker := some (flip copy.1 n m, copy.2) }
  | .spad w => { t with spad := t.spad.setPoison w true }
  | .acc e => { t with mx := { t.mx with acc := t.mx.acc.put e { v := 0, tag := accPoison e } } }
  | .shadowRow => { t with dfr := { t.dfr with rowUpset := true } }
  | .ibuf => t
  | .shadowReg n m => { t with priv := { t.priv with shadow := flip t.priv.shadow n m }, shadowCheck := some (t.shadowCheck.getD t.priv.shadow) }
  | .shadowCheckerReg n m => { t with shadowCheck := some (flip (t.shadowCheck.getD t.priv.shadow) n m) }
  | .command =>
    let f := fun (c : Cmd) => { c with ckCopy := some (match c.words with | x :: xs => (x + 1) :: xs | [] => [1]) }
    { t with eng := { t.eng with lag := match t.eng.lag.reverse with
        | c :: rest => (f c :: rest).reverse
        | [] => [] } }

/-- Whether an upset strikes the shadow context. -/
def Upset.shadow : Upset → Bool
  | .shadowReg _ _ | .shadowCheckerReg _ _ => true
  | _ => false

/-- A bit of a named scalar register that is stuck in the tile's copy (24 R479): as an upset where its value is another. -/
def Tile.stuckReg (t : Tile) (p : Nat × Nat × Bool) : Tile :=
  if (vget t.k.n p.1).v.getLsbD p.2.1 = p.2.2 then t else t.strike (.reg p.1 (1#64 <<< p.2.1))

/-- The upsets of a cycle strike, of the kernel or of the shadow context; what is stuck in the kernel's registers does in every one. -/
def Tile.struck (t : Tile) (cycle : Nat) (shadow : Bool) : Tile :=
  let mine := fun (u : Nat × Upset) => decide (u.1 = cycle) && u.2.shadow == shadow
  let t1 := ((t.inp.upsets.filter mine).map Prod.snd).foldl Tile.strike
    { t with inp := { t.inp with upsets := t.inp.upsets.filter fun u => !mine u } }
  if shadow then t1 else t.inp.stuckRegs.foldl Tile.stuckReg t1

/-! ## The kernel's cycles -/

/-- What the kernel waits for before its issue, its checks apart. -/
def State.bundleWaits (s : State) : List Wait :=
  match s.me.nextIssue with
  | .batch b => (checkAll b s).short
  | _ => []

/-- Whether the tile stands frozen on the presentation of commands or on released ones (R170, R268). -/
def Tile.checkerHeld (t : Tile) : Bool := t.lagHeld || !t.eng.released.isEmpty

/-- POISON in the code of the bundle about to issue: an event of class 4, charged to the scratchpad bank at its first poisoned word (R416,
R424). -/
def State.codePoison (s : State) (addr : Nat) : State :=
  s.takeEvent { check := .poison, takenAfter := s.me.k.cycle, addr := addr, cycle := s.me.k.cycle, slot := 15, locs := [],
                copyA := [], copyB := [], unit := 4, detail := s.me.spad.firstBad addr (Header.ofWord (s.me.headerAt addr)).len, doubles := 0 }

/-- An issue of the kernel at its resolved position. What its engine commands wait for has come, or holds the issue back (R170, R268): a
copy that does not match is an event before it (R346). -/
def State.issueKernel (s : State) : State :=
  let s0 := s.mapMe fun t => t.present (s.place s.cur)
  if !s0.me.clear then s0
  else
    let s1 := s0.mapMe fun t =>
      let t1 := t.resolve.1
      { t1 with k := { t1.k with pos := { t1.k.pos with boundary := false } } }
    if s1.me.checkerHeld then s1.waitFreeze 3 s1.bundleWaits
    else
      let s2 := s1.mapMe fun t => t.struck t.k.cycle false
      match s2.me.nextIssue with
      | .cause c => s2.raiseCand c s2.me.k.pos.addr
      | .poisoned => s2.codePoison s2.me.k.pos.addr
      | .batch b => issueBatch b s2

/-- A wait or bubble cycle of the kernel (R71, R165, R175): every latency advances and nothing issues. -/
def State.emptyCycle (s : State) (counter : Nat) (f : Position → Position) : State :=
  let s0 := s.mapMe fun t => t.present (s.place s.cur)
  if !s0.me.clear then s0
  else if s0.me.checkerHeld then
    (s0.freezeAt 3 s0.me.k.pos.depth).mapMe fun t => { t with k := { t.k with pos := { t.k.pos with boundary := false } } }
  else
    (s0.mapMe fun t0 =>
      let t := t0.struck t0.k.cycle false
      let p := t.k.pos
      let t1 := ({ t with counters := t.counters.bump p.depth counter 1 }).endCycle (s.place s.cur) p.addr
      ({ t1 with k := { t1.k with pos := f p }, dbg := { t1.dbg with skip := false } }).atBoundary).tickMe

/-- A wait cycle spent. -/
def Position.waited (p : Position) : Position := { p with waits := p.waits - 1, boundary := decide (p.waits = 1) }

/-- A bubble cycle spent. -/
def Position.bubbled (p : Position) : Position := { p with bubbles := p.bubbles - 1, boundary := false }

/-! ## The handler's cycles -/

/-- The containment of a handler fault of the acting tile, once (R360). -/
def State.containFault (s : State) : State :=
  if s.me.priv.parked && !s.me.priv.faultTold then
    (s.mapMe fun t => t.mapPriv fun p => { p with faultTold := true }).handlerContained s.cur
  else s

/-- An issue of the handler (R338): none while a ctxsave is under way, or while rft waits. -/
def State.issueHandler (s : State) : State :=
  if s.me.priv.saving.isSome || s.me.rftOver then s.clk.handlerEnd
  else
    let r := s.me.resolve
    match r.2 with
    | some _ => s.mapMe fun t => t.handlerFault 1 1
    | none =>
      let s1 := s.setMe (r.1.struck r.1.priv.shadow.cycle true)
      match s1.me.nextIssue with
      | .cause c => s1.raiseCand c s1.me.priv.shadow.pos.addr
      | .poisoned => s1
      | .batch b => (issueBatch b s1).handlerEnd

/-- A wait or bubble cycle of the handler. -/
def State.emptyHandlerCycle (s : State) (f : Position → Position) : State :=
  if s.me.priv.saving.isSome then s.clk
  else
    ((s.mapMe fun t =>
      let t1 := t.endHandlerCycle
      let c := t1.priv.shadow
      t1.mapPriv fun p => { p with shadow := { c with pos := f c.pos } }).clk).handlerEnd

/-! ## The events of a tile's cycles -/

/-- A bundle issues at the acting tile, presented or once more (R120), where nothing at the boundary comes before. -/
def execBundleIssue (s : State) : Host.Outcome State Fault Refusal :=
  let t := s.me
  if t.priv.parked then .next s.containFault
  else if t.priv.active then
    (if t.priv.shadow.pos.mode ≠ .fresh ∧ t.priv.shadow.pos.issues = 0 ∧ t.priv.shadow.pos.waits ≠ 0 then .next s
     else .next (s.issueHandler.containFault))
  else if t.clear && !t.entryNeeded && t.aboutToIssue.isSome then .next (s.issueKernel.settleEngines s.cur)
  else .next s

/-- Whether a position's next cycle is a wait cycle. -/
def Position.waiting (p : Position) : Bool := p.mode ≠ .fresh && decide (p.issues = 0 ∨ p.mode = .xfer) && decide (p.waits ≠ 0)

/-- Whether a position's next cycle is a bubble cycle. -/
def Position.bubbling (p : Position) : Bool := p.mode = .xfer && decide (p.waits = 0) && decide (p.bubbles ≠ 0)

/-- A wait cycle of the acting tile (R71). -/
def execWaitCycle (s : State) : Host.Outcome State Fault Refusal :=
  let t := s.me
  if t.priv.active && !t.priv.parked && t.priv.shadow.pos.waiting then
    .next (s.emptyHandlerCycle Position.waited)
  else if t.clear && t.k.pos.waiting then .next ((s.emptyCycle 19 Position.waited).settleEngines s.cur)
  else .next s

/-- A bubble cycle of the acting tile (R165). -/
def execBubbleCycle (s : State) : Host.Outcome State Fault Refusal :=
  let t := s.me
  if t.priv.active && !t.priv.parked && t.priv.shadow.pos.bubbling then .next (s.emptyHandlerCycle Position.bubbled)
  else if t.clear && t.k.pos.bubbling then .next ((s.emptyCycle 20 Position.bubbled).settleEngines s.cur)
  else .next s

/-- Whether the kernel of the acting tile stands before a bundle that waits for wall time alone (R204). -/
def State.waitsWall (s : State) : Bool :=
  let t := s.me
  t.clear && !t.entryNeeded && t.aboutToIssue.isSome && !t.checkerHeld &&
  (let s1 := s.setMe t.resolve.1
   match s1.me.nextIssue with
   | .batch b =>
     let c := checkAll b s1
     (pickCand (b.extra ++ c.cands)).isNone && c.short = [.wall]
   | _ => false)

/-- Frozen clock periods until WALL_TIME reaches a waitw's deadline, at most `n` (R30, R204). -/
def State.untilDeadline : Nat → State → State
  | 0, s => s
  | n + 1, s => if s.waitsWall then State.untilDeadline n ((s.setMe s.me.resolve.1).waitFreeze 6 [.wall]) else s

/-- The freeze of a waitw runs to the first clock period whose start finds WALL_TIME at or above the deadline (R204); a
cause or a stop that falls due ends it before. `n` bounds the periods by the greatest number that 10 ms can hold. -/
def execWaitwDeadline (s : State) : Host.Outcome State Fault Refusal := .next (s.untilDeadline 15000000)

/-- Results whose latency has ended arrive at the acting tile (R50, R51). -/
def execResultArrival (s : State) : Host.Outcome State Fault Refusal :=
  .next (s.mapMe fun t => if t.priv.active then t.shadowArrivals else t.arrivals)

/-! ## After a work item's last cycle (R169, R207, R259) -/

/-- A clock period after the last cycle: the matrix engine and the checker lag go on as under an empty bundle (R259). -/
def State.afterEnd (s : State) : State :=
  let s0 := s.mapMe fun t => t.present (s.place s.cur)
  if s0.me.lagHeld then s0.tickMe.settleEngines s.cur
  else
    ((s0.mapMe fun t0 =>
      let t := t0.struck t0.mx.cyc false
      let t1 := { (t.mxReads.shadowRows t.dfr.rowUpset) with dfr := Deferred.none }.mxWrites (s.place s.cur)
      let t2 := t1.present (s.place s.cur)
      { t2 with mx := t2.mx.sweep t2.mx.cyc }).tickMe).settleEngines s.cur

/-- Whether a tile's item has ended and its engines are paced on (R259). -/
def Tile.winding (t : Tile) : Bool := t.live && t.itemEnded && !t.earlierItem && !t.causeDue

/-- A schedule cycle of the matrix engine by itself, after the work item's last (R253, R259); a sparse operation runs on. -/
def execDenseMatrixCycle (s : State) : Host.Outcome State Fault Refusal :=
  .next (if s.me.winding && (!s.me.mx.over_ || s.me.deciding) then s.afterEnd else s)

/-- Commands of the acting tile are presented (R170): those due, or after the last cycle the next clock period's. -/
def execEngineCommandPresentation (s : State) : Host.Outcome State Fault Refusal :=
  if s.me.winding && !s.me.eng.lag.isEmpty then .next s.afterEnd
  else .next ((s.mapMe fun t => t.present (s.place s.cur)).settleEngines s.cur)

/-- The xzero of the acting tile whose zero cycle has ended: its block is zero and VALID, and it completes (R260). -/
def execMatrixBlockZero (s : State) : Host.Outcome State Fault Refusal :=
  .next (s.mapMe fun t =>
    (t.mx.queue.filter fun (x : MxCmd) => decide (x.start < t.mx.cyc) && x.fixed && !x.done).foldl (fun (t : Tile) x => match x.op with
      | .zero blk => ({ t with mx := { t.mx with acc := t.mx.acc.zeroBlock blk } }).mxComplete (s.place s.cur) x
      | _ => t) t)

/-- The drains of the acting tile write the rows whose schedule cycle has ended (R171, R261); `mx.cyc` is the cycle that comes next. -/
def execDrainRowWrite (s : State) : Host.Outcome State Fault Refusal :=
  .next (s.mapMe fun t =>
    (t.mx.queue.filter fun (x : MxCmd) => !x.done).foldl (fun (t : Tile) x => match x.op with
      | .drain _ _ _ _ _ _ =>
        let due := x.wait.filter fun r => decide (r.1 < t.mx.cyc)
        if due.isEmpty then t
        else
          let w := x.writes t.mx.acc (t.mx.cyc - 1)
          let t1 := w.spad.foldl Tile.scheduledWrite t
          let t2 := { t1 with mx := { t1.mx with queue := t1.mx.queue.map fun y => if y.n = x.n then w.cmd else y } }
          if x.lastCycle < t.mx.cyc then t2.mxComplete (s.place s.cur) w.cmd else t2
      | _ => t) t)

/-- A sparse operation begins at the acting tile (R255). -/
def execSparseMatrixStart (s : State) : Host.Outcome State Fault Refusal := .next (s.mapMe Tile.sparseStart)

/-- A sparse operation completes at the acting tile, its shadow rows compared (R255, R264). -/
def execSparseMatrixComplete (s : State) : Host.Outcome State Fault Refusal :=
  match s.me.mx.sparseOver with
  | none => .next s
  | some x =>
    let hit := s.me.inp.upsets.any fun (u : Nat × Upset) => u.2 = .shadowRow && decide (u.1 ≤ s.me.mx.cyc)
    .next ((s.mapMe fun t =>
      let t1 := { t with inp := { t.inp with upsets := t.inp.upsets.filter fun (u : Nat × Upset) => !(u.2 = Upset.shadowRow && decide (u.1 ≤ t.mx.cyc)) } }
      (t1.sparseComplete (s.place s.cur)).sparseShadow x t.spad t.mx.acc hit).settleEngines s.cur)

/-- An empty slot (R69, R125): it issues, and neither reads, pushes nor waits. -/
def semNop : OpSem := OpSem.idle

/-- nop (R69). -/
def execNop (s : State) : Host.Outcome State Fault Refusal := issueAlone .nop semNop s

end Sys2Proof.Machine
end

