-- ==== Sys2Proof/Machine/Engines.lean ====
section
/-! DEFINITION. The engines of a tile at work (chapters 12 and 13): elements of streams, the 64-byte requests of transfers and
their completion actions, global atomics, and the arrival of signals. -/
namespace Sys2Proof.Machine

/-! ## Reading and writing for an engine -/

/-- Bytes of a tile's scratchpad with their POISON (R215, R295). -/
def Tile.readSpad (t : Tile) (a n : Nat) : List (Byte × Bool) :=
  (List.range n).map fun k => (readCell t.spad.bytes (a + k), t.spad.poisoned (a + k))

/-- Where a global request performs: translated, allowed and passed by its home die (R389, R396, R397), and not held since (R312, R401). -/
def State.cleared (s : State) (a : Asked) : Option Loc :=
  a.loc.bind fun l => if a.fault.isNone && !s.heldAt a.req.access l then some l else none

/-- The page of device memory that a write reaches is dirty for its launch (R456). -/
def State.markDirty (s : State) (tn : TileNo) (l : Loc) (va : Nat) : State :=
  match (s.tile tn).run with
  | none => s
  | some r => s.mapLaunch r.launch fun x => if l.host then x else { x with dirty := insertNat x.dirty (va / 2 ^ 16) }

/-- Bytes at virtual addresses, with their POISON, as the write of the request at a location that serves them. -/
def Req.writeOf (r : Req) (l : Loc) (bs : List (Nat × Byte × Bool)) : SpadWrite :=
  let cells := bs.map fun b => (b.1 - r.addr + l.pa, b.2)
  { cells := cells.map fun c => (c.1, c.2.1),
    poison := ((cells.filter fun c => c.2.2).map fun c => c.1 / 8).eraseDups }

/-- Whether the physical world spoils the byte at an offset of the request that a tile's engines make next, on its way (R415). -/
def Tile.spoils (t : Tile) (a k : Nat) : Bool := (t.inp.transit.headD []).contains ((a + k) / 8 - a / 8)

/-- Bytes from an address on as they arrive: POISON in each word that arrives uncorrectable (R415). -/
def Tile.arriving (t : Tile) (a : Nat) (bs : List (Byte × Bool)) : List (Byte × Bool) :=
  ((List.range bs.length).zip bs).map fun p => (p.2.1, p.2.2 || t.spoils a p.1)

/-- Bytes at addresses as they arrive (R415). -/
def Tile.arrivingAt (t : Tile) (a : Nat) (bs : List (Nat × Byte × Bool)) : List (Nat × Byte × Bool) :=
  bs.map fun b => (b.1, b.2.1, b.2.2 || t.spoils a (b.1 - a))

/-- A request of a tile's engines has been on its way. -/
def State.crossed (s : State) (tn : TileNo) : State :=
  let t := s.tile tn
  s.setTile tn { t with inp := { t.inp with transit := t.inp.transit.tail } }

/-- A request writes bytes (R299). -/
def State.writeAsked (s : State) (tn : TileNo) (l : Loc) (r : Req) (bs : List (Nat × Byte × Bool)) : State :=
  (s.setStoreAt l ((s.storeAt l).apply (r.writeOf l bs))).markDirty tn l r.addr

/-! ## POISON that leaves a tile (R59, R283, R416) -/

/-- POISON consumed by an engine against the bundle that issued its command: an event of the open segment, which keeps the number of a stream's
element in `locs`, or the end of the work item when that segment has committed (R416). -/
def State.engineConsumes (s : State) (tn : TileNo) (openSeg : Bool) (addr cycle unit detail : Nat) (locs : List Nat) : State :=
  if openSeg then
    let t := s.tile tn
    s.setTile tn { t with seg := { t.seg with pendEvents := t.seg.pendEvents ++
      [{ check := .poison, takenAfter := t.mx.cyc - 1, addr := addr, cycle := cycle, slot := 8, locs := locs, copyA := [],
         copyB := [], unit := unit, detail := detail, doubles := 0 }] } }
  else
    let s1 := s.tileEntry tn 6 0 0xD 4 addr cycle 0
    (s1.killItem tn (contained 0xD 4 (s.place tn).toNat) false).countTransient tn

/-! ## Streams (R65, R66, R273 to R276, R297) -/

/-- Bytes read from an address on, each poisoned one with its word, which is charged to a unit (20 Table 20.4). -/
def badBytes (unit a : Nat) (bs : List (Byte × Bool)) : List (Byte × Option BadWord) :=
  ((List.range bs.length).zip bs).map fun p =>
    (p.2.1, if p.2.2 then some { unit := unit, place := (a + p.1) / 8 * 8 } else none)

/-- The element that bytes give (R273): POISON by word or lane, of the first poisoned word that it holds. -/
def elemOf (vector : Bool) (bs : List (Byte × Option BadWord)) : Elem :=
  let tag := fun (l : List (Byte × Option BadWord)) => match l.findSome? Prod.snd with | some o => Tag.poison o | none => Tag.valid
  let val := fun (l : List (Byte × Option BadWord)) => if (tag l).isPoison then 0 else leNat (l.map Prod.fst)
  if vector then .vector (vmk 32 fun k =>
    let l := (bs.drop (4 * k)).take 4
    { v := BitVec.ofNat 32 (val l), tag := tag l })
  else .scalar { v := word (val bs), tag := tag bs }

/-- The words of an element: offset, bytes and tag of each. -/
def Elem.words : Elem → List (Nat × List Byte × Tag)
  | .scalar x => [(0, leBytes 8 x.v.toNat, x.tag)]
  | .vector x => (List.range 32).map fun k => (4 * k, leBytes 4 (vget x k).v.toNat, (vget x k).tag)

/-- An element joins a read stream's buffer; its requests are over. -/
def Stream.took (st : Stream) (e : Elem) : Stream :=
  { st with buf := st.buf ++ [e], filled := st.filled + 1, due := st.due.tail, got := [], loc := none }

/-- Bytes of an element arrive, one 64-byte unit at a time (R299); with the last the element joins the buffer. -/
def Stream.tookBytes (st : Stream) (elemOf : List (Byte × Option BadWord) → Elem) (bs : List (Byte × Option BadWord)) : Stream :=
  let all := st.got ++ bs
  if st.pat.size ≤ all.length then st.took (elemOf all) else { st with got := all, loc := none }

/-- An element has left a write stream (R66); a scatter stream's index goes with it (R275). -/
def Stream.drained (st : Stream) : Stream :=
  { st with queue := st.queue.tail, gone := 0, loc := none, idx := if st.pat.kind = 1 then st.idx.tail else st.idx }

/-- `n` bytes of an element have been written, one 64-byte unit at a time (R299); with the last it has left the stream. -/
def Stream.wroteBytes (st : Stream) (n : Nat) : Stream :=
  if st.pat.size ≤ st.gone + n then st.drained else { st with gone := st.gone + n, loc := none }

/-- Change a stream of a tile; an unbound one with nothing left to perform is gone. -/
def State.mapStream (s : State) (tn : TileNo) (serial : Nat) (f : Stream → Stream) : State :=
  let t := s.tile tn
  let ss := t.streams.mapSerial serial f
  s.setTile tn { t with streams := { ss with old := ss.old.filter fun st => !st.places.isEmpty } }

/-- The stream engine fills an element, or reads the next 64-byte unit of it (R65, R273, R275, R276, R299): a VOID index gives a VOID element. -/
def execStreamElementFill (t : TileNo) (serial : Nat) (s : State) : Host.Outcome State Fault Refusal :=
  let x := s.tile t
  match x.streams.find serial with
  | none => .next s
  | some st =>
    if st.pat.kind = 2 then .next (s.mapStream t serial fun y => y.admitReturns 8)
    else if !x.streamTurn st then .next s
    else match st.nextElem with
      | some (.fill none) =>
        .next (s.mapStream t serial fun y => y.took (if st.pat.isVector then .vector vvoid else .scalar zeroVoid))
      | some (.fill (some a)) =>
        if st.pat.isLocal then
          .next (s.mapStream t serial fun y => y.took (elemOf st.pat.isVector (badBytes 4 a (x.readSpad a st.pat.size))))
        else match x.askedOf (streamId serial) with
          | some q => match s.cleared q with
            | some l => .next ((s.mapStream t serial fun y =>
                y.tookBytes (elemOf st.pat.isVector) (badBytes 6 l.pa (x.arriving q.req.addr (s.readLoc l q.req.n)))).crossed t)
            | none => .next s
          | none => .next s
      | _ => .next s

/-- The rank at which a transfer's payload and completion land: its own tile without REMOTE. -/
def Transfer.target (x : Transfer) : Option Nat := if x.isSend || x.remote then some x.rank else none

/-- The tile of a target, when it runs a rank of the sender's gang whose kernel context stands (R280, R397). -/
def State.targetTile (s : State) (tn : TileNo) (rank : Option Nat) : Option TileNo :=
  match rank with
  | none => some tn
  | some k => match (s.tile tn).run with
    | none => none
    | some r => match s.rankTile r.launch r.gang k with
      | none => none
      | some u => match (s.tile u).run with
        | some q => if q.launch = r.launch && q.gang = r.gang && q.resident && decide ((s.tile u).priv.ctxState.toNat < 2) then some u
            else none
        | none => none

/-- The writes of an element at an address: VOID words leave memory unchanged (R66). -/
def Elem.cells (e : Elem) (a : Nat) : List Host.Cell :=
  ((e.words.filter fun w => w.2.2 = .valid).map fun w => (List.range w.2.1.length).zip w.2.1 |>.map fun p => (a + w.1 + p.1, p.2)).flatten

/-- The cells of an element that lie in a request's bytes, to write at a location. -/
def Req.cellsOf (r : Req) (cs : List Host.Cell) : List (Nat × Byte × Bool) :=
  (cs.filter fun (c : Host.Cell) => decide (r.addr ≤ c.1 ∧ c.1 < r.addr + r.n)).map fun (c : Host.Cell) => (c.1, c.2, false)

/-- Whether a stream's oldest reserved element belongs to the open segment of its tile. -/
def Tile.openElem (t : Tile) (st : Stream) : Bool :=
  match t.seg.chk.bind fun (c : Saved) => c.streams.find st.serial, st.queue with
  | some o, r :: _ => decide (o.reserved ≤ r.pos)
  | _, _ => true

/-- Whether the tag word of an earlier command of the class is still to be written to one of the 64-byte units of a tile's scratchpad that an
engine write of a later access, behind the commands numbered below `id`, takes (R295). -/
def State.tagAhead (s : State) (tn u : TileNo) (cls : BitVec 4) (id a n : Nat) : Bool :=
  (s.tile tn).eng.queue.any fun (b : Active) => decide (b.cmd.id < id) && (match b.cmd.body with
    | .xfer y => y.tagw && y.cls = cls && s.targetTile tn y.target = some u &&
        decide (a / 64 ≤ y.tagOff / 64 ∧ y.tagOff / 64 ≤ (a + n - 1) / 64)
    | _ => false)

/-- Whether the drain of a local element at an address waits so. -/
def State.drainHeld (s : State) (tn : TileNo) (st : Stream) (a : Nat) : Bool :=
  s.tagAhead tn tn st.pat.cls (st.places.headD (st.cmd + 1, 0)).1 a st.pat.size

/-- The stream engine drains an element, or writes the next 64-byte unit of it (R66, R273, R275, R299). POISON is consumed against the sbind's
bundle, whatever the index that a scatter gives it (a VOID index writes nothing, and R66 consumes POISON at drain; mark: DESIGN CHOICE,
log 84), and charged to the word that it arose from (log 22). -/
def execStreamElementDrain (t : TileNo) (serial : Nat) (s : State) : Host.Outcome State Fault Refusal :=
  let x := s.tile t
  match x.streams.find serial with
  | none => .next s
  | some st =>
    if !x.streamTurn st then .next s
    else match st.nextElem with
      | some (.drain addr e) =>
        match e.words.findSome? fun w => match w.2.2 with | .poison o => some o | _ => none with
        | some o => .next ((s.mapStream t serial Stream.drained).engineConsumes t (x.openElem st) st.bindAddr st.bindCycle o.unit o.place
            [st.gonePast])
        | none => match addr with
          | none => .next ((s.mapStream t serial Stream.drained).settleEngines t)
          | some a =>
            if st.pat.isLocal then
              if s.drainHeld t st a then .next s else
              let s1 := s.setTile t (x.engineWrite { cells := e.cells a, poison := [] })
              .next ((s1.mapStream t serial Stream.drained).settleEngines t)
            else match x.askedOf (streamId serial) with
              | some q => match s.cleared q with
                | some l =>
                  let s1 := (s.writeAsked t l q.req (x.arrivingAt q.req.addr (q.req.cellsOf (e.cells a)))).crossed t
                  .next ((s1.mapStream t serial fun y => y.wroteBytes q.req.n).settleEngines t)
                | none => .next s
              | none => .next s
      | _ => .next s

/-! ## Transfers (R278 to R283, R295, R299) -/

/-- Change an accepted command of a tile. -/
def State.mapActive (s : State) (tn : TileNo) (id : Nat) (f : Active → Active) : State :=
  s.setTile tn ((s.tile tn).mapActive id f)

/-- An accepted command leaves the queue, and what waited for it goes on. -/
def State.dropActive (s : State) (tn : TileNo) (id : Nat) : State :=
  let t := s.tile tn
  (s.setTile tn { t with eng := { t.eng with queue := t.eng.queue.filter fun (a : Active) => a.cmd.id ≠ id } }).settleEngines tn

/-- A remote write that the target tile's die refuses (R397): logged, and an engine fault of the command. -/
def State.refuseTarget (s : State) (tn : TileNo) (id : Nat) (rank : Option Nat) : State :=
  let die := match (s.tile tn).run with
    | some r => ((rank.bind fun k => s.rankTile r.launch r.gang k).map dieOf).getD (dieOf tn)
    | none => dieOf tn
  let s1 := s.refuse die tn 3 0
  s1.setTile tn ((s1.tile tn).noteAsked id none (some (3, 3)) false)

/-- Whether a transfer's payload leaves the tile from its scratchpad (R283). -/
def Transfer.leaves (x : Transfer) : Bool := x.isSend || x.isRsend || x.dir = 1

/-- The bytes of a transfer that a read request gives, by number, from the bytes read at its address on. -/
def Transfer.taken (x : Transfer) (r : Req) (bs : List (Byte × Bool)) : List (Nat × Byte × Bool) :=
  r.ks.map fun k => (k, bs.getD ((x.byteAt k).1.toNat - r.addr) (0, false))

/-- Bytes read join a transfer, a unit at a time. -/
def Active.took (a : Active) (bs : List (Nat × Byte × Bool)) : Active :=
  { a with rd := a.rd + 1, loc := none, got := bs.foldl (fun m b => writeCell m b.1 b.2.1) a.got,
           gotPoison := a.gotPoison ++ (bs.filter fun b => b.2.2).map fun b => b.1 }

/-- The bytes that a write request of a transfer carries, by destination address: of several that land on one byte the one that comes later
(R278). -/
def Active.carried (a : Active) (x : Transfer) (r : Req) : List (Nat × Byte × Bool) :=
  let dst := fun k => (x.byteAt k).2.toNat
  (r.ks.filter fun k => !(r.ks.any fun j => decide (k < j ∧ dst j = dst k))).map fun k =>
    (dst k, readCell a.got k, a.gotPoison.contains k)

/-- A unit written leaves a transfer; after the last its payload has performed. -/
def Active.wrote (a : Active) (x : Transfer) (r : Req) : Active :=
  { a with wr := a.wr + 1, loc := none, got := a.got.filter fun (c : Host.Cell) => !r.ks.contains c.1,
           gotPoison := a.gotPoison.filter fun k => !r.ks.contains k,
           done := decide ((unitsOf (fun k => (x.byteAt k).2.toNat) x.total).length ≤ a.wr + 1) }

/-- An rsend whose elements have been read contributes to its group on the Gallery die, or faults when that die is lost
(R281, R434, R442). -/
def State.contribute (s : State) (tn : TileNo) (a : Active) (x : Transfer) : State :=
  if a.sent then s
  else if s.gallery.lost then s.setTile tn ((s.tile tn).noteAsked a.cmd.id none (some (3, 5)) false)
  else
    let c : Contribution :=
      { tile := some (tn, a.cmd.id), place := s.place tn, group := x.group, part := s.partOf tn, dst := x.dst.toNat, rfmt := x.rfmt,
        redop := x.redop, data := (List.range x.total).map fun k => readCell a.got k, scope := a.cmd.scope, gate := a.cmd.gate,
        at_ := a.locs, clk := 0 }
    { s.mapActive tn a.cmd.id (fun y => { y with sent := true }) with
      gallery := { s.gallery with contributions := s.gallery.contributions ++ [c] } }

/-- The tile whose scratchpad a transfer writes with a request. -/
def State.payloadTile (s : State) (tn : TileNo) (x : Transfer) : Option TileNo := s.targetTile tn (if x.isSend then x.target else none)

/-- Whether a write of a transfer to a scratchpad waits for an earlier tag word in its unit (R295). -/
def State.writeWaits (s : State) (tn : TileNo) (id : Nat) (x : Transfer) (r : Req) : Bool :=
  decide (r.access ≠ .read) && (match s.payloadTile tn x with | some u => s.tagAhead tn u x.cls id r.addr r.n | none => false)

/-- The next request of a transfer performs (R278 to R281, R295, R299). -/
def State.performRequest (s : State) (tn : TileNo) (a : Active) (x : Transfer) : State :=
  let t := s.tile tn
  let id := a.cmd.id
  match a.nextReq x with
  | none =>
    if x.isRsend then s.contribute tn a x
    else (s.mapActive tn id fun y => { y with done := true }).settleEngines tn
  | some r =>
    let asked := t.askedOf id
    if x.isRsend && r.isGlobal then
      match asked.bind fun q => if q.fault.isNone && (t.denied q).isNone then t.locOf q else none with
      | some l => s.mapActive tn id fun y => { y with wr := y.wr + 1, locs := y.locs ++ [(l, r.addr, r.n)] }
      | none => s
    else match r.isGlobal, asked.bind s.cleared with
    | true, none => s
    | isGlobal, loc =>
      match r.access with
      | .read =>
        let bs := x.taken r (match isGlobal, loc with | true, some l => t.arriving r.addr (s.readLoc l r.n) | _, _ => t.readSpad r.addr r.n)
        if x.leaves && bs.any fun b => b.2.2 then
          let word := ((bs.find? fun b => b.2.2).map fun b => (x.byteAt b.1).1.toNat / 8 * 8).getD r.addr
          (s.dropActive tn id).engineConsumes tn (decide (t.seg.number ≤ a.cmd.segNo)) a.cmd.addr a.cmd.cycle 4 word []
        else
          let s1 := s.mapActive tn id fun y => y.took bs
          if isGlobal then s1.crossed tn else s1
      | _ =>
        let bs := if isGlobal || x.isSend then t.arrivingAt r.addr (a.carried x r) else a.carried x r
        let over_ := fun (s : State) => ((if isGlobal || x.isSend then s.crossed tn else s).mapActive tn id fun y => y.wrote x r).settleEngines tn
        match isGlobal, loc with
        | true, some l => over_ (s.writeAsked tn l r bs)
        | _, _ => match s.payloadTile tn x with
          | some u => if s.tagAhead tn u x.cls id r.addr r.n then s else over_ (s.setTile u ((s.tile u).engineWrite (r.writeOf { host := false, pa := r.addr } bs)))
          | none => s.refuseTarget tn id x.target

/-- A request of a copy, send or rsend performs (R299). POISON read for payload that leaves the tile after a rewind has
discarded the command is charged as that of a committed segment is (R416). -/
def execGlobalRequestPerform (t : TileNo) (id : Nat) (s : State) : Host.Outcome State Fault Refusal :=
  let x := s.tile t
  match x.eng.active id with
  | none => .next s
  | some a => match a.cmd.body with
    | .xfer d => if a.done || a.fault.isSome || !x.turn a then .next s else .next (s.performRequest t a d)
    | _ => .next s

/-- The completion tile of a transfer, by rank: none where it is the issuing tile itself, which a RANK may name too (R280, R282). -/
def Tile.ownTarget (t : Tile) (x : Transfer) : Option Nat :=
  match x.target with
  | some k => if t.run.map (fun (r : Run) => r.rank) = some k then none else some k
  | none => none

/-- Whether the completion actions of a transfer may be performed (R270, R282, R298): its payload has performed, its segment
has committed, every earlier access of its class has performed, and earlier completions of its class at the same tile. -/
def Tile.mayComplete (t : Tile) (a : Active) (x : Transfer) : Bool :=
  a.done && a.fault.isNone && (a.rewound || decide (a.cmd.segNo < t.seg.number)) && t.inOrder (classBit x.cls) a.cmd.id false &&
  !(t.eng.queue.any fun (b : Active) => decide (b.cmd.id < a.cmd.id) && (match b.cmd.body with
    | .xfer y => y.cls = x.cls && t.ownTarget y = t.ownTarget x
    | _ => false))

/-- Whether a signal of the tile to a transfer's completion tile is still on its way (R282). -/
def State.signalAhead (s : State) (tn : TileNo) (x : Transfer) : Bool :=
  match (match x.target with
    | none => some tn
    | some k => (s.tile tn).run.bind fun (r : Run) => s.rankTile r.launch r.gang k) with
  | none => false
  | some u => s.signals.any fun (g : Signal) => g.target = u && decide (g.change.prod.map Producer.place = some (s.place tn))

/-- Whether a transfer's completion actions are performed next: those of earlier ones at the same tile have been, with the arrival of their
signals where a tag word follows (R282). -/
def State.completes (s : State) (tn : TileNo) (a : Active) (x : Transfer) : Bool :=
  (s.tile tn).mayComplete a x && !(x.tagw && s.signalAhead tn x)

/-- The completion actions of a transfer (R282): the tag word, the signal; and its trace record (R454, R455). -/
def State.completeTransfer (s : State) (tn : TileNo) (a : Active) (x : Transfer) : State :=
  let kind := if x.isRsend then 3 else 2
  let prod : Producer := { kind := kind, place := s.place tn, obj := x.sem, addr := a.cmd.addr, gate := a.cmd.gate }
  match s.targetTile tn x.target, x.tagw with
  | none, true => s.refuseTarget tn a.cmd.id x.target
  | u, _ =>
    let s1 := match u, x.tagw with
      | some u, true => s.setTile u ((s.tile u).engineWrite (byteWrite (x.tagOff / 8 * 8) (validBytes (leBytes 8 x.tag.toNat))))
      | _, _ => s
    let s2 := if x.sig then s1.sendSignal tn x.target x.sem (.raise x.count) prod a.cmd.id else s1
    let len := ((x.dims.head?.map fun d => d.1).getD 0)
    let s3 := if a.rewound then s2
      else s2.setTile tn ((s2.tile tn).traceAdd 2 0 a.cmd.addr a.cmd.cycle len a.cmd.segNo)
    s3.dropActive tn a.cmd.id

/-- The completion actions of a copy, send or rsend (R282). -/
def execTransferCompletion (t : TileNo) (id : Nat) (s : State) : Host.Outcome State Fault Refusal :=
  let x := s.tile t
  match x.eng.active id with
  | none => .next s
  | some a => match a.cmd.body with
    | .xfer d => if s.completes t a d then .next (s.completeTransfer t a d) else .next s
    | _ => .next s

/-! ## Global atomics (R288, R289, R302) -/

/-- The new value of a global atomic (12 Table 12.6). -/
def AtomicOp.new (op : AtomicOp) (old b d : Nat) : Nat :=
  let less := fun (x y : Int) => if x ≤ y then old else b
  match op with
  | .add => (old + b) % 2 ^ 64
  | .minS => less (sextN old 64) (sextN b 64)
  | .minZ => less old b
  | .maxS => less (-(sextN old 64)) (-(sextN b 64))
  | .maxZ => less (-(old : Int)) (-(b : Int))
  | .and => old &&& b
  | .or => old ||| b
  | .xor => old ^^^ b
  | .xch => b
  | .cas => if old = d then b else old
  | .faddF32 => rneCode Fmt.f32 ((decodeFmt Fmt.f32 old).add (decodeFmt Fmt.f32 (b % 2 ^ 32)))
  | .faddBf16 => rneCode Fmt.bf16 ((decodeFmt Fmt.bf16 old).add (decodeFmt Fmt.bf16 (b % 2 ^ 16)))

/-- The atomic of a tile that stands ready at its home: its number, and the home's die and cluster, or host memory. -/
def State.atomicReady (s : State) (tn : TileNo) : List (Nat × Loc) :=
  ((s.tile tn).asked.filter fun a => a.req.access = .atomic).filterMap fun a => (s.cleared a).map fun l => (a.id, l)

/-- Whether a location's atomic engine is that of a die and cluster. -/
def Loc.servedBy (l : Loc) (d c : Nat) : Bool := !l.host && decide (homeDie l.pa = d) && decide (homeCluster l.pa = c)

/-- The tiles of an atomic engine's own cluster with a request waiting at it, by number modulo 8, and whether any other tile
has one (R289). -/
def State.atomicWaiting (s : State) (d c : Nat) : List Nat × Bool :=
  let waits := fun (t : Nat) => (s.atomicReady (tileNo t)).any fun a => a.2.servedBy d c
  let base := d * 96 + c * 8
  ((List.range 8).filter fun k => waits (base + k),
   (List.range 1152).any fun t => !(decide (base ≤ t) && decide (t < base + 8)) && waits t)

/-- Whether an atomic engine serves a tile next (R289): its cluster's tiles in turn, alternating with the network. `turn` is
twice the tile last served within the cluster, plus one when the network was served last. -/
def State.atomicServes (s : State) (d c : Nat) (tn : TileNo) : Bool :=
  let turn := vget (s.die d).atomicTurn c
  let own := decide (dieOf tn = d ∧ clusterOf tn = c)
  let w := s.atomicWaiting d c
  let next := ((List.range 8).map fun k => (turn / 2 + 1 + k) % 8).find? fun k => w.1.contains k
  if own then (next = some (tn.val % 8)) && (!w.2 || turn % 2 = 1) else w.1.isEmpty || turn % 2 = 0

/-- The turn of an atomic engine after it has served a tile. -/
def State.atomicTook (s : State) (d c : Nat) (tn : TileNo) : State :=
  let die := s.die d
  let own := decide (dieOf tn = d ∧ clusterOf tn = c)
  let turn := vget die.atomicTurn c
  s.setDie d { die with atomicTurn := vset die.atomicTurn c (if own then 2 * (tn.val % 8) else turn / 2 * 2 + 1) }

/-- A global atomic performed on its aligned word (R288): POISON in memory writes nothing and returns POISON. Its page is dirty (R456). -/
def State.performAtomic (s : State) (tn : TileNo) (a : Active) (q : Asked) (l : Loc) (op : AtomicOp) (b d : Word) (ret : Option Nat) : State :=
  let bs := s.readLoc l q.req.n
  let old := leNat (bs.map Prod.fst)
  let bad := bs.any Prod.snd
  let s1 := (if bad then s else s.writeLoc l (validBytes (leBytes op.width (op.new old b.toNat d.toNat)))).markDirty tn l q.req.addr
  let x : Scalar := if bad then { v := 0, tag := .poison { unit := 6, place := l.pa / 8 * 8 } } else validWord (word old)
  let s2 := match ret with | some k => s1.setTile tn ((s1.tile tn).fillPlace k a.cmd.id x) | none => s1
  s2.dropActive tn a.cmd.id

/-- The home cluster's atomic engine performs a global atomic in its turn (R289); one of host memory is performed there. -/
def execGlobalAtomicPerform (t : TileNo) (id : Nat) (s : State) : Host.Outcome State Fault Refusal :=
  let x := s.tile t
  match x.eng.active id, x.askedOf id with
  | some a, some q => match a.cmd.body, s.cleared q with
    | .atomic op _ b d _ ret, some l =>
      if l.host then .next (s.performAtomic t a q l op b d ret)
      else
        let hd := homeDie l.pa
        let c := homeCluster l.pa
        if s.atomicServes hd c t then .next ((s.performAtomic t a q l op b d ret).atomicTook hd c t) else .next s
    | _, _ => .next s
  | _, _ => .next s

/-! ## Signals (R75, R287, R342, R355, R374) -/

/-- The count that a change carries. -/
def SemOp.count : SemOp → Nat
  | .raise n | .lower n | .init n => n

/-- A discarded signal enters the signal log of its target: eight entries, further ones lost (R342). -/
def Tile.logSignal (t : Tile) (st : Bool) (c : SemChange) : Tile :=
  let e : SigEntry := { src := (c.prod.map Producer.place).getD 0xFFFF, st := st, sem := c.sem, count := BitVec.ofNat 32 c.op.count }
  t.mapPriv fun p => if p.sigLog.length < 8 then { p with sigLog := p.sigLog ++ [e] } else { p with sigLost := true }

/-- A signal at its target tile: counted, or discarded and logged (R287, R355, R374). -/
def Tile.signalled (t : Tile) (g : Signal) : Tile :=
  let mine : Bool := match t.run with | some r => decide (r.launch = g.launch ∧ r.gang = g.gang) | none => false
  if 2 ≤ t.priv.ctxState.toNat then t.logSignal true g.change
  else if mine && decide (g.change.sem < t.img.nsems) then
    { t with sems := { t.sems with pend := t.sems.pend ++ [g.change] } }
  else t.logSignal false g.change

/-- A signal in flight reaches its semaphore (R75); signals of one tile to one tile arrive in the order of their release. -/
def execSemaphoreSignalArrival (n : Nat) (s : State) : Host.Outcome State Fault Refusal :=
  match s.signals[n]? with
  | none => .next s
  | some g =>
    let from_ := fun (x : Signal) => (x.change.prod.map Producer.place).getD 0xFFFF
    if (s.signals.take n).any fun x => x.target = g.target && from_ x = from_ g then .next s
    else .next { s.setTile g.target ((s.tile g.target).signalled g) with signals := s.signals.eraseIdx n }

/-- A read of the acting tile's signal log (R342): the oldest entry is returned and popped, and SIG_LOST is cleared. -/
def execSignalLog (s : State) : Host.Outcome State Fault Refusal :=
  let p := s.me.priv
  .next { s.mapMe (fun t => t.mapPriv fun p =>
      { p with sigCount := (p.sigLog.head?.map SigEntry.count).getD p.sigCount, sigLog := p.sigLog.tail, sigLost := false }) with
    hostData := leBytes 8 p.sigWord.toNat }

end Sys2Proof.Machine
end

