-- ==== Sys2Proof/Machine/Collective.lean ====
section
/-! DEFINITION. Collective groups of the Gallery die (21 R442, R443; R281): contributions, rounds and their results. -/
namespace Sys2Proof.Machine

/-! ## Groups -/

/-- A group as after reset. -/
def Group.fresh (n : Nat) : Group :=
  { num := n, valid := false, part := 0, members := 0, peers := 0, rounds := 0, open_ := [], held := [] }

/-- A group of the Gallery die. -/
def Gallery.group (g : Gallery) (n : Nat) : Group := (g.groups.find? fun (x : Group) => x.num = n).getD (Group.fresh n)

/-- Replace a group, keeping numbers in rising order. -/
def putGroup : List Group → Group → List Group
  | [], x => [x]
  | g :: rest, x =>
    if x.num < g.num then x :: g :: rest else if x.num = g.num then x :: rest else g :: putGroup rest x

/-- Replace a group of the Gallery die. -/
def State.setGroup (s : State) (x : Group) : State := { s with gallery := { s.gallery with groups := putGroup s.gallery.groups x } }

/-- Whether a package that a group needs cannot be reached: its route names no port (R444). -/
def Gallery.unreachable (g : Gallery) (x : Group) : Bool :=
  (List.range 32).any fun k => x.peers.getLsbD k && decide (k ≠ g.pkgId.toNat) && decide (vget g.routes k = 0)

/-! ## Reduction (R281) -/

/-- The width in bytes of a reduction element. -/
def redWidth (rfmt : Nat) : Nat := if rfmt = 1 then 2 else 4

/-- Elements reduced as floats (R281, R84, R93): the exact sum rounded once, or the least or greatest. -/
def reduceFloat (f : Fmt) (redop : Nat) (codes : List Nat) : Nat :=
  match codes.map (decodeFmt f) with
  | [] => 0
  | x :: xs =>
    if redop = 0 then rneCode f (xs.foldl Ext.add x)
    else encodeFmt f (xs.foldl (if redop = 1 then Ext.min else Ext.max) x)

/-- Elements reduced as integers (R281): the exact sum clamped, or the least or greatest. -/
def reduceInt (signed : Bool) (redop : Nat) (codes : List Nat) : Nat :=
  let vals : List Int := codes.map fun c => if signed then sextN c 32 else c
  match vals with
  | [] => 0
  | x :: xs =>
    let r : Int :=
      if redop = 0 then (if signed then satS 32 (xs.foldl (· + ·) x) else satZ 32 (xs.foldl (· + ·) x))
      else xs.foldl (fun a b => if redop = 1 then (if b < a then b else a) else (if a < b then b else a)) x
    (BitVec.ofInt 32 r).toNat

/-- One element of a result from the contributions' codes. -/
def reduceElem (rfmt redop : Nat) (codes : List Nat) : Nat :=
  match rfmt with
  | 0 => reduceFloat Fmt.f32 redop codes
  | 1 => reduceFloat Fmt.bf16 redop codes
  | 0xC => reduceInt true redop codes
  | _ => reduceInt false redop codes

/-- The result of a round (R281, R442). -/
def reduceRound (rfmt redop : Nat) (cs : List Contribution) : List Byte :=
  let w := redWidth rfmt
  let n := ((cs.head?.map fun (c : Contribution) => c.data.length).getD 0) / w
  ((List.range n).map fun k =>
    leBytes w (reduceElem rfmt redop (cs.map fun (c : Contribution) => leNat ((c.data.drop (w * k)).take w)))).flatten

/-! ## Rounds (R442, R443) -/

/-- An engine fault of a contributor's rsend, which translates its result and contributes again once the fault is resolved (R398, R443). -/
def State.contribFault (s : State) (f : Nat × Nat) (c : Contribution) : State :=
  match c.tile with
  | none => s
  | some (t, id) =>
    s.setTile t (((s.tile t).mapActive id fun a => { a with sent := false, wr := 0, locs := [] }).noteAsked id none (some f) false)

/-- The fault of a contributor of a discarded round (R443): its completion actions are never performed, so that its rsend only leaves the
queue once the fault is resolved. -/
def State.contribDiscard (s : State) (c : Contribution) : State :=
  match c.tile with
  | none => s
  | some (t, id) =>
    s.setTile t (((s.tile t).mapActive id fun a => { a with
      done := true, rewound := true,
      cmd := { a.cmd with body := match a.cmd.body with | .xfer x => .xfer { x with sig := false, tagw := false } | b => b } }).noteAsked
      id none (some (3, 4)) false)

/-- A contributor's payload has performed once no write of it is held (R312, R314): its completion carries the gating reference of the last
contribution (R317). -/
def State.contribDone (s : State) (gate : Option LegRef) (c : Contribution) : State :=
  match c.tile with
  | none => s
  | some (t, id) => (s.mapActive t id fun a => { a with cmd := { a.cmd with gate := gate } }).waiterDone (t, id)

/-- The pages of a result whose contributors all stand on other packages: translated by a walk from the partition's root, as far as a
kernel-class write is allowed there (R388, R389; log 45). -/
def State.peerPages (s : State) (p : PartNo) (va n : Nat) : List (Loc × Nat × Nat) :=
  (pagesOf (n / 2 ^ 16 + 2) va n).filterMap fun pg => match s.privWalk p pg.1 with
    | .error _ => none
    | .ok leaf => if (permFault leaf.entry .write).isNone then some (leaf.loc pg.1, pg.1, pg.2) else none

/-- A result from `dst` on written where its pages lie, each its own bytes, and held where a frame moves (R314, R401). -/
def State.writeResult (s : State) (p : PartNo) (dst : Nat) (waiters : List (TileNo × Nat)) (bs : List (Byte × Bool))
    (pages : List (Loc × Nat × Nat)) : State :=
  pages.foldl (fun (st : State) x => st.writeHeld (some p) x.1 ((bs.drop (x.2.1 - dst)).take x.2.2) waiters) s

/-- The contribution that reached the Gallery die last, the one of the highest PRD_PLACE among those of one fabric clk (R317). -/
def lastContribution (cs : List Contribution) : Option Contribution :=
  cs.foldl (fun (b : Option Contribution) c => match b with
    | some x => if x.clk < c.clk ∨ (x.clk = c.clk ∧ x.place.toNat < c.place.toNat) then some c else some x
    | none => some c) none

/-- A round closes (R442): its result is rounded once and written at DST, as a contributor's copy engine has translated it (R390), its pages
dirty for each contributor's launch (R456), and its contributors complete; where a home refuses the write (R397), each contributor has the
fault, and the refusal is logged. -/
def State.closeRound (s : State) (g : Group) : State :=
  match g.open_ with
  | [] => s
  | c :: _ =>
    let p : PartNo := Fin.ofNat 16 g.part
    let data := reduceRound c.rfmt c.redop g.open_
    let gate := (lastContribution g.open_).bind fun (x : Contribution) => x.gate
    let pages := match g.open_.find? fun (x : Contribution) => x.tile.isSome with
      | some x => x.at_
      | none => s.peerPages p c.dst data.length
    let s1 := s.setGroup { g with open_ := [], rounds := g.rounds + 1 }
    match pages.findSome? fun q => (s.homeCheck p q.1 true).map fun d => (d, q.1) with
    | some (d, l) =>
      let s2 := match (g.open_.findSome? fun (x : Contribution) => x.tile) with
        | some (t, _) => s1.refuse (homeDie l.pa) t d l.pa
        | none => s1.refuseHw l d
      g.open_.foldl (fun st x => st.contribFault (3, d) x) s2
    | none =>
      let s2 := s1.writeResult p c.dst (g.open_.filterMap fun (x : Contribution) => x.tile) (validBytes data) pages
      let s3 := g.open_.foldl (fun (st : State) x => match x.tile with
        | some (t, _) => pages.foldl (fun st q => st.markDirty t q.1 q.2.1) st
        | none => st) s2
      g.open_.foldl (fun st x => st.contribDone gate x) s3

/-- Whether a contribution is refused by its group (R443, R444). -/
def Gallery.refuses (gal : Gallery) (g : Group) (c : Contribution) : Bool :=
  decide (1023 < c.group) || !g.valid || decide (g.part ≠ c.part.val) || decide (2 ^ 22 < c.data.length) || gal.unreachable g ||
  (match g.open_ with
    | [] => false
    | o :: _ => decide (o.dst ≠ c.dst) || decide (o.rfmt ≠ c.rfmt) || decide (o.redop ≠ c.redop) || decide (o.data.length ≠ c.data.length))

/-- A contribution reaches its group (R442, R443): refused; held when its place is already counted; or counted, and it may
close the round, after which those held come in turn. `n` bounds the rounds that close so: each takes one contribution at least. -/
def State.arrive : Nat → State → Contribution → State
  | 0, s, _ => s
  | n + 1, s, c =>
    let g := s.gallery.group c.group
    if s.gallery.refuses g c then s.contribFault (3, 4) c
    else if g.open_.any fun (o : Contribution) => o.place = c.place then s.setGroup { g with held := g.held ++ [c] }
    else
      let g1 := { g with open_ := g.open_ ++ [c] }
      if g.members ≤ g1.open_.length then
        g.held.foldl (State.arrive n) ((s.setGroup { g1 with held := [] }).closeRound { g1 with held := [] })
      else s.setGroup g1

/-- A contribution arrives (R442), in its fabric clk (2.0 GHz, R2). -/
def State.contribution (s : State) (c : Contribution) : State :=
  State.arrive ((s.gallery.group c.group).held.length + 2) s { c with clk := s.wall / 500 }

/-- Whether the rsend of a contribution in flight still stands. -/
def State.contributionStands (s : State) (c : Contribution) : Bool :=
  match c.tile with
  | none => true
  | some (t, id) => match (s.tile t).eng.active id with | some a => a.sent && !a.done | none => false

/-- A contribution reaches its collective group, from a tile of this package or from another package (R442, R444); with the
Gallery die lost nothing arrives (R434). -/
def execRsendContribution (c : ContribSource) (s : State) : Host.Outcome State Fault Refusal :=
  if s.gallery.lost then .next s
  else match c with
  | .flight n => match s.gallery.contributions[n]? with
    | none => .next s
    | some x =>
      let s1 := { s with gallery := { s.gallery with contributions := s.gallery.contributions.eraseIdx n } }
      .next (if s1.contributionStands x then s1.contribution x else s1)
  | .peer pkg place group dst rfmt redop data gate =>
    let g := s.gallery.group group.toNat
    if !g.peers.getLsbD pkg.toNat then .next s
    else .next (s.contribution
      { tile := none, place := place, group := group.toNat, part := Fin.ofNat 16 g.part, dst := dst.toNat, rfmt := rfmt.toNat,
        redop := redop.toNat, data := data, scope := 4, gate := gate.map fun r => { place := r.1, seq := r.2 }, at_ := [], clk := 0 })

/-- A write of GROUP_CFG configures the group that GROUP_SEL names, and discards its open round (R443): each contributor has a
fault, and contributions held for the next round come anew. -/
def State.groupCfg (s : State) (v : Word) : State :=
  let g := s.gallery.group s.gallery.groupSel
  let s1 := s.setGroup { g with
    valid := v.getLsbD 63, part := bitsNat v 59 56, members := bitsNat v 47 32, peers := v.setWidth 32, open_ := [], held := [] }
  g.held.foldl (State.arrive (g.held.length + 1)) (g.open_.foldl State.contribDiscard s1)

/-- GROUP_CFG (R443). -/
def execGroupCfg (v : Word) (s : State) : Host.Outcome State Fault Refusal :=
  .next (if s.hostUp then s.groupCfg v else s)

end Sys2Proof.Machine
end

