-- ==== Sys2Proof/Machine/March.lean ====
section
/-! DEFINITION. The march test of boot (24 R474 to R480): the repair table, the march kernel's image and launch record, the boot partition
in which it runs on every die, and what the boot firmware makes of its results. -/
namespace Sys2Proof.Machine

/-! ## Repair (R475) -/

/-- Whether a repair table already serves a row by a spare. -/
def repaired (tbl : Vector (BitVec 16) 16) (row : Nat) : Bool :=
  (vlist tbl).any fun e => e.getLsbD 15 && decide (bitsNat e 11 0 = row)

/-- A row joins a repair table: the lowest spare that serves none; `none` when all 16 are taken. -/
def addRepair (tbl : Vector (BitVec 16) 16) (row : Nat) : Option (Vector (BitVec 16) 16) :=
  if repaired tbl row then some tbl
  else match (List.range 16).find? fun k => !(vget tbl k).getLsbD 15 with
    | some k => some (vset tbl k (BitVec.ofNat 16 (0x8000 + row % 4096)))
    | none => none

/-- Rows join a repair table in turn. -/
def addRepairs (tbl : Vector (BitVec 16) 16) (rows : List Nat) : Option (Vector (BitVec 16) 16) :=
  rows.foldl (fun t r => t.bind fun x => addRepair x r) (some tbl)

/-- Every row of a list that a spare can still serve joins a repair table, in turn (R480). -/
def addRows (tbl : Vector (BitVec 16) 16) (rows : List Nat) : Vector (BitVec 16) 16 :=
  rows.foldl (fun t r => (addRepair t r).getD t) tbl

/-! ## The march kernel (R476) -/

/-- A bundle of the march kernel without SEG, SAFE or WAIT: REPEAT, and its operations in slot order. -/
def marchHeader (rep : Nat) (ops : List (Slot × Instr)) : Header :=
  { top := 0, iterLvl := 7, iterCond := 0, seg := false, safe := false, limm := 0, scope := 0, wait := 0, rep := BitVec.ofNat 4 rep,
    present := BitVec.ofNat 9 (ops.foldl (fun n p => n + 2 ^ p.1.idx) 0) }

/-- The words of a bundle. -/
def bundleWords (h : Header) (ops : List (Slot × Instr)) : List Insn := h.word :: ops.map fun p => encode p.2

/-- A bundle without SEG, SAFE, WAIT or REPEAT. -/
def plainBundle (ops : List (Slot × Instr)) : List Insn := bundleWords (marchHeader 0 ops) ops

/-- `mov d, x` with an immediate of 6 bits (R182). -/
def movImm (d x : BitVec 6) : Instr := .add { g := 0, k := true, d := d, a := 62, b := x }

/-- An operation of format SA on two registers. -/
def regs3 (d a b : BitVec 6) : FormSA := { g := 0, k := false, d := d, a := a, b := b }

/-- An operation of format SA on a register and an immediate of 6 bits. -/
def regImm (d a x : BitVec 6) : FormSA := { g := 0, k := true, d := d, a := a, b := x }

/-- A scratchpad access at `zero` plus an offset in dwords. -/
def atDword (d k : BitVec 6) : FormMA := { g := 0, bm := 1, p := false, d := d, a := 62, b := k }

/-- An access that steps the address in n1 by n3. -/
def stepping (d : BitVec 6) : FormMA := { g := 0, bm := 0, p := true, d := d, a := 1, b := 3 }

/-- Four named registers from `k` on become all ones, by S0, S1, M0 and M1. -/
def marchOnes (k : BitVec 6) : List Insn :=
  plainBundle [(.s0, movImm k (-1)), (.s1, movImm (k + 1) (-1)), (.m0, .ldZ64 (atDword (k + 2) 4)), (.m1, .ldZ64 (atDword (k + 3) 4))]

/-- The registers' test and the constants: cycles 0 to 16 of the kernel. -/
def marchSetup : List Insn :=
  plainBundle [(.c, .chkctl { g := 0, cmp := true })] ++
  ([0, 4, 8, 12, 16, 20, 24, 28].map marchOnes).flatten ++
  (let ops := [(Slot.s0, Instr.nop), (.s1, .nop), (.m0, .nop), (.m1, .nop)]
   bundleWords { marchHeader 0 ops with wait := 2 } ops) ++
  plainBundle [(.c, .chkctl { g := 0, cmp := true }), (.m0, .ldZ64 (atDword 1 0)), (.m1, .ldZ64 (atDword 2 0))] ++
  plainBundle [(.s0, movImm 3 8), (.s1, .mov { g := 0, d := 4, a := 62 }), (.m0, .ldZ64 (atDword 7 1)), (.m1, .ldZ64 (atDword 9 2))] ++
  plainBundle [(.s0, movImm 5 (-1)), (.s1, movImm 8 8), (.m0, .ldZ64 (atDword 11 3)), (.m1, .nop)] ++
  plainBundle [(.s0, .mov { g := 0, d := 12, a := 62 }), (.s1, movImm 13 15), (.m0, .nop)] ++
  plainBundle [(.s0, movImm 14 2), (.s1, .nop)]

/-- The first bundle of a row (24 Table 24.5). -/
def marchRow0 : List Insn :=
  let ops := [(Slot.s0, Instr.gdand { g := 0, pair := 1, ga := 0x10, gb := 0 }), (.s1, .gdand { g := 0, pair := 2, ga := 0x10, gb := 0 }),
    (.m0, .ldZ64 (stepping 63)), (.m1, .stZ64 (stepping 5))]
  bundleWords { marchHeader 3 ops with seg := true } ops

/-- The second bundle of a row (24 Table 24.5). -/
def marchRow1 : List Insn :=
  let ops := [(Slot.s0, Instr.cmpZ64 { g := 0, k := false, cond := 1, pair := 1, a := 32, b := 4 }), (.s1, .gdor { g := 0, pair := 2, ga := 4, gb := 2 })]
  bundleWords (marchHeader 10 ops) ops

/-- The loops over passes and rows, and one row. The two sums of the record bundle take the `sel` at q1: the listing prints q0, which by R51 is
the `add` of S1 beside it, and R478 and R479 give what the `sel` gives (log 82). -/
def marchRows : List Insn :=
  plainBundle [(.s0, .nop), (.c, .loop { g := 0, k := false, cnt := 14, last := 35 })] ++
  plainBundle [(.s0, .nop), (.c, .loop { g := 0, k := false, cnt := 9, last := 23 })] ++
  marchRow0 ++ marchRow1 ++
  plainBundle [(.c, .loop { g := 0, k := false, cnt := 13, last := 0 })] ++
  (let ops := [(Slot.c, Instr.nop)]
   bundleWords (marchHeader 15 ops) ops) ++
  (let ops := [(Slot.m0, Instr.nop), (.m1, .nop)]
   bundleWords (marchHeader 4 ops) ops) ++
  plainBundle [(.s0, .sel { g := 0, j := 2, d := 63, a := 8, b := 62 }), (.s1, .add (regs3 1 1 2)),
    (.m1, .stZ64 { g := 4, bm := 1, p := false, d := 1, a := 7, b := 0 })] ++
  plainBundle [(.s0, .add (regs3 7 7 33)), (.s1, .add (regs3 12 12 33)), (.m1, .nop)] ++
  (let ops := [(Slot.s0, Instr.minZ64 (regs3 7 7 11)), (.s1, .nop)]
   bundleWords { marchHeader 0 ops with safe := true } ops)

/-- The turn between the passes, and the summary. -/
def marchEnd : List Insn :=
  plainBundle [(.s0, .sub (regImm 1 1 8)), (.s1, .sub (regs3 2 62 2))] ++
  plainBundle [(.s0, .sub (regs3 3 62 3)), (.s1, .xorOp (regImm 4 4 (-1)))] ++
  plainBundle [(.s0, .xorOp (regImm 5 5 (-1))), (.s1, .nop)] ++
  plainBundle [(.s0, .rdctl { g := 0, d := 10, cr := 0x013 }), (.s1, .rdctl { g := 0, d := 15, cr := 0x020 }), (.m0, .ldZ64 (atDword 6 5))] ++
  (let ops := [(Slot.s0, Instr.rdctl { g := 0, d := 13, cr := 0x011 }), (.s1, .shrZ64 (regImm 12 12 3)), (.m0, .nop)]
   bundleWords { marchHeader 0 ops with wait := 1 } ops) ++
  plainBundle [(.s0, .shl (regImm 10 10 32)), (.s1, .shl (regImm 13 13 11))] ++
  plainBundle [(.s0, .orOp (regs3 6 6 10)), (.s1, .add (regs3 15 15 13))] ++
  plainBundle [(.s0, .orOp (regs3 6 6 12)), (.s1, .shl (regImm 0 8 3))] ++
  plainBundle [(.s0, .nop), (.s1, .nop), (.m0, .stZ64 (atDword 6 31))] ++
  plainBundle [(.m0, .nop), (.q, .copy { g := 0, a := 0, b := 15 })] ++
  plainBundle [(.c, .endItem { g := 0 })]

/-- The code of the march kernel, from offset 0x500. -/
def marchCode : List Insn := marchSetup ++ marchRows ++ marchEnd

/-- The data of the march kernel: the constants, and from 0x40 the descriptor of its copy. -/
def marchData : List Byte :=
  ([0x800, 0x100, 0xBDF, 0x4F8, 0xFFFFFFFFFFFFFFFF, 0x4D54000000000000, 0, 0, 0x3C10, 0xF8, 0, 0, 0, 0, 0x408].map le8).flatten

/-- Zeros to a length. -/
def zerosTo (n : Nat) (bs : List Byte) : List Byte := bs ++ List.replicate (n - bs.length) 0

/-- The image of the march kernel (R153, R476): header and body. -/
def marchImage : List Byte :=
  zerosTo 64 (leBytes 4 0x4F454843 ++ leBytes 4 1 ++ leBytes 4 0x500 ++ leBytes 4 0x21C ++ leBytes 4 0x500 ++ leBytes 4 0x5F0000 ++
    leBytes 4 (0x1000000 + 32) ++ leBytes 2 512 ++ leBytes 2 4096 ++ leBytes 4 0x740 ++ leBytes 4 0 ++ le8 0x0F05) ++
  zerosTo 0x740 (zerosTo 0x500 marchData ++ (marchCode.map fun w => leBytes 4 w.toNat).flatten)

/-! ## The boot partition (R469, R476) -/

/-- Where the boot firmware places the march of a die within its HBM: results from 0, then the image and the completion record; the tables of the
boot partition stand at the first such die (log 89). -/
def marchImageAt : Nat := 0x40000
/-- The completion record's place. -/
def marchRecordAt : Nat := 0x50000
/-- The root table's place. -/
def marchTablesAt : Nat := 0x60000

/-- The first virtual address of a die's HBM in the boot partition: one page of 1 GiB for each die. -/
def marchVa (d : Nat) : Nat := d * 2 ^ 30

/-- The launch record of a die's march (R476). -/
def marchRecord (d n : Nat) : List Byte :=
  zerosTo 0x140 (zerosTo 0xF0 (zerosTo 0x48 (le8 (marchVa d + marchImageAt) ++ le8 (2 ^ d * 2 ^ 36 + 2 ^ 28 + 2 ^ 20 + 1) ++ le8 7 ++ le8 n) ++
    le8 (marchVa d)) ++ le8 (marchVa d + marchRecordAt))

/-- The boot partition (log 89): every tile, in the mode of step 3, with its root at a table. -/
def bootPart (root : Nat) : Part :=
  let p := Part.withTiles (BitVec.allOnes 1152)
  { p with modeSet := 1, fixedMhz := 1300, xl := { p.xl with root := root } }

/-- The frames of a die that the boot partition uses, owned or given up. -/
def Die.marchFrames (x : Die) (owner : Nat) : Die :=
  (List.range 7).foldl (fun (y : Die) k => y.mapFrame k fun f => { Frame.fresh f.frame with owner := owner }) x

/-- The tables of the boot partition, at a physical address: each die's page at its number. -/
def marchTables (m : Store) (root : Nat) : Store :=
  (List.range 12).foldl (fun (st : Store) d => st.put (root + 0x2000 + 8 * d) (le8 (d * 2 ^ 44 + 0xF)))
    ((m.put root (le8 (root + 0x1000 + 1))).put (root + 0x1000) (le8 (root + 0x2000 + 1)))

/-- The tiles of a die on which the march runs: enabled, or with their return pending (R472). -/
def State.marchTiles (s : State) (d : Nat) : List TileNo :=
  ((List.range 96).map fun k => tileNo (d * 96 + k)).filter fun t =>
    (decide ((s.tile t).margin.state = 0) || decide ((s.tile t).margin.state = 5)) && !s.boot.excluded.getLsbD t.val

/-- The march of a die is launched (R476), a second time for some of its tiles. -/
def State.launchMarch (s : State) (d : Nat) (again : List TileNo) : State :=
  let ts := s.marchTiles d
  let m : March := { launch := s.nextLaunch, die := d, tiles := ts, again := again }
  ({ s with boot := { s.boot with marches := s.boot.marches ++ [m] } } : State).enterPool d 0 none false (marchRecord d ts.length)

/-- Step 8 (R469): the boot partition is deleted, and the CXL link released for enumeration. -/
def State.bootEnds (s : State) : State :=
  let s1 := (s.setPart 0 Part.reset).mapDies fun _ x => x.marchFrames 0x10
  { s1 with boot := { s1.boot with booted := true } }

/-- Step 7 begins (R469, R476): the boot partition, the image in the HBM of every die, and a launch on each die that has a tile to test; without one, step 8. -/
def State.marchBegins (s : State) : State :=
  match (List.range 12).filter fun d => !(s.marchTiles d).isEmpty with
  | [] => s.bootEnds
  | d0 :: ds =>
    let root := d0 * 2 ^ 44 + marchTablesAt
    let images := (d0 :: ds).foldl (fun (m : Store) d => m.put (d * 2 ^ 44 + marchImageAt) marchImage) s.mem
    let s1 := (({ s with mem := marchTables images root } : State).setPart 0 (bootPart root)).mapDies fun _ x => x.marchFrames 0
    (d0 :: ds).foldl (fun (st : State) d => st.launchMarch d []) (s1.zeroGates (BitVec.allOnes 1152))

/-! ## The results (R477, R480) -/

/-- What a rank has written (R477): NFAIL of the summary, and the rows of its list. -/
def State.marchResult (s : State) (d rank : Nat) : Nat × List Nat :=
  let at_ := d * 2 ^ 44 + 2048 * rank
  let nfail := s.mem.readLe at_ 4
  (nfail, (List.range (min nfail 128)).map fun k => s.mem.readLe (at_ + 8 + 8 * k) 8 / 2048)

/-- What the boot firmware makes of one rank's results (R480): the tile's margin state with its repair table, which every row of the list joins that a
spare can still serve, and whether the march is to run again on it. Of a launch that ended otherwise no list stands. -/
def Margin.marched (m : Margin) (status : Nat) (again : Bool) (r : Nat × List Nat) : Margin × Bool :=
  let out := if m.state = 5 then m.before else 2
  if status ≠ 0 then ({ m with state := out }, false)
  else if r.1 = 0 then ({ m with state := if m.state = 5 then 0 else m.state }, false)
  else
    let fails := decide (16 < r.1) || again || r.2.any (repaired m.repair) || (addRepairs m.repair r.2).isNone
    ({ m with repair := addRows m.repair r.2, state := if fails then out else m.state }, !fails)

/-- The results of a march's ranks are acted on; and the tiles whose repair tables have changed. -/
def State.actOnMarch (s : State) (m : March) (status : Nat) : State × List TileNo :=
  ((List.range m.tiles.length).zip m.tiles).foldl (fun (a : State × List TileNo) p =>
    let t := a.1.tile p.2
    let r := t.margin.marched status (m.again.contains p.2) (s.marchResult m.die p.1)
    (a.1.setTile p.2 { t with margin := r.1 }, if r.2 then a.2 ++ [p.2] else a.2)) (s, [])

/-- A launch of the march completes (R480): its results are acted on, a die whose repair tables have changed is tested again, and with no march
left boot goes on with step 8. Any other launch, and one that completes when the Gallery die is lost, changes nothing here. -/
def State.marchEnds (s : State) (launch status : Nat) : State :=
  match s.boot.marches.find? fun (m : March) => m.launch = launch with
  | none => s
  | some m =>
    if s.gallery.lost then s
    else
      let (s1, changed) := s.actOnMarch m status
      let s2 := { s1 with boot := { s1.boot with marches := s1.boot.marches.filter fun (x : March) => x.launch ≠ launch } }
      if !changed.isEmpty then s2.launchMarch m.die changed
      else if s2.boot.marches.isEmpty then s2.bootEnds
      else s2

end Sys2Proof.Machine
end

