-- ==== Sys2Proof/Machine/Scheduler.lean ====
section
/-! DEFINITION. The tile schedulers (chapter 18): host queues and the sump, gates, placement, staging and residency, work items,
completion, pre-emption and restoration. -/
namespace Sys2Proof.Machine

/-! ## Gate semaphores and partitions (R364, R370) -/

/-- GATE_SIG (R364): ignored for a tile outside the partition or not enabled at shipment. -/
def execGateSig (p : PartNo) (v : Word) (s : State) : Host.Outcome State Fault Refusal :=
  let g := gateOf v.toNat
  .next (if s.window p && s.gateTile p g.1 then s.raiseGate g else s)

/-- GATE_INIT (R364). -/
def execGateInit (p : PartNo) (v : Word) (s : State) : Host.Outcome State Fault Refusal :=
  let g := gateOf v.toNat
  .next (if s.window p && s.gateTile p g.1 then s.setGate g.1 g.2.1 (BitVec.ofNat 32 g.2.2) else s)

/-- A partition is created (R364, R440): not one that exists, nor of tiles that another holds (log 48). -/
def execPartitionCreate (p : PartNo) (tiles : BitVec 1152) (s : State) : Host.Outcome State Fault Refusal :=
  if (s.part p).created || (vlist s.parts).any fun q => q.created && decide (q.tiles &&& tiles ≠ 0) then .next s
  else
    let s1 := (s.setPart p (Part.withTiles tiles)).zeroGates tiles
    .next ((s1.part p).tileList.foldl State.onIdle s1)

/-! ## Host queues (R366, R368) -/

/-- The entries of a queue's ring. -/
def Queue.size (q : Queue) : Nat := q.sizeM1 + 1

/-- Change a host queue. -/
def Part.mapQueue (p : Part) (k : Nat) (f : Queue → Queue) : Part := { p with queues := vset p.queues k (f (vget p.queues k)) }

/-- A write of QTAIL (R366): entries become available, or the queue stops with QERR, until one after QERR is clear sets it going again. -/
def Queue.setTail (q : Queue) (v : Word) : Queue :=
  let t := v.setWidth 32
  let beyond := decide (q.size < (t - q.head).toNat)
  { q with tail := t, err := q.err || beyond, stopped := beyond || (q.err && q.stopped) }

/-- QTAIL (R366). -/
def execQtail (p : PartNo) (q : Fin 64) (v : Word) (s : State) : Host.Outcome State Fault Refusal :=
  if s.window p then .next (s.setPart p ((s.part p).mapQueue q.val fun x => x.setTail v)) else .next s

/-- Whether a queue has an entry ready for a die. -/
def Queue.ready (q : Queue) (die : Nat) : Bool :=
  q.en && !q.err && !q.stopped && decide (q.die = die) && q.tail ≠ q.head

/-- The queue of a partition that is served next for a die (R368). -/
def Part.nextQueue (p : Part) (die : Nat) : Option Nat :=
  if !p.created || !p.enable then none
  else ((List.range 64).map fun k => (vget p.queueTurn die + k) % 64).find? fun k => (vget p.queues k).ready die

/-- The partition and queue that a die's pool serves next (R368). -/
def State.nextEntry (s : State) (die : Nat) : Option (PartNo × Nat) :=
  ((List.range 16).map fun k => (Fin.ofNat 16 (vget s.turnPart die + k) : PartNo)).findSome? fun p =>
    ((s.part p).nextQueue die).map fun q => (p, q)

/-- Whether a die's pool takes host entries (R368). -/
def State.takesHost (s : State) (die : Nat) : Bool :=
  decide (32 < s.poolFree die) && (s.hostSumped die || (s.die die).sump.isEmpty)

/-- The pool of the acting tile's die takes a host entry (R363, R366, R368). -/
def execLaunchAccept (s : State) : Host.Outcome State Fault Refusal :=
  let d := s.myDie
  match (if s.takesHost d then s.nextEntry d else none) with
  | none => .next s
  | some (p, k) =>
    let q := vget (s.part p).queues k
    let at_ := q.base + 0x140 * (q.head.toNat % q.size)
    let s1 := (s.noteRead p at_ 0x140).enterPool d p none false (s.privBytes p at_ 0x140)
    let part := (s1.part p).mapQueue k fun x => { x with head := x.head + 1 }
    .next { s1.setPart p { part with queueTurn := vset part.queueTurn d ((k + 1) % 64) } with
      turnPart := vset s1.turnPart d ((p.val + 1) % 16) }

/-- The oldest sump entry of the acting tile's die moves into its pool (R368). -/
def execSumpAdmit (s : State) : Host.Outcome State Fault Refusal :=
  let d := s.myDie
  match (s.die d).sump with
  | c :: rest =>
    if decide (1 ≤ s.poolFree d) && !s.hostSumped d then
      .next ((s.setDie d { s.die d with sump := rest }).enterPool d c.part (some c.tile) true c.record)
    else .next s
  | [] => .next s

/-- A write of HSUMP_DONE (R447): the host has consumed entries of its sump ring. -/
def State.hsumpDone (s : State) (d : Nat) (v : Word) : State :=
  s.setDie d { s.die d with hostSump := (s.die d).hostSump.drop (v.toNat % 2 ^ 24) }

/-- HSUMP_DONE (R447). -/
def execHsumpDone (d : DieNo) (v : Word) (s : State) : Host.Outcome State Fault Refusal :=
  .next (if s.hostUp then s.hsumpDone d.val v else s)

/-! ## Eligibility (R365) -/

/-- Whether one launch comes before another: higher PRIO, then arrival (R365, R369, R371). -/
def Launch.before (a b : Launch) : Bool :=
  if a.record.prio ≠ b.record.prio then decide (b.record.prio < a.record.prio) else decide (a.order < b.order)

/-- Insertion into launches in their order. -/
def insertLaunch (l : Launch) : List Launch → List Launch
  | [] => [l]
  | x :: xs => if l.before x then l :: x :: xs else x :: insertLaunch l xs

/-- Launches in their order. -/
def sortLaunches (ls : List Launch) : List Launch := ls.foldl (fun acc l => insertLaunch l acc) []

/-- Whether every gate of a launch holds its count, the counts of gates that name one semaphore added (R365). -/
def State.gatesHold (s : State) (l : Launch) : Bool :=
  l.record.gates.all fun g =>
    let need := (l.record.gates.filter fun h => h.1 = g.1 && h.2.1 = g.2.1).foldl (fun n h => n + h.2.2) 0
    decide (need ≤ (s.gate g.1 g.2.1).toNat)

/-- The gates of a launch lowered by their counts. -/
def State.lowerGates (s : State) (l : Launch) : State :=
  l.record.gates.foldl (fun st g => st.setGate g.1 g.2.1 (BitVec.ofNat 32 ((st.gate g.1 g.2.1).toNat - g.2.2))) s

/-- Every waiting entry whose gates hold becomes eligible, tested one at a time in order (R365). -/
def execLaunchEligible (s : State) : Host.Outcome State Fault Refusal :=
  .next ((sortLaunches (s.launches.filter fun (l : Launch) => !l.eligible && l.ending.isNone)).foldl (fun st l =>
    if st.gatesHold l then (st.lowerGates l).mapLaunch l.id fun x => { x with eligible := true } else st) s)

/-! ## Placement (R370 to R372, R383) -/

/-- Whether a rank is saved. -/
def RankPlace.isSaved : RankPlace → Bool
  | .saved _ => true
  | _ => false

/-- Whether a rank neither stands on a tile nor is on its way. -/
def RankPlace.away : RankPlace → Bool
  | .saved _ | .gone _ | .lost => true
  | _ => false

/-- Whether a gang is saved as a whole (R383). -/
def Gang.isSaved (g : Gang) : Bool := g.ranks.any RankPlace.isSaved && g.ranks.all RankPlace.away

/-- Whether a gang stands on its tiles: each rank running, or ended (R378). -/
def Gang.isResident (g : Gang) : Bool :=
  g.ranks.any (fun r => match r with | .onTile _ => true | _ => false) &&
  g.ranks.all fun r => match r with | .onTile _ | .ended _ | .gone _ | .lost => true | _ => false

/-- The ranks of a gang that are saved. -/
def Gang.savedRanks (g : Gang) : Nat := (g.ranks.filter RankPlace.isSaved).length

/-- What a launch would place next: a saved gang that no PREEMPT holds, or a new gang; with the tiles it takes. -/
def Launch.nextToPlace (l : Launch) : Option (Option Gang × Nat) :=
  if l.ending.isSome || !l.eligible then none
  else match l.gangs.find? fun (g : Gang) => g.isSaved && !(l.heldPreempt && g.asked) with
    | some g => some (some g, g.savedRanks)
    | none => if l.nextGang < l.record.gangCount then some (none, l.record.gangTiles) else none

/-- Whether a tile is held by a gang some of whose runs still stand (R42). -/
def State.heldByGang (s : State) (t : TileNo) : Bool :=
  s.launches.any fun (l : Launch) => l.gangs.any fun (g : Gang) => g.ranks.contains (.ended t)

/-- Whether a reset of a tile or of its die is under way (R433). -/
def State.tileDown (s : State) (t : TileNo) : Bool :=
  s.dieDown (dieOf t) || (s.gallery.resetBusy && decide (bitsNat s.gallery.resetWord 63 60 = 1 ∧ bitsNat s.gallery.resetWord 47 32 = t.val))

/-- Whether a tile may take a run now: idle, usable, not being reset, its die not halted (R370, R376, R433, R453). -/
def State.takesRun (s : State) (t : TileNo) : Bool :=
  (s.tile t).idle && !s.tileDown t && s.usable t && !(s.die (dieOf t)).halted && !s.heldByGang t

/-- The idle tiles of a launch's tile set that a level may use. -/
def State.freeTiles (s : State) (l : Launch) (barred : List TileNo) : List TileNo :=
  (s.tileSet l.part l.record.dieMask).filter fun t => s.takesRun t && !barred.contains t

/-- The first `k` tiles from a cursor on, wrapping (R370). -/
def takeFrom (cursor k : Nat) (ts : List TileNo) : List TileNo :=
  ((ts.filter fun (t : TileNo) => decide (cursor ≤ t.val)) ++ ts.filter fun (t : TileNo) => decide (t.val < cursor)).take k

/-- A placement to be made: a launch, a saved gang or none for the next one, and the tiles. -/
structure Placement where
  launch : Launch
  gang : Option Gang
  tiles : List TileNo
  deriving DecidableEq, Repr, Inhabited

/-- The placement to be made among launches in their order (R371): an entry that lacks tiles bars its level, and its tile set
to the levels below. -/
def State.placeIn (s : State) : List Launch → Nat → Bool → List TileNo → List TileNo → Option Placement
  | [], _, _, _, _ => none
  | l :: rest, prio, blocked, barred, level =>
    let same := decide (l.record.prio = prio)
    let blocked1 := same && blocked
    let barred1 := if same then barred else barred ++ level
    let level1 := if same then level else []
    match l.nextToPlace with
    | none => s.placeIn rest l.record.prio blocked1 barred1 level1
    | some (g, k) =>
      if blocked1 then s.placeIn rest l.record.prio true barred1 level1
      else
        let free := s.freeTiles l barred1
        if k ≤ free.length then
          some { launch := l, gang := g, tiles := takeFrom (vget (s.part l.part).cursors l.record.prio) k free }
        else s.placeIn rest l.record.prio true barred1 (level1 ++ s.tileSet l.part l.record.dieMask)

/-- The launches of a die's pool in their order. -/
def State.poolOf (s : State) (d : Nat) : List Launch := sortLaunches (s.launches.filter fun (l : Launch) => l.die.val = d)

/-- The next placement of a die's pool. -/
def State.nextPlacement (s : State) (d : Nat) : Option Placement := s.placeIn (s.poolOf d) 8 false [] []

/-- The cursor of a level moves past the last tile taken (R370). -/
def State.moveCursor (s : State) (p : PartNo) (prio : Nat) (ts : List TileNo) : State :=
  match ts.getLast? with
  | none => s
  | some t => s.setPart p { s.part p with cursors := vset (s.part p).cursors prio ((t.val + 1) % 1152) }

/-- The run of a rank as placed (R40 to R44). -/
def Launch.run (l : Launch) (gang rank : Nat) : Run :=
  let r := l.record
  { launch := l.id, gang := gang, rank := rank, gangTiles := r.gangTiles, items := r.runItems, item := 0, wid := r.wid gang rank 0,
    mailbox := r.mailbox, img := l.img.getD default, part := l.part, tag := r.tag, staged := 0, resident := false,
    started := false, itemEnded := false, doneItems := 0, sc := 0, drained := false, gate := none, retrace := false, killed := false }

/-- When a slice that begins now ends (R378); 0 without a slice. -/
def State.sliceFrom (s : State) (slice : Nat) : Nat := if slice = 0 then 0 else s.ns + 1024 * slice

/-- A gang placed on tiles in ascending rank (R370). -/
def State.placeGang (s : State) (l : Launch) (ts : List TileNo) : State :=
  let n := l.nextGang
  let g : Gang :=
    { index := n, ranks := ts.map RankPlace.onTile, since := s.ns, residentAt := none, sliceEnd := s.sliceFrom l.record.slice, paused := none,
      expired := false, ordered := false, asked := false }
  let s1 := ((List.range ts.length).zip ts).foldl (fun (st : State) p =>
    st.setTile p.2 { (st.tile p.2).mapPriv (fun x => { x with ctxState := 0b11 }) with
      run := some (l.run n p.1), clock := max (st.tile p.2).clock st.wall }) s
  (s1.mapLaunch l.id fun x => { x with nextGang := n + 1, gangs := x.gangs ++ [g] }).moveCursor l.part l.record.prio ts

/-- A launch whose tile set has shrunk below its gang's tiles, gangs still being to place, new or saved (18 Table 18.4). -/
def State.starved (s : State) (d : Nat) : Option Launch :=
  (s.poolOf d).find? fun (l : Launch) => l.ending.isNone &&
    (decide (l.nextGang < l.record.gangCount) || l.gangs.any fun (g : Gang) => g.isSaved) &&
    decide ((s.tileSet l.part l.record.dieMask).length < l.record.gangTiles)

/-- The scheduler of the acting tile's die places its next gang (R370, R371), or abandons the gangs of a launch whose tile set
no longer holds one (R372). -/
def execGangPlacement (s : State) : Host.Outcome State Fault Refusal :=
  match s.starved s.myDie with
  | some l => .next (s.setEnding l.id { status := 1, code := 0x18, killCode := 0, cause := 0, unitKind := 0, unitPlace := 0 })
  | none => match s.nextPlacement s.myDie with
    | some p => if p.gang.isNone then .next (s.placeGang p.launch p.tiles) else .next s
    | none => .next s

/-! ## Residency (R152, R373, R374) -/

/-- A transfer of the scheduler under the privileged class: its pieces, or the engine fault it meets (R373, R389). -/
def State.fetchPages (s : State) (p : PartNo) (va n : Nat) : Except (Nat × Nat × Nat × Nat) (List (Loc × Nat)) :=
  s.ectlPages p { minor := 1, va := va, len := n, moved := 0, addr := 0, cycle := 0, fault := none }

/-- A staging copy meets an engine fault (R373, R396): the run waits until it is resolved, and cause 0x20 is pending, which the first boundary of
the kernel takes (R346). No bundle issued the copy, so EF_ADDR and EF_CYCLE are free values, as the request tag is (log 15, log 36). -/
def State.stagingFault (s : State) (tn : TileNo) (f : Nat × Nat × Nat × Nat) : State :=
  let s0 := if f.1 = 3 then s.refuse (homeDie f.2.2.2) tn f.2.1 f.2.2.2 else s
  let (tag, s1) := s0.fresh
  let (addr, s2) := s1.fresh
  let (cycle, s3) := s2.fresh
  s3.setTile tn (((s3.tile tn).mapPriv fun p =>
    { p with ef := { kind := f.1, handler := false, va := f.2.2.1, addr := addr.toNat % 2 ^ 32, cycle := cycle.toNat, detail := f.2.1,
                     reqTag := tag.toNat % 4096, standing := true } }).raiseAsync
      { cause := 0x20, value := 0, addr := addr.toNat % 2 ^ 32, cycle := cycle.toNat, sub := 0 })

/-- The scratchpad with a run's declared bytes zero and VALID (R152). -/
def Store.zeroTo (m : Store) (n : Nat) : Store :=
  { bytes := m.bytes.filter fun c => decide (n ≤ c.1), poison := m.poison.filter fun w => decide (n ≤ 8 * w) }

/-- The copies that a run's residency takes: the body, then the staging copies in order: global address, length, offset. -/
def State.residencyCopies (s : State) (r : Run) : List (Nat × Nat × Nat) :=
  match s.launch r.launch with
  | none => []
  | some l => (l.record.image + 64, r.img.bodyLen, 0) :: l.record.stages.map fun st => (st.1, st.2.1, st.2.2)

/-- The copies still to make are made in turn; a fault stops them. -/
def State.stage (s : State) (tn : TileNo) (r : Run) : List (Nat × Nat × Nat) → State
  | [] => s
  | c :: rest =>
    let t := s.tile tn
    match s.fetchPages r.part c.1 c.2.1 with
    | .error f => s.stagingFault tn f
    | .ok ls => if ls.any fun l => s.heldAt .read l.1 then s else
      let n := ((t.run.map Run.staged).getD 0)
      let zeros : SpadWrite := { cells := (t.stuckBits.filter fun b => decide (b.1 / 8 < r.img.scratch)).map fun b => (b.1 / 8, 0), poison := [] }
      let m := if n = 0 then (t.spad.zeroTo r.img.scratch).apply (zeros.stuck t.stuckBits) else t.spad
      let bs := (ls.map fun l => s.readLoc l.1 l.2).flatten
      (s.setTile tn { t with spad := m.apply ((byteWrite c.2.2 bs).stuck t.stuckBits), run := t.run.map fun x => { x with staged := n + 1 } }).stage tn r rest

/-- A work item begins at a tile in the state of 02 Table 2.2, with its segment entered (R76, R157, R418). -/
def Tile.startItem (t : Tile) (r : Run) : Tile :=
  let t1 : Tile :=
    { t with
      k := Ctx.start r.img.entry, vec := VecState.start, streams := Streams.start t.streams.next [], shapes := vrep 8 none,
      mx := Matrix.start t.mx.acc, counters := Counters.zero, run := some r, checker := none, dfr := Deferred.none,
      seg := { t.seg with safeMark := 0, doubles := 0 },
      survey := { t.survey with waits := Waits.none } }
  t1.newSegment

/-- The run of a tile becomes resident (R374): semaphores, raisers and SEM_OVERFLOW zero, CTX_STATE 0b00, the accumulator
store zero (R242), REWINDS zero (20 Table 20.9). -/
def Tile.becomeResident (t : Tile) (r : Run) : Tile :=
  let t1 : Tile :=
    { t with sems := Sems.zero, mx := Matrix.start { vals := [], poison := [] }, seg := { t.seg with rewinds := 0 },
             priv := { t.priv with ctxState := 0b00 }, dbg := { t.dbg with skip := false } }
  t1.startItem { r with resident := true }

/-- Whether every rank of a gang is resident. -/
def State.gangReady (s : State) (g : Gang) : Bool :=
  g.ranks.all fun p => match p with
    | .onTile t => ((s.tile t).run.map Run.resident).getD false
    | _ => true

/-- The acting tile's gang is resident, once the last of its runs is (R374, R378). -/
def State.noteResident (s : State) : State :=
  match s.me.run with
  | none => s
  | some r => s.mapGang r.launch r.gang fun g => if s.gangReady g then { g with residentAt := g.residentAt.or (some s.ns) } else g

/-- The acting tile's run becomes resident once its copies are in place (R373, R374). -/
def execRunResident (s : State) : Host.Outcome State Fault Refusal :=
  let t := s.me
  match t.run with
  | none => .next s
  | some r =>
    if r.resident || t.priv.ef.standing || t.priv.active || decide (t.priv.ctxState ≠ 0b11) then .next s
    else
      let cs := s.residencyCopies r
      let s1 := s.stage s.cur r (cs.drop r.staged)
      match s1.me.run with
      | some q => if q.staged = cs.length then .next (s1.mapMe fun t => t.becomeResident q).noteResident else .next s1
      | none => .next s1

/-! ## Work items (R42, R207, R376) -/

/-- The launch gate as a producer (R315). -/
def gateProducer : Producer := { kind := 6, place := 0xFFFF, obj := 0, addr := 0, gate := none }

/-- The tiles of the acting tile's gang start (R42, R373): their first bundles issue once every rank is resident, so no tile's clock stands before
the instant at which the last of them became so. -/
def execGangStart (s : State) : Host.Outcome State Fault Refusal :=
  match s.me.run.bind fun (r : Run) => (s.gangOf r).map fun g => (r, g) with
  | none => .next s
  | some (r, g) =>
    if r.started || !s.gangReady g then .next s
    else
      let ts := g.ranks.filterMap RankPlace.tile
      let at_ := ts.foldl (fun n t => max n (s.tile t).clock) s.wall
      .next (ts.foldl (fun (st : State) t => st.setTile t { st.tile t with
        run := (st.tile t).run.map fun x => { x with started := true, sc := 0, gate := some gateProducer }, clock := at_ }) s)

/-- Whether the final segment of a tile's work item may commit (R169, R207): its commands presented, its matrix work done. -/
def Tile.mayCommit (t : Tile) : Bool :=
  t.winding && t.eng.lag.isEmpty && t.mx.over_ && !t.deciding

/-- Whether what a work item's completion waits for after its final commit is over (R207). -/
def Tile.settled (t : Tile) : Bool :=
  t.eng.held.isEmpty && t.eng.released.isEmpty && t.eng.queue.isEmpty && t.mx.over_ &&
  t.streams.all.all fun (st : Stream) => st.queue.isEmpty

/-- A rank's run has ended (R376); a gang all of whose runs have ended leaves its tiles. -/
def State.rankEnded (s : State) (tn : TileNo) (r : Run) : State :=
  let s1 := (s.mapGang r.launch r.gang fun g => g.setRank r.rank (match g.ranks[r.rank]? with
    | some (.saving _ _) => .gone tn
    | _ => .ended tn)).endRun tn
  let s2 := match s.rankPlace r with
    | some (.saving _ slot) => s1.freeSlot r.part slot
    | _ => s1
  s2.mapLaunch r.launch fun l => { l with gangs := l.gangs.filter fun (g : Gang) =>
    !(g.index = r.gang && g.ranks.all RankPlace.over_) }

/-- The run of a tile goes on with its next work item (R376, R315). -/
def State.nextItem (s : State) (tn : TileNo) (r : Run) : State :=
  match s.launch r.launch with
  | none => s
  | some l =>
    let t := s.tile tn
    let place := s.place tn
    let ref : Option LegRef := if t.survey.legs.isEmpty then none else some { place := place, seq := t.survey.next - 1 }
    let r1 := { r with
      item := r.item + 1, wid := l.record.wid r.gang r.rank (r.item + 1), itemEnded := false, drained := false,
      doneItems := r.doneItems + 1, gate := some { kind := 6, place := place, obj := 0, addr := 0, gate := ref } }
    s.setTile tn (t.startItem r1)

/-- The work item of the acting tile: its final segment commits; once its streams have drained and its commands completed it
completes, at no earlier clock period than they did, and the run goes on or ends (R207, R376). -/
def execWorkItemComplete (s : State) : Host.Outcome State Fault Refusal :=
  let t := s.me
  match t.run with
  | none => .next s
  | some r =>
    if !t.mayCommit then .next s
    else if !r.drained then
      .next ((s.commitSegment s.cur).mapMe fun t => { t with run := t.run.map fun x => { x with drained := true } })
    else if !t.settled then .next s
    else
      let s0 := s.setMe { t with clock := max t.clock s.wall }
      let s1 := (s0.flushTrace s.cur).traceWrite s.cur
        { wall := s0.me.clock / 1000, kind := 9, obj := 0, addr := r.img.entry, cycle := t.k.cycle, info := 0, segNo := 0 }
      let s2 := s1.mapLaunch r.launch fun l => { l with itemsDone := l.itemsDone + 1 }
      if r.item + 1 < r.items then .next (s2.nextItem s.cur r) else .next (s2.rankEnded s.cur r)

/-! ## Completion (R375, R384, R459) -/

/-- Whether nothing of a launch stands on a tile or is on its way. -/
def Launch.quiet (l : Launch) : Bool := l.gangs.all fun (g : Gang) => g.ranks.all fun p => match p with
  | .saved _ | .gone _ | .lost => true
  | _ => false

/-- How a launch ends, once it may complete (R375): early, with no gang left on tiles, or with every item done. -/
def Launch.outcome (l : Launch) : Option Ending :=
  match l.ending with
  | some e => if l.quiet then some e else none
  | none => if l.eligible && l.gangs.isEmpty && decide (l.nextGang = l.record.gangCount) then
      some { status := 0, code := 0, killCode := 0, cause := 0, unitKind := 0, unitPlace := 0 } else none

/-- The completion record (18 Table 18.5). -/
def Launch.completion (l : Launch) (e : Ending) (endNs : Nat) : List Byte :=
  le8 (l.record.tag.toNat * 2 ^ 32 + e.status * 2 ^ 24 + e.code * 2 ^ 16 + e.killCode % 65536) ++
  le8 ((l.img.map fun (i : Image) => i.kernelId.toNat).getD 0) ++ le8 l.itemsDone ++
  le8 (e.cause * 2 ^ 56 + e.unitKind * 2 ^ 48 + e.unitPlace * 2 ^ 32 + b2n l.sumped * 2 ^ 17 + b2n l.raised * 2 ^ 16 + l.preempts) ++
  le8 l.accept ++ le8 l.start ++ le8 endNs ++ le8 0

/-- Whether a launch's pages are still to be hashed, or a divergence holds its completion (R456, R459). -/
def State.completionHeld (s : State) (l : Launch) : Bool := (decide ((s.part l.part).rings.divMode ≠ 0) && !l.hashed) || l.divHeld

/-- A launch completes (R375): the record, DONE_SIG, the pool entry; the boot firmware reads the results of its march (R480). -/
def State.complete (s : State) (l : Launch) (e : Ending) : State :=
  let s0 := l.gangs.foldl (fun st (g : Gang) => st.killGang l.id g.index (fun _ => false) none) s
  let now := s.masterNow
  let s1 := if l.record.recEn then s0.privWrite l.part l.record.recAddr (validBytes (l.completion e now)) else s0
  let s2 := if e.status = 0 ∧ l.record.doneEn then s1.raiseGate l.record.doneSig else s1
  ({ s2 with launches := s2.launches.filter fun (x : Launch) => x.id ≠ l.id } : State).marchEnds l.id e.status

/-- A launch completes (R375). -/
def execLaunchCompletion (id : Nat) (s : State) : Host.Outcome State Fault Refusal :=
  match s.launch id with
  | none => .next s
  | some l => match l.outcome with
    | some e => if s.completionHeld l then .next s else .next (s.complete l e)
    | none => .next s

/-- The launches of a partition that hold a tag (log 49). -/
def State.tagged (s : State) (p : PartNo) (v : Word) : List Launch :=
  s.launches.filter fun (l : Launch) => l.part = p && l.record.tag.toNat = v.toNat / 2 ^ 32

/-- The children with a tag that wait in the sump of a die are removed (R384): they end as killed. -/
def State.killSump (s : State) (p : PartNo) (v : Word) (e : Ending) (d : Nat) : State :=
  let hit := fun (c : Child) => c.part = p && (recordOf c.record).tag.toNat = v.toNat / 2 ^ 32
  let s1 := s.setDie d { s.die d with sump := (s.die d).sump.filter fun c => !hit c }
  ((s.die d).sump.filter hit).foldl (fun st c => st.childEnds d c e) s1

/-- A write of KILL (R384). -/
def State.kill (s : State) (p : PartNo) (v : Word) : State :=
  let e : Ending := { status := 2, code := 0, killCode := v.toNat % 65536, cause := 0, unitKind := 0, unitPlace := 0 }
  let s1 := (s.tagged p v).foldl (fun st l => st.killLaunch l.id e fun _ => false) s
  (List.range 12).foldl (fun st d => st.killSump p v e d) s1

/-- KILL (R384). -/
def execKill (p : PartNo) (v : Word) (s : State) : Host.Outcome State Fault Refusal :=
  .next (if s.window p then s.kill p v else s)

/-- A write of PREEMPT for a launch (R384): a first one asks for the pre-emption of its resident gangs, a second undoes it. -/
def Launch.togglePreempt (l : Launch) : Launch :=
  if l.heldPreempt then { l with heldPreempt := false, gangs := l.gangs.map fun (g : Gang) => { g with asked := false } }
  else if l.gangs.any Gang.isResident then
    { l with heldPreempt := true, gangs := l.gangs.map fun (g : Gang) => if g.isResident then { g with asked := true } else g }
  else l

/-- A write of PREEMPT (R384). -/
def State.preempt (s : State) (p : PartNo) (v : Word) : State :=
  (s.tagged p v).foldl (fun st l => st.mapLaunch l.id Launch.togglePreempt) s

/-- PREEMPT (R384). -/
def execPreempt (p : PartNo) (v : Word) (s : State) : Host.Outcome State Fault Refusal :=
  .next (if s.window p then s.preempt p v else s)

/-! ## Pre-emption (R378 to R383) -/

/-- The tiles of the ranks of a gang that run. -/
def Gang.running (g : Gang) : List TileNo := g.ranks.filterMap fun p => match p with | .onTile t => some t | _ => none

/-- Whether a launch of a pool waits for tiles that a gang holds (R378). -/
def State.waitsFor (s : State) (l : Launch) (g : Gang) : Bool :=
  match l.nextToPlace with
  | none => false
  | some (_, k) => decide ((s.freeTiles l []).length < k) &&
      (s.tileSet l.part l.record.dieMask).any fun t => (g.ranks.filterMap RankPlace.tile).contains t

/-- Whether another launch of equal or higher PRIO waits for a gang's tiles (R378). -/
def State.sliceWanted (s : State) (l : Launch) (g : Gang) : Bool :=
  s.launches.any fun (x : Launch) => decide (x.id ≠ l.id) && decide (l.record.prio ≤ x.record.prio) && s.waitsFor x g

/-- The minimum slice of a launch in ns (R379). -/
def Launch.minSlice (l : Launch) : Nat := 1024 * ((2 * (2000 + (l.img.getD default).scratch / 64) + 3200 + 1023) / 1024)

/-- Whether the pre-emption of a gang is called for (R378). -/
def State.preemptCase (s : State) (l : Launch) (g : Gang) : Bool :=
  (l.heldPreempt && g.asked) || (g.expired && s.sliceWanted l g) ||
  ((g.residentAt.any fun n => decide (n + l.minSlice ≤ s.ns)) &&
    s.launches.any fun (x : Launch) => decide (l.record.prio < x.record.prio) && s.waitsFor x g)

/-- Whether the tiles of a gang need not have spent 4096 sc (R378): where it is asked for by PREEMPT, the spec's rules differ (log 85). -/
def Launch.early (l : Launch) (g : Gang) : Bool := l.heldPreempt && g.asked && !Config.preemptWaits

/-- Whether a gang may be pre-empted (R378, R453): its tiles have spent 4096 sc, slots are free, no die halt pauses it. -/
def State.preemptable (s : State) (l : Launch) (g : Gang) : Bool :=
  let p := s.part l.part
  g.isResident && !g.ordered && !s.gangHalted g &&
  (g.running.all fun t => match (s.tile t).run with | some r => r.started && (decide (4096 ≤ r.sc) || l.early g) | none => false) &&
  decide (g.running.length ≤ p.ctxSlots - p.ctxUsed.length)

/-- The gang of a die's pool that is pre-empted next (R378): the lowest PRIO, then the one placed or resumed last. -/
def State.nextPreempt (s : State) (d : Nat) : Option (Launch × Gang) :=
  ((s.poolOf d).flatMap fun l => (l.gangs.filter fun g => s.preemptable l g && s.preemptCase l g).map fun g => (l, g)).foldl
    (fun (b : Option (Launch × Gang)) c => match b with
      | some x => if c.1.record.prio < x.1.record.prio ∨ (c.1.record.prio = x.1.record.prio ∧ x.2.since < c.2.since) then some c else some x
      | none => some c) none

/-- The time slice of the acting tile's gang ends (R378): when no entry waits for its tiles it begins again. -/
def execSliceExpiry (s : State) : Host.Outcome State Fault Refusal :=
  match s.me.run.bind fun (r : Run) => (s.launch r.launch).bind fun l => (s.gangOf r).map fun g => (r, l, g) with
  | none => .next s
  | some (r, l, g) =>
    if g.sliceEnd = 0 ∨ s.ns < g.sliceEnd ∨ s.gangHalted g ∨ !g.isResident then .next s
    else if s.sliceWanted l g then .next (s.mapGang r.launch r.gang fun x => { x with expired := true })
    else .next (s.mapGang r.launch r.gang fun x => { x with expired := false, sliceEnd := s.sliceFrom l.record.slice })

/-- The lowest free context slot of a partition. -/
def Part.freeSlot (p : Part) : Option Nat := (List.range p.ctxSlots).find? fun k => !p.ctxUsed.contains k

/-- TRAP_VALUE of causes 0x22 and 0x24 (R343, R380). -/
def rankValue (tag : BitVec 32) (slot rank : Nat) : Word := word (tag.toNat * 2 ^ 32 + slot % 65536 * 65536 + rank % 65536)

/-- A rank of a gang is asked to save itself: its slot, and cause 0x22 (R380); one whose run has ended is released (R381). -/
def State.orderRank (s : State) (l : Launch) (gang rank : Nat) : State :=
  match ((s.launch l.id).bind fun x => x.gangs.find? fun (g : Gang) => g.index = gang).bind fun g => g.ranks[rank]? with
  | some (.onTile t) => match (s.part l.part).freeSlot with
    | some slot =>
      let s1 := s.setPart l.part { s.part l.part with ctxUsed := insertNat (s.part l.part).ctxUsed slot }
      let s2 := s1.mapGang l.id gang fun g => g.setRank rank (.saving t slot)
      s2.setTile t ((s2.tile t).raiseAsync { cause := 0x22, value := rankValue l.record.tag slot rank, addr := 0, cycle := 0, sub := 0 })
    | none => s
  | some (.ended t) => s.mapGang l.id gang fun g => g.setRank rank (.gone t)
  | _ => s

/-- The scheduler of the acting tile's die pre-empts a gang (R380). -/
def execGangPreemption (s : State) : Host.Outcome State Fault Refusal :=
  match s.nextPreempt s.myDie with
  | none => .next s
  | some (l, g) =>
    let s1 := (List.range g.ranks.length).foldl (fun st k => st.orderRank l g.index k) s
    .next ((s1.mapGang l.id g.index fun x => { x with ordered := true }).mapLaunch l.id fun x => { x with preempts := min 0xFFFF (x.preempts + 1) })

/-- Give tiles to the saved ranks of a gang in ascending rank (R383): rank, slot, tile. -/
def assignTiles : List (Nat × RankPlace) → List TileNo → List (Nat × Nat × TileNo)
  | (k, .saved slot) :: rest, t :: ts => (k, slot, t) :: assignTiles rest ts
  | (_, .saved _) :: _, [] => []
  | _ :: rest, ts => assignTiles rest ts
  | [], _ => []

/-- A saved rank is placed on a tile, which enters its handler by cause 0x24 (R343, R352, R383). -/
def State.restoreRank (s : State) (l : Launch) (gang : Nat) (a : Nat × Nat × TileNo) : State :=
  let s1 := s.mapGang l.id gang fun g => g.setRank a.1 (.restoring a.2.2 a.2.1)
  let s2 := s1.setTile a.2.2 { s1.tile a.2.2 with run := some (l.run gang a.1), clock := max (s1.tile a.2.2).clock s1.wall }
  let s3 := ({ s2 with cur := a.2.2 } : State).takeTrap
    { cause := 0x24, sub := 0, slot := 15, async := true, value := rankValue l.record.tag a.2.1 a.1, addr := 0, cycle := 0 }
  { s3 with cur := s.cur }

/-- The scheduler of the acting tile's die places a saved gang again (R383). -/
def execGangRestore (s : State) : Host.Outcome State Fault Refusal :=
  match s.nextPlacement s.myDie with
  | some p => match p.gang with
    | some g =>
      let s1 := (assignTiles ((List.range g.ranks.length).zip g.ranks) p.tiles).foldl (fun st a => st.restoreRank p.launch g.index a) s
      .next ((s1.mapGang p.launch.id g.index fun x => { x with ordered := false, expired := false, residentAt := none }).moveCursor
        p.launch.part p.launch.record.prio p.tiles)
    | none => .next s
  | none => .next s

end Sys2Proof.Machine
end

