-- ==== Sys2Proof/Machine/Margins.lean ====
section
/-! DEFINITION. Margins, containment and resets (chapter 20; 24 R473): the margin registers and the governor, quarantine, the error
classes that hardware raises by itself, and the reset domains. -/
namespace Sys2Proof.Machine

/-! ## Margin registers (R405 to R412) -/

/-- A write of partition 0x900 (R407, 20 Table 20.2): values that a field does not take leave it unchanged. -/
def Part.setMode (p : Part) (v : Word) : Part :=
  let mhz := bitsNat v 26 16
  { p with
    fixedMhz := if 800 ≤ mhz ∧ mhz ≤ 1300 then mhz else p.fixedMhz, triage := v.getLsbD 4,
    modeSet := if bitsNat v 1 0 = 3 then p.modeSet else v.setWidth 2 }

/-- A write of MODE_SET: tiles that are idle take the mode at once, the others when they next are (R407; log 50). -/
def State.modeSet (s : State) (p : PartNo) (v : Word) : State :=
  (s.part p).tileList.foldl State.onIdle (s.setPart p ((s.part p).setMode v))

/-- MODE_SET (R407). -/
def execModeSet (p : PartNo) (v : Word) (s : State) : Host.Outcome State Fault Refusal :=
  .next (if s.window p then s.modeSet p v else s)

/-- A write of HSET (R405): a setpoint for a tile of the partition in host-assisted mode, its voltage clamped; a clock outside 400
to 1500 MHz, or a tile in another mode, changes nothing (log 51). -/
def State.hset (s : State) (p : PartNo) (v : Word) : State :=
  let n := bitsNat v 58 48
  let mhz := bitsNat v 10 0
  let t := s.tile (tileNo n)
  if !(s.part p).tiles.getLsbD n || decide (1152 ≤ n) || t.margin.mode ≠ 2 || decide (mhz < 400) || decide (1500 < mhz) then s
  else
    let mv := max t.margin.floor (min (Config.ceilMv (n / 96)) (bitsNat v 43 32))
    s.setTile (tileNo n) { t with margin := { t.margin with mhz := mhz, mv := mv } }

/-- HSET (R405). -/
def execHset (p : PartNo) (v : Word) (s : State) : Host.Outcome State Fault Refusal :=
  .next (if s.window p then s.hset p v else s)

/-- A write of QUARANTINE (R430): the tile is quarantined at once, and a run on it ends at the work-item boundary. -/
def State.quarantineWrite (s : State) (d : Nat) (v : Word) : State :=
  let n := bitsNat v 6 0
  if 96 ≤ n then s
  else
    let t := tileNo (d * 96 + n)
    (s.quarantine t).killItem t (contained 7 (bitsNat v 12 8) (s.place t).toNat) false

/-- QUARANTINE (R430). -/
def execQuarantine (d : DieNo) (v : Word) (s : State) : Host.Outcome State Fault Refusal :=
  .next (if s.hostUp then s.quarantineWrite d.val v else s)

/-- A write of the governor's thresholds (R409): taken when REPLAY_LO is below REPLAY_HI, and TBUDGET is not zero. What is held here stands in the
NV array and its flash copy alike (log 9); it applies from the governor's next measurement. -/
def Die.setThresholds (d : Die) (budget : Bool) (v : Word) : Die :=
  if budget then (if bitsNat v 7 0 = 0 then d else { d with tbudget := bitsNat v 7 0 })
  else if bitsNat v 15 0 < bitsNat v 47 32 then { d with replayHi := bitsNat v 47 32, replayLo := bitsNat v 15 0 } else d

/-- REPLAY_HI, REPLAY_LO or TBUDGET (R409). -/
def execGovernorThresholds (d : DieNo) (budget : Bool) (v : Word) (s : State) : Host.Outcome State Fault Refusal :=
  .next (if s.hostUp then s.setDie d.val ((s.die d.val).setThresholds budget v) else s)

/-- A measurement of a tile in reclaim mode (R408): its rate, which the error-rate curve takes in at this clock and voltage (R411; log 9), a
voltage step, and the measurements in a row above REPLAY_HI at VCEIL (R410). -/
def Margin.measure (m : Margin) (d : Die) (ceil : Nat) : Margin :=
  let rate := m.replays * 10 ^ 9 / m.clks
  let atTop := decide (ceil ≤ m.mv) && decide (d.replayHi < rate)
  { m with
    rate := rate, replays := 0, clks := 0, highRuns := if atTop then m.highRuns + 1 else 0,
    curve := m.curve.map fun p => if p.1 = m.mhz ∧ p.2.1 = m.mv then (p.1, p.2.1, rate) else p,
    mv := m.reclaimMv ceil (if d.replayHi < rate then m.mv + 5 else if rate < d.replayLo then m.mv - 5 else m.mv) }

/-- One tile measured; one above REPLAY_HI at VCEIL for 60 measurements is to be excluded (R410). -/
def State.measure (s : State) (tn : TileNo) : State :=
  let t := s.tile tn
  if t.margin.mode ≠ 0 then s
  else
    let m := (t.margin.measure (s.die (dieOf tn)) (Config.ceilMv (dieOf tn))).drifted t.margin s.ns
    let s1 := s.setTile tn { t with margin := m }
    if 60 ≤ m.highRuns then s1.excludeSoon tn else s1

/-- The tiles of a die (R23). -/
def dieTiles (d : Nat) : List TileNo := (List.range 96).map fun k => tileNo (d * 96 + k)

/-- The governor of the acting tile's die measures its tiles (R408). -/
def execMarginMeasurement (s : State) : Host.Outcome State Fault Refusal :=
  let s1 := (dieTiles s.myDie).foldl State.measure s
  .next (s1.setDie s.myDie { s1.die s.myDie with measured := s.ns, budgetNow := (s1.die s.myDie).tbudget })

/-! ## Power and heat (R473; 20 Table 20.3 class 14) -/

/-- A die junction reaches 110 °C, or cools (R473). -/
def execJunctionThrottle (d : DieNo) (hot : Bool) (s : State) : Host.Outcome State Fault Refusal :=
  .next (s.setDie d.val { s.die d.val with throttled := hot })

/-- A package power cap, from 2.0 to 4.6 kW (R473). -/
def execPowerCap (watts : Nat) (s : State) : Host.Outcome State Fault Refusal :=
  .next (if 2000 ≤ watts ∧ watts ≤ 4600 then { s with gallery := { s.gallery with capWatts := watts } } else s)

/-- A thermal trip, or loss of power or coolant: everything stops (R473, R413). -/
def execThermalTrip (s : State) : Host.Outcome State Fault Refusal := .next { s with stopped := true }

/-! ## Reset domains (R433; 20 Table 20.10) -/

/-- The launch of the run on a tile ends (R433), at once on tiles that are reset. -/
def State.killRunOn (s : State) (e : Ending) (now : TileNo → Bool) (tn : TileNo) : State :=
  match (s.tile tn).run with
  | some r => s.killLaunch r.launch e now
  | none => s

/-- The launches with a run on one of some tiles end, at once on tiles that are reset. -/
def State.killRunsOn (s : State) (ts : List TileNo) (e : Ending) (now : TileNo → Bool) : State := ts.foldl (fun st t => st.killRunOn e now t) s

/-- A tile reset: contexts, scratchpad, accumulator store and a handler fault are lost; its NV state, handler store and survey
counter stay. The present voltage and the last rate, which are no NV state, are as their Reset column gives (R412; log 87). -/
def Tile.resetTile (t : Tile) : Tile :=
  { Tile.reset with
    margin := { t.margin with mv := 0, rate := 0 }, inp := t.inp, clock := t.clock, clockRem := t.clockRem,
    priv := { Priv.reset with handlers := t.priv.handlers }, survey := { Tile.reset.survey with legs := t.survey.legs, next := t.survey.next },
    eng := { Tile.reset.eng with next := t.eng.next }, streams := Streams.start t.streams.next [],
    seg := { Segment.reset with number := t.seg.number + 1 } }

/-- The tile domain (R433). -/
def State.resetTile (s : State) (tn : TileNo) : State :=
  let s1 := (s.killRunOn (contained 8 7 (s.place tn).toNat) (fun t => t = tn) tn).dropMisses tn
  (s1.setTile tn (s1.tile tn).resetTile).onIdle tn

/-- The engines domain (R433): commands and outstanding requests are lost. -/
def State.resetEngines (s : State) (tn : TileNo) : State :=
  let s1 := (s.killRunOn (contained 8 7 (s.place tn).toNat) (fun _ => false) tn).dropMisses tn
  let t := s1.tile tn
  let t1 : Tile :=
    { t with
      eng := { lag := [], held := [], released := [], queue := [], next := t.eng.next },
      priv := { t.priv with ectl := [], ef := { t.priv.ef with standing := false } } }
  ((s1.setTile tn t1).parkDone tn).onIdle tn

/-- Whether a command of a tile's queue is an atomic that stands at the atomic engine of a cluster of a die (R289). -/
def State.atomicStands (s : State) (d c : Nat) (tn : TileNo) (a : Active) : Bool :=
  match a.cmd.body with
  | .atomic _ va _ _ _ _ => match s.privWalk (s.partOf tn) va with
    | .ok l => !(l.loc va).host && decide (homeDie (l.loc va).pa = d ∧ homeCluster (l.loc va).pa = c)
    | .error _ => false
  | _ => false

/-- Whether an atomic of a tile's command queue stands at the atomic engine of a cluster of a die. -/
def State.atomicAt (s : State) (d c : Nat) (tn : TileNo) : Bool := (s.tile tn).eng.queue.any (s.atomicStands d c tn)

/-- The place of tile 0 of a cluster of a die (R431). -/
def State.clusterPlace (s : State) (d c : Nat) : Nat := (s.place (tileNo (d * 96 + c * 8))).toNat

/-- The commands of a tile's queue that are lost leave it. -/
def Tile.dropWhere (t : Tile) (lost : Active → Bool) : Tile := { t with eng := { t.eng with queue := t.eng.queue.filter fun a => !lost a } }

/-- The atomic-engine domain (R433): the launches with an atomic outstanding there end, and atomics not yet performed are lost. -/
def State.resetAtomics (s : State) (d c : Nat) : State :=
  let ts := ((List.range 1152).map tileNo).filter fun t => s.atomicAt d c t
  let s1 := s.killRunsOn ts (contained 9 8 (s.clusterPlace d c)) fun _ => false
  ts.foldl (fun st tn => st.setTile tn ((st.tile tn).dropWhere fun a => st.atomicStands d c tn a)) s1

/-- A migration at a die ends with nothing moved. -/
def State.abortMigration (s : State) (d : Nat) : State :=
  match (s.die d).mig with
  | none => s
  | some m =>
    (((s.setDie d { s.die d with mig := none }).pushFree (homeDie m.new) m.new).releaseWrites m.old m.old).retryMigrations

/-- A die as a reset leaves it (R433): its registers hold the values of their Reset column (R15; log 87); gate semaphores, the home directory
of its frames and its NV data stay. -/
def Die.resetRegs (d : Die) : Die :=
  { d with
    sumpBase := 0, sumpSlots := 0, sump := [], hostSump := [], hostSumpTail := 0, freeBase := 0, freeSlots := 0, freeHead := 0, freeCount := 0,
    tileSel := 0, nvFallback := false, refusals := [], refuseLost := false, refusePa := 0, walker := [], down := true }

/-- The die domain (R433): every tile and engine of the die is lost; requests to its homes wait until it returns. The pool of the die's scheduler is empty
after it (18 Table 18.4, POOL_FREE), so a launch that stands there ends as one with a run on the die does (R15; log 53). -/
def State.resetDie (s : State) (d : Nat) : State :=
  let e := contained 0xA 0xA (s.place (tileNo (d * 96))).toNat
  let s0 := s.killRunsOn (dieTiles d) e fun t => dieOf t = d
  let s1 := (s0.launches.filter fun (l : Launch) => l.die.val = d && l.pooled).foldl (fun st l => st.killLaunch l.id e fun t => dieOf t = d) s0
  let s2 := s1.abortMigration d
  (dieTiles d).foldl (fun st t => (st.setTile t (st.tile t).resetTile).onIdle t) (s2.setDie d (s2.die d).resetRegs)

/-- The partition domain (R433): launches, queues, sump entries, context slots and gate semaphores are lost, the launches with their completion
records, and the registers hold the values of their Reset column (R15; log 87), which idle tiles take up (R407). -/
def State.resetPartition (s : State) (p : PartNo) : State :=
  let ids := (s.launches.filter fun (l : Launch) => l.part = p).map Launch.id
  let s1 := ids.foldl (fun st id => st.killLaunch id (contained 0xB 0 0xFFFF) fun _ => true) s
  let s2 := ids.foldl (fun st id => match st.launch id with
    | some l => match l.outcome with | some e => st.complete l e | none => st
    | none => st) s1
  let s3 := (s2.setPart p (Part.withTiles (s2.part p).tiles)).zeroGates (s2.part p).tiles
  let s4 := s3.mapDies fun _ x => { x with sump := x.sump.filter fun (c : Child) => c.part ≠ p, hostSump := x.hostSump.filter fun q => q ≠ p }
  (s4.part p).tileList.foldl State.onIdle s4

/-- A reset of a domain; `none` for a domain or an ID that does not exist (20 Table 20.10). -/
def State.resetDomain (s : State) (domain id : Nat) : Option State :=
  match domain with
  | 1 => if id < 1152 then some (s.resetTile (tileNo id)) else none
  | 2 => if id < 1152 then some (s.resetEngines (tileNo id)) else none
  | 3 => if id < 144 then some (s.resetAtomics (id / 12) (id % 12)) else none
  | 4 => if id < 28 then some s else none
  | 5 => if id < 12 then some (s.resetDie id) else none
  | 6 => if id < 16 ∧ (s.part (Fin.ofNat 16 id)).created then some (s.resetPartition (Fin.ofNat 16 id)) else none
  | _ => none

/-- A write of RESET_CMD (R433): ignored without GO, and while a reset is under way (log 52). -/
def State.resetCmd (s : State) (v : Word) : State :=
  if !v.getLsbD 0 || s.gallery.resetBusy then s
  else match s.resetDomain (bitsNat v 63 60) (bitsNat v 47 32) with
    | some s1 => { s1 with gallery := { s1.gallery with resetBusy := true, resetWord := v } }
    | none => s

/-- RESET_CMD (R433). -/
def execResetCmd (v : Word) (s : State) : Host.Outcome State Fault Refusal := .next (if s.hostUp then s.resetCmd v else s)

/-- The die whose reset ends next: that of the RESET_CMD under way, or, with none, the first that a failure has reset; a die refused at boot
stays in reset (R433, R469). -/
def State.dieReturns (s : State) : Option Nat :=
  let back := fun (d : Nat) => (s.die d).down && !(s.die d).refused
  if s.gallery.resetBusy then
    (if bitsNat s.gallery.resetWord 63 60 = 5 ∧ back (bitsNat s.gallery.resetWord 47 32) = true then
      some (bitsNat s.gallery.resetWord 47 32) else none)
  else (List.range 12).find? back

/-- A reset ends (R433): RESET_BUSY reads 0, and requests held for a die that returns go on. -/
def execResetDone (s : State) : Host.Outcome State Fault Refusal :=
  let s1 := match s.dieReturns with
    | some d => s.setDie d { s.die d with down := false }
    | none => s
  .next { s1 with gallery := { s1.gallery with resetBusy := false } }

/-! ## Errors that hardware finds by itself (20 Table 20.3, classes 9 to 13) -/

/-- An entry in the error ring of a partition about something that is no tile's run (R432). -/
def State.plainEntry (s : State) (p : PartNo) (place cls cause unit detail : Nat) : State :=
  s.errEntry
    { part := p, place := place, cls := cls, verdict := 0, cause := cause, unit := unit, kernelId := 0, workId := 0, addr := 0, cycle := 0,
      detail := detail, tag := 0, rewinds := 0 }

/-- The partitions. -/
def allParts : List PartNo := (List.range 16).map fun k => Fin.ofNat 16 k

/-- An entry in the ring of every partition that a test picks; `errEntry` passes over those not created (log 55). -/
def State.entryFor (s : State) (pick : Part → Bool) (place cls cause unit detail : Nat) : State :=
  (allParts.filter fun p => pick (s.part p)).foldl (fun st p => st.plainEntry p place cls cause unit detail) s

/-- A die-to-die link loses lanes and is retrained narrower, or is lost and routed around (R414, R441; log 55). -/
def execLinkFailure (l : Fin 28) (width : BitVec 2) (s : State) : Host.Outcome State Fault Refusal :=
  let k := vget s.gallery.links l.val
  let retrains := if k.retrains = 0xFFFF ∨ width = 3 then k.retrains else k.retrains + 1
  let k1 := { k with up := decide (width ≠ 3), width := width, retrains := retrains }
  .next ({ s with gallery := { s.gallery with links := vset s.gallery.links l.val k1 } }.entryFor (fun _ => true) 0xFFFF 11 0 9 l.val)

/-- What the physical world does to the package outside its tiles, in its time (R414, classes 2 and 3): a flit sent again is counted; an
uncorrectable word of HBM becomes POISON, and has an entry in the ring of the partition that owns its frame (R415, R432; log 88). -/
def State.applyPhysical (s : State) (e : Physical) : State :=
  let g := s.gallery
  match e with
  | .linkRetry l => { s with gallery := { g with
      links := vset g.links l.val { vget g.links l.val with crcRetries := (vget g.links l.val).crcRetries + 1 } } }
  | .portRetry k => { s with gallery := { g with
      ports := vset g.ports k.val { vget g.ports k.val with retries := (vget g.ports k.val).retries + 1 } } }
  | .hbmWord pa =>
    if !populated pa then s
    else
      let s1 := { s with mem := s.mem.setPoison (pa / 8) true }
      let owner := ((s.die (homeDie pa)).frameOf (pa % 2 ^ 44 / 2 ^ 16)).owner
      if owner < 16 then s1.plainEntry (Fin.ofNat 16 owner) 0xFFFF 3 0 0 (pa / 8 * 8) else s1

/-- What the physical world has done by now (log 10). -/
def State.physical (s : State) : State :=
  (s.phys.filter fun p => decide (p.1 ≤ s.ns)).foldl (fun st p => st.applyPhysical p.2) { s with phys := s.phys.filter fun p => decide (s.ns < p.1) }

/-- A hard error of an engine (R414, classes 9 and 10): contained at the engine. -/
def execEngineHardError (u : EngineUnit) (s : State) : Host.Outcome State Fault Refusal :=
  match u with
  | .tileEngines t => .next ((s.tileEntry t 9 0 8 7 0 0 0).resetEngines t)
  | .atomicEngine d c =>
    .next ((s.entryFor (fun p => p.hasDie d.val) (s.clusterPlace d.val c.val) 10 9 8 0).resetAtomics d.val c.val)

/-- The acting tile's die fails (R414, class 12): it is reset. -/
def execDieFailure (s : State) : Host.Outcome State Fault Refusal :=
  let d := s.myDie
  .next ((s.entryFor (fun p => p.hasDie d) (s.place (tileNo (d * 96))).toNat 12 0xA 0xA 0).resetDie d)

/-- Whether a tile has an rsend not yet complete (R434). -/
def Tile.hasRsend (t : Tile) : Bool :=
  (t.eng.lag ++ t.eng.held ++ t.eng.released ++ t.eng.queue.map Active.cmd).any fun (c : Cmd) => match c.body with
    | .xfer x => x.isRsend
    | _ => false

/-- The Gallery die is lost (R434): host link, ports and reductions stop, and launches with an rsend pending end. -/
def execGalleryDieLoss (s : State) : Host.Outcome State Fault Refusal :=
  let g := s.gallery
  let s1 := { s with gallery := { g with
    lost := true, wtLocked := false, wtBase := s.masterNow, wtAt := s.ns, wtPpm := 0, contributions := [],
    ports := vmk 16 fun k => { vget g.ports k with up := false },
    groups := g.groups.map fun (x : Group) => { x with open_ := [], held := [] } } }
  let ts := ((List.range 1152).map tileNo).filter fun t => (s.tile t).hasRsend
  .next ((s1.entryFor (fun _ => true) 0xFFFF 13 0xC 0xB 0).killRunsOn ts (contained 0xC 0xB 0xFFFF) fun _ => false)

end Sys2Proof.Machine
end

