-- ==== Sys2Proof/Machine/Debug.lean ====
section
/-! DEFINITION. Debug commands (R449 to R453) and divergence detection (R456 to R459). -/
namespace Sys2Proof.Machine

/-! ## Stops, releases and halts -/

/-- A debug command on a tile of a partition, through its window (22 Table 22.1). -/
def State.onDebugTile (s : State) (p : PartNo) (tn : TileNo) (f : State → State) : State :=
  if s.window p && (s.part p).tiles.getLsbD tn.val then f s else s

/-- Stop tile (R449): taken at the next boundary; one already stopped by itself stays as it is. -/
def Debug.stopCmd (d : Debug) : Debug := if d.stopKind = 0 ∨ d.stopKind = 4 then { d with askStop := true, single := false } else d

/-- Release tile (R451): no effect on a tile that is not stopped. -/
def Debug.release (d : Debug) : Debug :=
  if d.stopKind = 0 then d else { d with stopKind := 0, askStop := false, single := false, skip := true }

/-- Single issue (R451): no effect on a tile that is not stopped. -/
def Debug.singleIssue (d : Debug) : Debug :=
  if d.stopKind = 0 then d else { d with stopKind := 0, askStop := false, single := true, skip := true }

/-- A die halt takes in a tile with a run (R453). -/
def Debug.halt (d : Debug) : Debug := { d with askHalt := true }

/-- A release of the die (R453): a tile stopped by another means stays stopped. -/
def Debug.releaseHalt (d : Debug) : Debug :=
  if d.stopKind = 4 then { d with askHalt := false, stopKind := 0, skip := true } else { d with askHalt := false }

/-- Change the debug state of a tile. -/
def State.mapDebug (s : State) (tn : TileNo) (f : Debug → Debug) : State :=
  s.setTile tn { s.tile tn with dbg := f (s.tile tn).dbg }

/-- The stop-tile command (R449). -/
def execDbgStopTile (p : PartNo) (t : TileNo) (s : State) : Host.Outcome State Fault Refusal :=
  .next (s.onDebugTile p t fun s => s.mapDebug t Debug.stopCmd)

/-- The release-tile command (R451). -/
def execDbgReleaseTile (p : PartNo) (t : TileNo) (s : State) : Host.Outcome State Fault Refusal :=
  .next (s.onDebugTile p t fun s => s.mapDebug t Debug.release)

/-- The single-issue command (R451). -/
def execDbgSingleIssue (p : PartNo) (t : TileNo) (s : State) : Host.Outcome State Fault Refusal :=
  .next (s.onDebugTile p t fun s => s.mapDebug t Debug.singleIssue)

/-- Change every gang. -/
def State.mapGangs (s : State) (f : Gang → Gang) : State :=
  { s with launches := s.launches.map fun (l : Launch) => { l with gangs := l.gangs.map f } }

/-- A die halt (R453): every tile of the die that holds a run is to stop, and the slices of its gangs are paused. -/
def State.haltDie (s : State) (d : Nat) : State :=
  let s1 := s.setDie d { s.die d with halted := true }
  let s2 := (dieTiles d).foldl (fun (st : State) t => if (st.tile t).run.isSome then st.mapDebug t Debug.halt else st) s1
  s2.mapGangs fun g => if s2.gangHalted g then { g with paused := g.paused.or (some s2.ns) } else g

/-- A release of a die (R453): paused slices go on where they stood. -/
def State.releaseDie (s : State) (d : Nat) : State :=
  let s1 := s.setDie d { s.die d with halted := false }
  let s2 := (dieTiles d).foldl (fun (st : State) t => st.mapDebug t Debug.releaseHalt) s1
  s2.mapGangs fun g => match g.paused with
    | some since => if s2.gangHalted g then g
        else { g with paused := none, sliceEnd := if g.sliceEnd = 0 then 0 else g.sliceEnd + (s2.ns - since) }
    | none => g

/-- The halt-die command (R453). -/
def execDbgHaltDie (p : PartNo) (d : DieNo) (s : State) : Host.Outcome State Fault Refusal :=
  .next (if s.window p then s.haltDie d.val else s)

/-- The release-die command (R453). -/
def execDbgReleaseDie (p : PartNo) (d : DieNo) (s : State) : Host.Outcome State Fault Refusal :=
  .next (if s.window p then s.releaseDie d.val else s)

/-! ## Dump and patch (R452) -/

/-- The drained view of the registers (R452): each holds the last in-flight record that names it. -/
def Tile.drainedView (t : Tile) : Tile :=
  (sortFlight t.k.infl).foldl (fun (t : Tile) e => match e.res with
    | .scalar x d => if d.toNat < 32 then { t with k := { t.k with n := vset t.k.n d.toNat x } } else t
    | .vector x d => if d.toNat < 16 then { t with vec := { t.vec with v := vset t.vec.v d.toNat x } } else t
    | _ => t) t

/-- MAGIC of a dump image (R452). -/
def dumpMagic : Nat := 0x43544B44

/-- A dump of a tile at its DBG_DUMP (R452). -/
def State.dump (s : State) (p : PartNo) (tn : TileNo) : State :=
  let t := s.tile tn
  if t.dbg.stopKind = 0 then s
  else
    let tok := s.nextToken
    let s1 := s.privWrite p t.dbg.dump (validBytes (t.drainedView.image dumpMagic 0 tok))
    { s1 with opaques := s1.opaques ++ [t.opaque_ tok] }

/-- The dump command (R452). -/
def execDbgDump (p : PartNo) (t : TileNo) (s : State) : Host.Outcome State Fault Refusal :=
  .next (s.onDebugTile p t fun s => s.dump p t)

/-- The registers of a context written from an image (R452): a constant register keeps its value. -/
def Ctx.patch (c : Ctx) (m : List Byte) : Ctx :=
  let n := vmk 32 fun j => ({ v := word (imgNat m (0x40 + 8 * j) 8), tag := tagAt m (0x40 + 8 * j) (imgNat m 0x140 8) j (vget c.n j).tag } : Scalar)
  { c with
    n := n,
    g := vmk 16 fun j => if j = 0 then vget c.g 0 else
      { val := (imgNat m 0x1D0 8).testBit j, void := (imgNat m 0x1D0 8).testBit (16 + j) } }

/-- The vector registers and masks written from an image (R452). -/
def VecState.patch (v : VecState) (m : List Byte) : VecState :=
  { v with
    v := vmk 16 fun j => vregAt m (0x240 + 0x88 * j) (vget v.v j),
    m := vmk 8 fun j => if j = 0 then vget v.m 0 else
      { vals := BitVec.ofNat 32 (imgNat m (0x1D8 + 8 * j) 4), voids := BitVec.ofNat 32 (imgNat m (0x1DC + 8 * j) 4) } }

/-- A patch of a tile from the image at its DBG_DUMP; an image of another MAGIC does nothing (R452). -/
def State.patch (s : State) (p : PartNo) (tn : TileNo) : State :=
  let t := s.tile tn
  let m := s.privBytes p t.dbg.dump 0xF000
  if t.dbg.stopKind = 0 then s
  else if imgNat m 0 4 ≠ dumpMagic then s.noteRead p t.dbg.dump 0xF000
  else (s.noteRead p t.dbg.dump 0xF000).setTile tn { t with
    k := t.k.patch m, vec := t.vec.patch m, checker := t.checker.map fun (c : Ctx × VecState) => (c.1.patch m, c.2.patch m) }

/-- The patch command (R452). -/
def execDbgPatch (p : PartNo) (t : TileNo) (s : State) : Host.Outcome State Fault Refusal :=
  .next (s.onDebugTile p t fun s => s.patch p t)

/-- A write of the debug command register through the window (22 Table 22.1). -/
def State.debugCmd (s : State) (p : PartNo) (v : Word) : State :=
  let n := bitsNat v 26 16
  let d := bitsNat v 11 8
  let on := fun (f : TileNo → State → State) => if n < 1152 then s.onDebugTile p (tileNo n) (f (tileNo n)) else s
  match bitsNat v 63 61 with
  | 1 => on fun t s => s.mapDebug t Debug.stopCmd
  | 2 => on fun t s => s.mapDebug t Debug.release
  | 3 => on fun t s => s.mapDebug t Debug.singleIssue
  | 4 => if d < 12 then s.haltDie d else s
  | 5 => if d < 12 then s.releaseDie d else s
  | 6 => on fun t s => s.dump p t
  | 7 => on fun t s => s.patch p t
  | _ => s

/-! ## Divergence detection (R456 to R459) -/

/-- An entry of the divergence log (22 Table 22.4). -/
structure DivEntry where
  kind : Nat
  poison : Bool
  pages : Nat
  id : Nat
  hash : List Byte
  deriving DecidableEq, Repr, Inhabited

/-- The 32 bytes of an entry. -/
def DivEntry.bytes (e : DivEntry) : List Byte :=
  le8 (e.kind * 2 ^ 56 + b2n e.poison * 256 + e.pages % 2 ^ 32) ++ le8 e.id ++ padTo 16 e.hash

/-- An entry from its 32 bytes. -/
def divEntryOf (m : List Byte) : DivEntry :=
  { kind := leAt m 0 8 / 2 ^ 56, poison := (leAt m 0 8).testBit 8, pages := leAt m 0 4, id := leAt m 8 8, hash := (m.drop 16).take 16 }

/-- The hash of a page (R456): POISON words as 0xFF bytes. -/
def pageHash (bs : List (Byte × Bool)) : List Byte := (sha384 (bs.map fun b => if b.2 then 0xFF else b.1)).take 16

/-- The launch entry of a launch (R457). -/
def Launch.divEntry (l : Launch) : DivEntry :=
  { kind := 1, poison := false, pages := l.dirty.length, id := (l.img.map fun (i : Image) => i.kernelId.toNat).getD 0,
    hash := List.replicate 12 0 ++ leBytes 4 l.record.tag.toNat }

/-- The page entry of a dirty page (R456, R457); in host-list mode its hash is zero. -/
def State.pageEntry (s : State) (p : PartNo) (page : Nat) : DivEntry :=
  let bs := s.privRead p (page * 2 ^ 16) (2 ^ 16)
  { kind := 2, poison := bs.any Prod.snd, pages := 0, id := page * 2 ^ 16,
    hash := if (s.part p).rings.divMode = 3 then List.replicate 16 0 else pageHash bs }

/-- The refusals that the reads of a launch's dirty pages meet (R397). -/
def State.noteHash (s : State) (l : Launch) : State := l.dirty.foldl (fun st k => st.noteRead l.part (k * 2 ^ 16) (2 ^ 16)) s

/-- The entries of a launch, in order. -/
def State.divEntries (s : State) (l : Launch) : List DivEntry := l.divEntry :: l.dirty.map fun k => s.pageEntry l.part k

/-- Entries written to the log (R457). -/
def State.divWrite (s : State) (p : PartNo) (es : List DivEntry) : State :=
  es.foldl (fun st e =>
    let r := (st.part p).rings
    (st.privWrite p (r.divLog + 32 * r.divWritten.toNat) (validBytes e.bytes)).mapRings p fun r => { r with divWritten := r.divWritten + 1 }) s

/-- How a computed entry differs from the reference's (R458). -/
def DivEntry.differs (e ref : DivEntry) : Option Nat :=
  if ref.kind ≠ 1 ∧ ref.kind ≠ 2 then some 4
  else if e.kind = 1 then
    (if ref.kind ≠ 1 ∨ ref.id ≠ e.id ∨ ref.hash ≠ e.hash then some 2 else if ref.pages ≠ e.pages then some 3 else none)
  else if ref.kind ≠ 2 ∨ ref.id ≠ e.id then some 3
  else if ref.hash ≠ e.hash ∨ ref.poison ≠ e.poison then some 1
  else none

/-- The first divergence of a launch's entries from those of the reference, from an index on. -/
def State.divFind (s : State) (p : PartNo) : Nat → List DivEntry → Option (Nat × DivEntry × DivEntry)
  | _, [] => none
  | k, e :: rest =>
    let ref := divEntryOf (s.privBytes p ((s.part p).rings.divRef + 32 * k) 32)
    match e.differs ref with
    | some r => some (r, e, ref)
    | none => s.divFind p (k + 1) rest

/-- The report of a divergence (R458). -/
def divReport (l : Launch) (r : Nat) (e ref : DivEntry) : List Byte :=
  le8 r ++ le8 ((l.img.map fun (i : Image) => i.kernelId.toNat).getD 0) ++ le8 (l.record.tag.toNat * 2 ^ 32) ++
  le8 (if e.kind = 2 then e.id else 0) ++ padTo 16 e.hash ++ padTo 16 ref.hash

/-- A divergence is reported, or counted as missed; with DIV_STOP the launch's completion is held (R458, R459). -/
def State.diverge (s : State) (l : Launch) (r : Nat) (e ref : DivEntry) : State :=
  let p := s.part l.part
  let s1 := if p.diverged then s.mapRings l.part fun q => { q with divMissed := q.divMissed + 1 }
    else
      let s1 := s.privWrite l.part p.rings.divRpt (validBytes (divReport l r e ref))
      s1.setPart l.part { s1.part l.part with diverged := true }
  s1.mapLaunch l.id fun x => { x with divHeld := p.rings.divStop }

/-- The comparison of a launch with the reference (R457, R458): it goes on at the next launch entry. -/
def State.divCompare (s : State) (l : Launch) (es : List DivEntry) : State :=
  let p := s.part l.part
  let k := p.divNext
  let first := divEntryOf (s.privBytes l.part (p.rings.divRef + 32 * k) 32)
  let next := if first.kind = 1 then k + 1 + first.pages else k
  let s := s.noteRead l.part (p.rings.divRef + 32 * k) (32 * es.length)
  let s1 := match s.divFind l.part k es with
    | some (r, e, ref) => s.diverge l r e ref
    | none => s
  s1.setPart l.part { s1.part l.part with divNext := next }

/-- The hashing engine treats the dirty pages of a launch before its completion record (R456, R457). -/
def execDivergenceHash (id : Nat) (s : State) : Host.Outcome State Fault Refusal :=
  match s.launch id with
  | none => .next s
  | some l =>
    let mode := (s.part l.part).rings.divMode.toNat
    if l.outcome.isNone || mode = 0 || l.hashed then .next s
    else
      let es := s.divEntries l
      let s := s.noteHash l
      let s1 := if mode = 2 then s.divCompare l es else s.divWrite l.part es
      .next (s1.mapLaunch id fun x => { x with hashed := true })

/-- DIVERGED is cleared (R459). -/
def execDivergedClear (o : Origin) (s : State) : Host.Outcome State Fault Refusal :=
  match s.originPart o with
  | some p => .next (s.clearDiverged p)
  | none => .next s

end Sys2Proof.Machine
end

