-- ==== Sys2Proof/Machine/Survey.lean ====
section
/-! DEFINITION. The survey unit (R321 to R324): the walk of the legs, the report, and the survey ring; the consumption of the survey
and error rings. -/
namespace Sys2Proof.Machine

/-! ## Legs (14 Table 14.2) -/

/-- The 48 bytes of a leg. -/
def Leg.bytes (l : Leg) : List Byte :=
  let p := l.prod.getD { kind := 0, place := 0xFFFF, obj := 0, addr := 0, gate := none }
  let addr := if p.kind = 0 ∨ p.kind = 6 ∨ p.kind = 7 then 0 else p.addr
  let gate := p.gate.getD { place := 0xFFFF, seq := 0 }
  le8 l.arrive ++ le8 (min l.waitClk 0xFFFFFFFF * 2 ^ 32 + l.cycle % 2 ^ 32) ++
  le8 (l.place.toNat * 2 ^ 48 + p.place.toNat * 2 ^ 32 + l.addr % 2 ^ 32) ++
  le8 (l.kind % 16 * 2 ^ 60 + p.kind % 16 * 2 ^ 56 + l.obj % 256 * 2 ^ 48 + addr % 2 ^ 32) ++
  le8 (l.seq.toNat * 2 ^ 32 + gate.seq.toNat) ++ le8 (gate.place.toNat * 2 ^ 48)

/-- The gating reference of a leg's producer. -/
def Leg.ref (l : Leg) : Option LegRef := (l.prod.bind fun (p : Producer) => p.gate).filter fun r => r.place ≠ 0xFFFF

/-! ## The walk (R321) -/

/-- What reading a reference finds: a leg, none (overwritten), or a producer in another partition. -/
inductive Found where
  | leg (l : Leg)
  | lost
  | foreign
  deriving DecidableEq, Repr, Inhabited

/-- What a leg store of another package gives for a reference at a wall time: a leg, none, or one of another partition. A free value: what stands there is
outside this package (log 108). -/
opaque peerLeg : LegRef → Nat → Found

/-- The leg of another package that a reference names: it stands at that place under that number (R319). -/
def readPeerLeg (r : LegRef) (ns : Nat) : Found :=
  match peerLeg r ns with
  | .leg l => .leg { l with place := r.place, seq := r.seq }
  | f => f

/-- A leg read from its tile's store, of any die and any package (R319, R321). -/
def State.readLeg (s : State) (p : PartNo) (r : LegRef) : Found :=
  let n := r.place.toNat % 2048
  if r.place = 0xFFFF then .lost
  else if r.place.toNat / 2048 ≠ s.gallery.pkgId.toNat then readPeerLeg r s.ns
  else if 1152 ≤ n then .lost
  else if !(s.part p).tiles.getLsbD n then .foreign
  else match (s.tile (tileNo n)).survey.legs.find? fun (l : Leg) => l.seq = r.seq with
    | some l => .leg l
    | none => .lost

/-- The walk back from a reference: the path, oldest first, and the stop code. -/
def State.walkLegs (s : State) (p : PartNo) (start : Nat) : Nat → Option LegRef → List Leg → List Leg × Nat
  | 0, _, path => (path, 3)
  | _ + 1, none, path => (path, 1)
  | n + 1, some r, path => match s.readLeg p r with
    | .lost => (path, 2)
    | .foreign => (path, 4)
    | .leg l =>
      if l.arrive < start then (path, 0)
      else if path.length = 31 then (path, 3)
      else s.walkLegs p start n l.ref (l :: path)

/-! ## The report (R321, R322; 14 Table 14.3) -/

/-- A report that stands to be written: the mark, the reference to start from, the step's start, KERNEL_ID and WID. -/
structure Report where
  mark : StepMark
  ref : Option LegRef
  start : Nat
  startCycle : Nat
  kernelId : Word
  wid : Word
  deriving DecidableEq, Repr, Inhabited

/-- The tail entry's leg (R321). -/
def tailLeg (m : StepMark) (place : BitVec 16) : Leg :=
  { arrive := m.wall, waitClk := 0, cycle := m.cycle, place := place, addr := m.addr, kind := 0, obj := 0, prod := none, seq := 0 }

/-- The entries of a path, with the duration of each: from the entry before it, or from the start (R321). -/
def reportEntries : Nat → List Leg → List Byte
  | _, [] => []
  | before, l :: rest => l.bytes ++ le8 (l.arrive - before) ++ le8 0 ++ reportEntries l.arrive rest

/-- The counter block (R324). -/
def counterBlock (vals : List Nat) : List Byte :=
  ((List.range 7).map fun d => padTo 256 (((vals.drop (29 * d)).take 29).map le8).flatten).flatten

/-- The report's bytes. -/
def State.reportBytes (s : State) (p : PartNo) (place : BitVec 16) (r : Report) (ctrs : Bool) : List Byte :=
  let w := s.walkLegs p r.start 33 r.ref []
  let legs := w.1 ++ [tailLeg r.mark place]
  le8 r.kernelId.toNat ++ le8 r.wid.toNat ++ le8 (place.toNat * 2 ^ 48 + r.mark.id.toNat * 2 ^ 32) ++ le8 r.start ++ le8 r.mark.wall ++
  le8 r.startCycle ++ le8 r.mark.cycle ++ le8 (legs.length * 2 ^ 24 + w.2 * 2 ^ 20 + b2n ctrs * 2 ^ 16) ++
  reportEntries r.start legs ++ (if ctrs then counterBlock r.mark.counters else [])

/-! ## The ring (R323) -/

/-- Bytes at a virtual address, cut at 4 KiB so that no piece meets two page boundaries. -/
def State.ringWrite (s : State) (p : PartNo) (va : Nat) (bs : List Byte) : State := s.privWrite p va (validBytes bs)

/-- The bytes to the end of a ring from a count on. -/
def PartRings.toEnd (r : PartRings) (c : Nat) : Nat := r.ringPages * 4096 - c % (r.ringPages * 4096)

/-- Whether a report with its pad fits (R323). -/
def PartRings.fits (r : PartRings) (pad len : Nat) : Bool := decide ((r.ringHead - r.ringTail).toNat + pad + len ≤ r.ringPages * 4096)

/-- Reports and pads passed over, oldest first, until a report fits (R323): RING_DROPS counts the reports. -/
def PartRings.passOver (pad len : Nat) : Nat → PartRings → PartRings
  | 0, r => r
  | n + 1, r =>
    if r.fits pad len then r
    else match r.starts with
      | [] => r
      | x :: rest =>
        PartRings.passOver pad len n { r with
          starts := rest, ringTail := (rest.head?.map Prod.fst).getD r.ringHead, ringDrops := r.ringDrops + (if x.2 then 1 else 0) }

/-- Room made in overwrite mode (R323): whole reports and pads are passed over, oldest first, until the report fits; last, where no other stands, the
pad that goes before it (log 94). -/
def PartRings.makeRoom (r : PartRings) (pad len : Nat) : PartRings :=
  let r1 := PartRings.passOver pad len r.starts.length r
  if r1.fits pad len then r1 else { r1 with ringTail := r.ringHead + word pad, starts := [] }

/-- A report is written to the survey ring of a partition, or dropped (R323). -/
def State.putReport (s : State) (p : PartNo) (bs : List Byte) : State :=
  let r := (s.part p).rings
  if r.ringPages = 0 then s
  else
    let len := bs.length
    let left := r.toEnd r.ringHead.toNat
    let pad := if left < len then left else 0
    let r1 := if r.ringOverwrite then r.makeRoom pad len else r
    if !r.ringOverwrite && !r1.fits pad len then s.mapRings p fun q => { q with ringDrops := q.ringDrops + 1 }
    else
      let at_ := fun (c : Nat) => r.ringBase + c % (r.ringPages * 4096)
      let s1 := if pad = 0 then s else s.ringWrite p (at_ r.ringHead.toNat) (padTo 64 [])
      let head := r.ringHead + word pad
      let s2 := s1.ringWrite p (at_ head.toNat) bs
      s2.mapRings p fun _ => { r1 with
        starts := r1.starts ++ (if pad = 0 ∨ r1.ringTail = head then [] else [(r.ringHead, false)]) ++ [(head, true)], ringHead := head + word len }

/-- The survey unit writes the acting tile's oldest report (R321 to R323). -/
def execSurveyReportWrite (s : State) : Host.Outcome State Fault Refusal :=
  match s.me.survey.due with
  | [] => .next s
  | d :: rest =>
    let r : Report := { mark := d.1, ref := d.2.1, start := d.2.2.1, startCycle := d.2.2.2.1, kernelId := d.2.2.2.2.1, wid := d.2.2.2.2.2 }
    let p := s.partOf s.cur
    let bs := s.reportBytes p (s.place s.cur) r (s.part p).rings.ctrsEn
    .next ((s.mapMe fun t => { t with survey := { t.survey with due := rest } }).putReport p bs)

/-- RING_TAIL, written by a handler (R323, R341). -/
def execRingTail (t : TileNo) (v : Word) (s : State) : Host.Outcome State Fault Refusal :=
  match s.originPart (.handler t) with
  | some p => .next (s.mapRings p fun r => r.setTail v)
  | none => .next s

/-- A write of ERR_TAIL (R432): beyond ERR_HEAD it changes nothing. -/
def PartRings.setErrTail (r : PartRings) (v : Word) : PartRings := if v.toNat ≤ r.errHead.toNat then { r with errTail := v } else r

/-- ERR_TAIL (R432). -/
def execErrTail (p : PartNo) (v : Word) (s : State) : Host.Outcome State Fault Refusal :=
  .next (if s.window p then s.mapRings p fun r => r.setErrTail v else s)

end Sys2Proof.Machine
end

