-- ==== Sys2Proof/Machine/Fabric.lean ====
section
/-! DEFINITION. The host and the Gallery die (chapter 21): host accesses to device memory, the windows and their registers, wall time,
and the UALink ports. -/
namespace Sys2Proof.Machine

/-! ## Device memory (R436, R437) -/

/-- Bytes of a die. -/
def dieBytes : Nat := 0x1800000000

/-- The physical address of an offset in the HDM range (R436). -/
def hdmAddr (off : Nat) : Nat := off / dieBytes * 2 ^ 44 + off % dieBytes

/-- Whether a range lies in the HDM range, 1152 GiB. -/
def inHdm (off n : Nat) : Bool := decide (off + n ≤ 12 * dieBytes)

/-- A frame that a host write reaches while it is being migrated away: the migration ends with result 0x3 (R437). -/
def State.spoil (s : State) (pa : Nat) : State :=
  s.mapDies fun d x => if d = homeDie pa then
      { x with mig := x.mig.map fun (m : Migration) => if m.old = pa / 2 ^ 16 * 2 ^ 16 then { m with spoiled := true } else m }
    else x

/-- The bytes of a host write, frame by frame: one that is being migrated away holds its bytes, and the migration fails (R437). `n` bounds the
frames. -/
def State.hostWrite : Nat → State → Nat → List Byte → State
  | 0, s, _, _ => s
  | n + 1, s, off, data =>
    if data.isEmpty then s
    else
      let k := 2 ^ 16 - off % 2 ^ 16
      let pa := hdmAddr off
      State.hostWrite n ((s.spoil pa).writeHeld none { host := false, pa := pa } (validBytes (data.take k)) []) (off + k) (data.drop k)

/-- Whether memory is reached from outside: over the host link, or once the Gallery die is lost through the management interface (R434; log 54). -/
def State.memUp (s : State) : Bool := s.hostUp || (s.boot.booted && s.gallery.lost)

/-- A host CXL.mem write performs (R437). -/
def execHostMemWrite (off : Nat) (data : List Byte) (s : State) : Host.Outcome State Fault Refusal :=
  .next (if s.memUp && inHdm off data.length then State.hostWrite (data.length / 2 ^ 16 + 2) s off data else s)

/-- A host CXL.mem read observes memory (R437). -/
def execHostMemRead (off : Nat) (len : Nat) (s : State) : Host.Outcome State Fault Refusal :=
  .next (if s.memUp && inHdm off len then
    let first := min len (dieBytes - off % dieBytes)
    { s with hostData := s.mem.read (hdmAddr off) first ++ s.mem.read (hdmAddr (off + first)) (len - first) } else s)

/-! ## Partition windows (R403, R412, R432, R440, R448) -/

/-- The register number of a control-page offset of Tables 19.5 and 22.1. -/
def ctlNumber (off : Nat) : Option Nat :=
  if 0x200 ≤ off ∧ off < 0x200 + 8 * (0x190 - 0x150) then some (0x150 + (off - 0x200) / 8) else none

/-- A write of a host queue's registers (18 Table 18.3). -/
def Queue.setReg (q : Queue) (r : Nat) (v : Word) : Queue :=
  match r with
  | 0x00 => { q with base := bitsNat v 56 6 * 64 }
  | 0x08 =>
    { q with en := v.getLsbD 31, err := q.err && !v.getLsbD 30, die := bitsNat v 15 12, sizeM1 := bitsNat v 11 0 }
  | 0x10 => q.setTail v
  | _ => q

/-- A write of the scheduler page (18 Table 18.3). -/
def State.writeSchedPage (s : State) (p : PartNo) (off : Nat) (v : Word) : State :=
  if 0x100 ≤ off ∧ off < 0x100 + 0x20 * 64 then
    s.mapPart p fun x => x.mapQueue ((off - 0x100) / 0x20) fun q => q.setReg ((off - 0x100) % 0x20) v
  else match off with
    | 0x000 => s.mapPart p fun x => { x with enable := v.getLsbD 3, minCoverage := v.setWidth 2 }
    | 0x008 => s.mapPart p fun x => { x with ctxBase := bitsNat v 56 16 * 2 ^ 16 }
    | 0x010 => s.mapPart p fun x => { x with ctxSlots := bitsNat v 15 0 }
    | 0x018 => s.preempt p v
    | 0x020 => s.kill p v
    | 0x028 => if s.gateTile p (gateOf v.toNat).1 then s.raiseGate (gateOf v.toNat) else s
    | 0x030 => if s.gateTile p (gateOf v.toNat).1 then
        s.setGate (gateOf v.toNat).1 (gateOf v.toNat).2.1 (BitVec.ofNat 32 (gateOf v.toNat).2.2) else s
    | 0x038 => s.mapPart p fun x => { x with gateTile := bitsNat v 26 16, gateIdx := bitsNat v 3 0 }
    | _ => s

/-- A write of a register of Tables 19.5 and 22.1 through the window; those of one tile go to the tile that DBG_SEL names. -/
def State.writeCtlPage (s : State) (p : PartNo) (n : Nat) (v : Word) : State :=
  let sel := (s.part p).dbgSel
  if n = 0x170 then s.debugCmd p v
  else if n = 0x175 ∨ (0x178 ≤ n ∧ n ≤ 0x17F) then
    (if (s.part p).tiles.getLsbD sel then s.setTile (tileNo sel) ((s.tile (tileNo sel)).writeReg n v) else s)
  else if isTileReg n then s
  else s.writePartReg (.window p) p n v true

/-- A write of the control page (19 Table 19.5, 20 Table 20.2, R432, 22 Table 22.1). -/
def State.writeControlPage (s : State) (p : PartNo) (off : Nat) (v : Word) : State :=
  match ctlNumber off with
  | some n => s.writeCtlPage p n v
  | none => match off with
    | 0x900 => s.modeSet p v
    | 0x908 => s.hset p v
    | 0x910 => s.mapRings p fun r => { r with errBase := bitsNat v 56 6 * 64 }
    | 0x918 => s.mapRings p fun r => { r with errSlots := bitsNat v 15 0 }
    | 0x928 => s.mapRings p fun r => { r with errDrops := r.errDrops &&& ~~~v }
    | 0x930 => s.mapRings p fun r => r.setErrTail v
    | _ => s

/-! ## The package window (R404, R412, R433; 18 Table 18.3, 21 Table 21.3) -/

/-- SUMP_COUNT of a die (R368, R447). -/
def State.sumpCount (s : State) (d : Nat) : Nat := if s.hostSumped d then (s.die d).hostSump.length else (s.die d).sump.length

/-- A write of SUMP_HOST (R447): the bit of a die whose SUMP_COUNT is not zero keeps its value. -/
def State.setSumpHost (s : State) (v : Word) : State :=
  let new := bitsOfList ((List.range 12).map fun d => if s.sumpCount d = 0 then v.getLsbD d else s.hostSumped d)
  { s with gallery := { s.gallery with sumpHost := BitVec.ofNat 12 new } }

/-- Change a die. -/
def State.mapDie (s : State) (d : Nat) (f : Die → Die) : State := s.setDie d (f (s.die d))

/-- A write of a die's registers in the package window. -/
def State.writeDieReg (s : State) (d r : Nat) (v : Word) : State :=
  match r with
  | 0x000 => s.mapDie d fun x => { x with sumpBase := bitsNat v 56 6 * 64 }
  | 0x008 => s.mapDie d fun x => { x with sumpSlots := bitsNat v 23 0 }
  | 0x400 => s.mapDie d fun x => { x with freeBase := bitsNat v 56 6 * 64 }
  | 0x408 => s.mapDie d fun x => { x with freeSlots := bitsNat v 23 0 }
  | 0x418 => s.freePush d v
  | 0x420 => s.frameSet d v
  | 0x808 => s.mapDie d fun x => if bitsNat v 6 0 < 96 then { x with tileSel := bitsNat v 6 0 } else x
  | 0x818 => s.quarantineWrite d v
  | 0x820 => s.mapDie d fun x => x.setThresholds false v
  | 0x828 => s.mapDie d fun x => x.setThresholds true v
  | _ => s

/-- Change the Gallery die. -/
def State.mapGallery (s : State) (f : Gallery → Gallery) : State := { s with gallery := f s.gallery }

/-- The die and register of a package-window offset in one of the three arrays of die registers. -/
def dieRegOf (off : Nat) : Option (Nat × Nat) :=
  if off < 0x20 * 12 then some (off / 0x20, off % 0x20)
  else if 0x400 ≤ off ∧ off < 0x400 + 0x40 * 12 then some ((off - 0x400) / 0x40, 0x400 + (off - 0x400) % 0x40)
  else if 0x800 ≤ off ∧ off < 0x800 + 0x40 * 12 then some ((off - 0x800) / 0x40, 0x800 + (off - 0x800) % 0x40)
  else none

/-- A write of the package window. -/
def State.writePackage (s : State) (off : Nat) (v : Word) : State :=
  match dieRegOf off with
  | some (d, r) => s.writeDieReg d r v
  | none =>
    if 0xE20 ≤ off ∧ off < 0xE20 + 8 * 12 then s.hsumpDone ((off - 0xE20) / 8) v
    else match off with
      | 0xB00 => s.resetCmd v
      | 0xC00 => s.mapGallery fun g => { g with pkgId := v.setWidth 5 }
      | 0xC90 => s.mapGallery fun g => { g with routeSel := bitsNat v 4 0 }
      | 0xC98 => s.mapGallery fun g => { g with routes := vset g.routes g.routeSel (v.setWidth 16) }
      | 0xE00 => s.mapGallery fun g => { g with groupSel := bitsNat v 9 0 }
      | 0xE08 => s.groupCfg v
      | 0xE18 => s.setSumpHost v
      | _ => s

/-- An aligned 8-byte write of a window (R440): the window of a partition that does not exist ignores it. -/
def State.windowWrite (s : State) (w : Window) (off : Nat) (v : Word) : State :=
  if !s.hostUp || off % 8 ≠ 0 then s
  else match w with
    | .package => if off < 0x10000 then s.writePackage off v else s
    | .partition p =>
      if !(s.part p).created then s
      else if off < 0x10000 then s.writeSchedPage p off v else s.writeControlPage p (off - 0x10000) v

/-- A write of a window register (R440). -/
def execWindowRegisterWrite (w : Window) (off : BitVec 17) (v : Word) (s : State) : Host.Outcome State Fault Refusal :=
  .next (s.windowWrite w off.toNat v)

/-! ## Reads of the windows (R440) -/

/-- Bits of a bitmap as a number. -/
def countTiles (d : Nat) (f : TileNo → Bool) : Nat := ((dieTiles d).filter f).length

/-- A read of a die's registers in the package window. The present voltage of a tile that re-executes a segment is that of fixed mode at its
present clock (R425), and its present nominal period that of the clock to which its governor may have lowered it (R35, R473). A read of REFUSE_LOG also pops, which `execRefuseLog` does. -/
def State.readDieReg (s : State) (d r : Nat) : Word :=
  let x := s.die d
  let t := s.tile (tileNo (d * 96 + x.tileSel))
  match r with
  | 0x000 => word x.sumpBase
  | 0x008 => word x.sumpSlots
  | 0x010 => word (s.sumpCount d)
  | 0x018 => word (s.poolFree d)
  | 0x400 => word x.freeBase
  | 0x408 => word x.freeSlots
  | 0x410 => word x.freeCount
  | 0x428 => x.refuseWord
  | 0x430 => word x.refusePa
  | 0x800 =>
    word (b2n x.nvFallback * 2 ^ 16 + countTiles d (fun t => (s.tile t).margin.state = 3) % 256 * 256 +
      countTiles d (fun t => (s.tile t).margin.state = 1 || (s.tile t).margin.state = 2 || s.boot.excluded.getLsbD t.val) % 256)
  | 0x808 => word x.tileSel
  | 0x810 =>
    let tn := tileNo (d * 96 + x.tileSel)
    let mv := if t.seg.careful then t.margin.fixedMv (s.mhzOf tn) else t.margin.mv
    word (mv % 4096 * 2 ^ 52 + 1000000 / s.mhzOf tn % 2 ^ 20 * 2 ^ 32 + min t.margin.rate 0xFFFF * 2 ^ 16 +
      (t.margin.transients.filter fun w => decide (s.ns < w + 86400 * 10 ^ 9)).length % 256 * 256 + t.margin.state % 8)
  | 0x820 => word (Config.ceilMv d % 4096 * 2 ^ 48 + x.replayHi * 2 ^ 32 + x.replayLo)
  | 0x828 => word x.tbudget
  | _ => 0

/-- A read of the Gallery die's registers (21 Table 21.3). -/
def State.readGallery (s : State) (off : Nat) : Word :=
  let g := s.gallery
  let x := g.group g.groupSel
  if 0xC10 ≤ off ∧ off < 0xC10 + 8 * 16 then
    let p := vget g.ports ((off - 0xC10) / 8)
    word (b2n p.up * 2 ^ 63 + p.peer.toNat * 2 ^ 48 + p.retries.toNat)
  else if 0xD00 ≤ off ∧ off < 0xD00 + 8 * 28 then
    let l := vget g.links ((off - 0xD00) / 8)
    word (b2n l.up * 2 ^ 63 + l.width.toNat * 2 ^ 56 + l.retrains.toNat * 2 ^ 32 + l.crcRetries.toNat)
  else match off with
    | 0xB08 => word (b2n g.resetBusy)
    | 0xC00 => word g.pkgId.toNat
    | 0xC08 => word (b2n g.wtLocked * 2 ^ 63 + (BitVec.ofInt 32 g.wtOffset).toNat)
    | 0xC90 => word g.routeSel
    | 0xC98 => word (vget g.routes g.routeSel).toNat
    | 0xE00 => word g.groupSel
    | 0xE08 => word (b2n x.valid * 2 ^ 63 + x.part * 2 ^ 56 + x.members * 2 ^ 32 + x.peers.toNat)
    | 0xE10 => word (x.open_.length % 65536 * 2 ^ 32 + x.rounds.toNat)
    | 0xE18 => word g.sumpHost.toNat
    | _ => 0

/-- A read of the scheduler page (18 Table 18.3). -/
def State.readSchedPage (s : State) (p : PartNo) (off : Nat) : Word :=
  let x := s.part p
  if 0x100 ≤ off ∧ off < 0x100 + 0x20 * 64 then
    let q := vget x.queues ((off - 0x100) / 0x20)
    match (off - 0x100) % 0x20 with
    | 0x00 => word q.base
    | 0x08 => word (b2n q.en * 2 ^ 31 + b2n q.err * 2 ^ 30 + q.die * 2 ^ 12 + q.sizeM1)
    | 0x10 => word q.tail.toNat
    | 0x18 => word q.head.toNat
    | _ => 0
  else match off with
    | 0x000 => word (b2n x.enable * 8 + x.minCoverage.toNat)
    | 0x008 => word x.ctxBase
    | 0x010 => word x.ctxSlots
    | 0x038 => word (x.gateTile * 2 ^ 16 + x.gateIdx)
    | 0x040 => if s.gateTile p x.gateTile then word (s.gate x.gateTile x.gateIdx).toNat else 0
    | 0x048 => word (x.ctxSlots - x.ctxUsed.length)
    | _ => 0

/-- A read of the control page; a field of one tile is that of the tile that DBG_SEL names, or for translation HFILL_SEL. -/
def State.readControlPage (s : State) (p : PartNo) (off : Nat) : Word :=
  let x := s.part p
  match ctlNumber off with
  | some n =>
    let sel := if 0x172 ≤ n ∧ n ≤ 0x17F then x.dbgSel else x.xl.hfillTile
    let handlerOnly := decide (n = 0x157 ∨ (0x160 ≤ n ∧ n ≤ 0x163))
    match s.readTileReg (tileNo sel) n with
    | some v => if x.tiles.getLsbD sel && !handlerOnly then v else 0
    | none => s.readPartReg p n
  | none => match off with
    | 0x900 => word (x.fixedMhz * 2 ^ 16 + b2n x.triage * 16 + x.modeSet.toNat)
    | 0x910 => word x.rings.errBase
    | 0x918 => word x.rings.errSlots
    | 0x920 => x.rings.errHead
    | 0x928 => x.rings.errDrops
    | 0x930 => x.rings.errTail
    | _ => 0

/-- What an aligned 8-byte read of a window returns (R440). -/
def State.windowRead (s : State) (w : Window) (off : Nat) : Word :=
  if off % 8 ≠ 0 then 0
  else match w with
    | .package => match dieRegOf off with
      | some (d, r) => s.readDieReg d r
      | none => s.readGallery off
    | .partition p =>
      if !(s.part p).created then 0
      else if off < 0x10000 then s.readSchedPage p off else s.readControlPage p (off - 0x10000)

/-! ## Wall time and ports (R444, R445) -/

/-- The slew that the discipline sets against an offset in ns: the offset itself in ppm, within 200. -/
def slewFor (offset : Int) : Int := max (-200) (min 200 (-offset))

/-- A message of the grandmaster, or its loss (R445): the counter's rate is slewed by at most 200 ppm and never steps. With the
Gallery die lost, WT_LOCKED reads 0. -/
def execWallTimeDiscipline (m : TimingMessage) (s : State) : Host.Outcome State Fault Refusal :=
  let now := s.masterNow
  let base := fun (g : Gallery) => { g with wtBase := now, wtAt := s.ns }
  .next (if s.gallery.lost then s
    else match m with
    | .grandmaster ns => s.mapGallery fun g =>
        { base g with wtLocked := true, wtOffset := (now : Int) - ns, wtPpm := slewFor ((now : Int) - ns) }
    | .lost => s.mapGallery fun g => { base g with wtLocked := false, wtPpm := 0 })

/-- A UALink port's link comes up, with the package at its far end, or goes down (R444); not on a lost Gallery die (R434). -/
def execUalinkPortState (k : Fin 16) (up : Bool) (peer : BitVec 5) (s : State) : Host.Outcome State Fault Refusal :=
  .next (if s.gallery.lost then s
    else s.mapGallery fun g => { g with ports := vset g.ports k.val { vget g.ports k.val with up := up, peer := peer } })

end Sys2Proof.Machine
end

