-- ==== Sys2Proof/Machine/Boot.lean ====
section
/-! DEFINITION. Boot, signed firmware, attestation and service (chapter 24, R469 to R472; the march of step 7 stands in
March.lean). -/
namespace Sys2Proof.Machine

/-! ## Signed firmware (R470; 24 Table 24.2) -/

/-- Bytes of a firmware image. -/
def slice (bs : List Byte) (off n : Nat) : List Byte := (bs.drop off).take n

/-- Whether a firmware image of a kind is accepted (R470). -/
def firmwareAccepted (rootHash : List Byte) (svnMin : Nat) (kind : Nat) (m : List Byte) : Bool :=
  let key := slice m 0x48 96
  let body := slice m 0x108 (leAt m 0x10 8)
  decide (0x108 ≤ m.length) && leAt m 0 4 = 0x46574B31 && leAt m 4 4 = kind && decide (1 ≤ kind ∧ kind ≤ 3) &&
  sha384 key = rootHash && ecdsaVerifies key (slice m 0xA8 96) (slice m 0 0xA8) &&
  decide (body.length = leAt m 0x10 8) && slice m 0x18 48 = sha384 body && decide (svnMin ≤ leAt m 8 8)

/-- Whether an image of the flash is accepted: 0 the Gallery's, 1 to 12 the governors', 13 the handler store. -/
def Boot.accepts (b : Boot) (k : Nat) : Bool :=
  let kind := if k = 0 then 1 else if k ≤ 12 then 2 else 3
  firmwareAccepted b.rootHash (vget b.svnMin (kind - 1)).toNat kind (b.images.getD k [])

/-- The handler store that the flash's image gives (R338, R470). -/
def Boot.handlerStore (b : Boot) : List Host.Cell :=
  let m := b.images.getD 13 []
  writeCells [] 0 (slice m 0x108 (min (leAt m 0x10 8) Config.storeBytes))

/-! ## The boot steps (R469; 24 Table 24.1) -/

/-- Whether a die has no NV tables: its array and their flash copy both fail (R411). The two hold the same, for every change is written to
both before it is reported, so a load from the flash copy gives what the array held (log 9). -/
def Boot.nvLost (b : Boot) (d : Nat) : Bool := b.nvFail.getLsbD d && b.flashFail.getLsbD d

/-- The NV margins of a tile as boot finds them: as shipped, or as they have become; from the factory's curve where the die's tables are lost
(R411; log 9). -/
def Boot.nvMargin (b : Boot) (tn : TileNo) (m : Margin) : Margin :=
  if b.nvShipped then
    { m with floor := Config.floorMv tn.val, curve := Config.factoryCurve tn.val, drift := [], state := if Config.excludedAtShipment tn.val then 1 else 0 }
  else if b.nvLost (dieOf tn) then { m with floor := Config.floorMv tn.val, curve := Config.factoryCurve tn.val } else m

/-- Step 3 for a tile: fixed mode at 1300 MHz. -/
def Margin.fixed (m : Margin) : Margin :=
  { m with mode := 1, mhz := 1300, mv := m.fixedMv 1300, rate := 0, replays := 0, clks := 0, highRuns := 0 }

/-- Whether the rows that BIST finds on a tile, with those already repaired, need no 17th entry; and the table (R475). -/
def Boot.bistTable (b : Boot) (tn : TileNo) (tbl : Vector (BitVec 16) 16) : Option (Vector (BitVec 16) 16) :=
  addRepairs tbl ((b.bistRows.filter fun p => p.1 = tn).flatMap Prod.snd)

/-- A tile as power-up finds it: empty, with its NV data and what the physical world still does to it. -/
def Tile.powered (t : Tile) (wall : Nat) : Tile := { Tile.reset with margin := t.margin, inp := t.inp, clock := wall }

/-- A tile after steps 2 to 5, and whether it is excluded for the boot (R469, R472, R475): `dieOk`: the governor firmware of its die and the
handler-store image were accepted. One that fails BIST is excluded for the boot, one whose handler store does not load is excluded (R410). -/
def Boot.bootTile (b : Boot) (dieOk : Bool) (tn : TileNo) (t : Tile) : Tile × Bool :=
  let m0 := b.nvMargin tn t.margin
  if !dieOk then ({ t with margin := m0 }, true)
  else
    let m1 := m0.fixed
    let table := b.bistTable tn m1.repair
    let bist := b.bistFail.getLsbD tn.val || table.isNone
    let load := b.loadFail.getLsbD tn.val
    let state := if m1.state = 5 ∧ bist then m1.before else if (m1.state = 0 ∨ m1.state = 5) ∧ load then 2 else m1.state
    ({ t with margin := { m1 with repair := table.getD m1.repair, state := state },
              priv := { t.priv with handlers := if load then [] else b.handlerStore } }, bist)

/-- The links of the Gallery die trained (step 6). -/
def Gallery.train (g : Gallery) (fail : BitVec 28) : Gallery :=
  { g with
    wtLocked := true,
    links := vmk 28 fun k => if fail.getLsbD k then { vget g.links k with up := false, width := 3 } else { vget g.links k with up := true, width := 0 } }

/-- The Gallery die as power-up finds it: its registers reset, its ports' links as they stand. -/
def Gallery.powered (g : Gallery) (now at_ : Nat) : Gallery :=
  { Gallery.reset with
    ports := vmk 16 fun k => { vget g.ports k with retries := 0 }, capWatts := g.capWatts, wtBase := now, wtAt := at_ }

/-- A die as power-up finds it: its thresholds kept, and in force (R409). -/
def Die.powered (d : Die) : Die :=
  { Die.reset with replayHi := d.replayHi, replayLo := d.replayLo, tbudget := d.tbudget, budgetNow := d.tbudget }

/-- The package as power-up finds it: nothing resident, and what the NV arrays, flash, fuses and host memory keep. -/
def State.powered (s : State) : State :=
  { State.reset with
    wall := s.wall, tiles := vmk 1152 fun k => (vget s.tiles k).powered s.wall, dies := vmk 12 fun d => (vget s.dies d).powered,
    gallery := s.gallery.powered s.masterNow s.ns, hostMem := s.hostMem,
    boot := { s.boot with ran := true, booted := false, firmwareOk := false, excluded := 0, report := [], marches := [] },
    nextLaunch := s.nextLaunch,
    order := s.order, opaques := s.opaques, cur := s.cur, curSlot := s.curSlot, curExt := s.curExt, curHdr := s.curHdr,
    agenda := s.agenda, free := s.free, phys := s.phys }

/-- The boot steps 2 to 6, with the Gallery firmware running. A die whose firmware is not accepted stays in reset for the boot. -/
def State.bootOn (s : State) : State :=
  let b := s.boot
  let handlers := b.accepts 13
  let dieOk := (List.range 12).map fun d => handlers && b.accepts (d + 1)
  let tiles := (List.range 1152).map fun k => b.bootTile (dieOk.getD (k / 96) false) (tileNo k) (vget s.tiles k)
  let excluded := bitsOfList (tiles.map Prod.snd)
  { s with
    tiles := vmk 1152 fun k => (tiles.getD k default).1,
    dies := vmk 12 fun d => { vget s.dies d with
      nvFallback := dieOk.getD d false && b.nvLost d, down := !dieOk.getD d false, refused := !dieOk.getD d false },
    gallery := s.gallery.train b.linkFail,
    boot := { b with firmwareOk := true, nvShipped := false, excluded := BitVec.ofNat 1152 excluded } }

/-- Power-up (R469): the boot steps in order up to step 7, whose launches complete boot as they end (`State.marchEnds`); when the Gallery firmware is not accepted only the management interface answers. -/
def State.powerOn (s : State) : State :=
  let s1 := s.powered
  if s1.boot.accepts 0 then s1.bootOn.marchBegins else s1

/-- Power-up (R469). -/
def execPowerOn (s : State) : Host.Outcome State Fault Refusal := .next s.powerOn

/-! ## Attestation (R471; 24 Table 24.3) -/

/-- What a die's NV tables hold (R409, R411, R475), in a fixed order. -/
def State.nvData (s : State) (d : Nat) : List Nat :=
  let x := s.die d
  [Config.ceilMv d, x.replayHi, x.replayLo, x.tbudget] ++
  ((dieTiles d).map fun t =>
    let m := (s.tile t).margin
    let three := fun (ps : List (Nat × Nat × Nat)) => ps.length :: (ps.map fun p => [p.1, p.2.1, p.2.2]).flatten
    [m.floor, m.state, m.before] ++ three m.curve ++ three m.drift ++ [m.transients.length] ++ m.transients ++
      (vlist m.repair).map BitVec.toNat).flatten

/-- The tiles in a given condition. -/
def State.countAll (s : State) (f : Tile → TileNo → Bool) : Nat :=
  (((List.range 1152).map tileNo).filter fun t => f (s.tile t) t).length

/-- The first 0xA0 bytes of an attestation report. -/
def State.reportBody (s : State) (nonce : BitVec 256) : List Byte :=
  let shas := (List.range 14).map fun k => slice (s.boot.images.getD k []) 0x18 48
  let usable := s.countAll fun _ t => s.usable t
  let excluded := s.countAll fun x t => x.margin.state = 1 || x.margin.state = 2 || (s.boot.excluded.getLsbD t.val && x.margin.state ≠ 3)
  let quarantined := s.countAll fun x _ => x.margin.state = 3
  leBytes 32 nonce.toNat ++ le8 s.masterNow ++ sha384 shas.flatten ++
  sha384 ((List.range 12).map fun d => Config.nvBytes (s.nvData d)).flatten ++
  le8 (usable + excluded * 2 ^ 16 + quarantined * 2 ^ 32) ++
  ((vlist s.boot.svnMin).map fun v => leBytes 4 v.toNat).flatten ++ leBytes 4 0

/-- The Gallery firmware returns an attestation report (R471); none where it does not run. -/
def execAttestationRequest (nonce : BitVec 256) (s : State) : Host.Outcome State Fault Refusal :=
  .next (if s.boot.firmwareOk && !s.gallery.lost then
    let body := s.reportBody nonce
    { s with boot := { s.boot with report := body ++ padTo 96 (Config.identitySign body) } } else s)

/-! ## Service (R472) -/

/-- A tile returned to service: STATE 5, beside the STATE it held. -/
def Margin.returned (m : Margin) : Margin :=
  if m.state = 1 ∨ m.state = 2 ∨ m.state = 3 then { m with before := m.state, state := 5 } else m

/-- The action of an accepted service command (R472). -/
def State.service (s : State) (a : ServiceAction) : State :=
  match a with
  | .raiseSvn k v =>
    { s with boot := { s.boot with svnMin := vset s.boot.svnMin k.val (if (vget s.boot.svnMin k.val).toNat < v.toNat then v else vget s.boot.svnMin k.val) } }
  | .returnTile t => s.setTile t { s.tile t with margin := (s.tile t).margin.returned }

/-- A service command (R472): refused unless it is signed, names this device, and its counter exceeds the stored one. -/
def execServiceCommand (c : ServiceCommand) (s : State) : Host.Outcome State Fault Refusal :=
  .next (if s.boot.firmwareOk && Config.serviceSigned c && c.serial = Config.serial && decide (s.boot.svcCounter < c.counter) then
    ({ s with boot := { s.boot with svcCounter := c.counter } }).service c.action else s)

end Sys2Proof.Machine
end

