-- ==== Sys2Proof/Machine/Dispatch.lean ====
section
/-! DEFINITION. The meaning of every instruction: one arm for each constructor. -/
namespace Sys2Proof.Machine

/-- Execute an instruction. -/
def exec (i : Instr) (s : State) : Host.Outcome State Fault Refusal :=
  match i with
  | .streamElementFill t serial => Sys2Proof.Machine.execStreamElementFill t serial s
  | .streamElementDrain t serial => Sys2Proof.Machine.execStreamElementDrain t serial s
  | .globalRequestPerform t id => Sys2Proof.Machine.execGlobalRequestPerform t id s
  | .transferCompletion t id => Sys2Proof.Machine.execTransferCompletion t id s
  | .semaphoreSignalArrival n => Sys2Proof.Machine.execSemaphoreSignalArrival n s
  | .globalAtomicPerform t id => Sys2Proof.Machine.execGlobalAtomicPerform t id s
  | .translationMiss t copyEngine => Sys2Proof.Machine.execTranslationMiss t copyEngine s
  | .translationWalkComplete t copyEngine => Sys2Proof.Machine.execTranslationWalkComplete t copyEngine s
  | .walkFill o v => Sys2Proof.Machine.execWalkFill o v s
  | .engineFault t id => Sys2Proof.Machine.execEngineFault t id s
  | .efResume o v => Sys2Proof.Machine.execEfResume o v s
  | .xlShoot o v => Sys2Proof.Machine.execXlShoot o v s
  | .xlShootDone p => Sys2Proof.Machine.execXlShootDone p s
  | .homeDieRequest t id => Sys2Proof.Machine.execHomeDieRequest t id s
  | .migCmd o v => Sys2Proof.Machine.execMigCmd o v s
  | .migDecayHalving p d => Sys2Proof.Machine.execMigDecayHalving p d s
  | .frameSet d v => Sys2Proof.Machine.execFrameSet d v s
  | .freePush d v => Sys2Proof.Machine.execFreePush d v s
  | .resumeWrite t v => Sys2Proof.Machine.execResumeWrite t v s
  | .qtail p q v => Sys2Proof.Machine.execQtail p q v s
  | .launchCompletion id => Sys2Proof.Machine.execLaunchCompletion id s
  | .gateSig p v => Sys2Proof.Machine.execGateSig p v s
  | .gateInit p v => Sys2Proof.Machine.execGateInit p v s
  | .preempt p v => Sys2Proof.Machine.execPreempt p v s
  | .kill p v => Sys2Proof.Machine.execKill p v s
  | .modeSet p v => Sys2Proof.Machine.execModeSet p v s
  | .hset p v => Sys2Proof.Machine.execHset p v s
  | .quarantine d v => Sys2Proof.Machine.execQuarantine d v s
  | .governorThresholds d budget v => Sys2Proof.Machine.execGovernorThresholds d budget v s
  | .resetCmd v => Sys2Proof.Machine.execResetCmd v s
  | .linkFailure l width => Sys2Proof.Machine.execLinkFailure l width s
  | .rsendContribution c => Sys2Proof.Machine.execRsendContribution c s
  | .groupCfg v => Sys2Proof.Machine.execGroupCfg v s
  | .hsumpDone d v => Sys2Proof.Machine.execHsumpDone d v s
  | .hostMemWrite off data => Sys2Proof.Machine.execHostMemWrite off data s
  | .hostMemRead off len => Sys2Proof.Machine.execHostMemRead off len s
  | .windowRegisterWrite w off v => Sys2Proof.Machine.execWindowRegisterWrite w off v s
  | .ringTail t v => Sys2Proof.Machine.execRingTail t v s
  | .errTail p v => Sys2Proof.Machine.execErrTail p v s
  | .dbgStopTile p t => Sys2Proof.Machine.execDbgStopTile p t s
  | .dbgReleaseTile p t => Sys2Proof.Machine.execDbgReleaseTile p t s
  | .dbgSingleIssue p t => Sys2Proof.Machine.execDbgSingleIssue p t s
  | .dbgHaltDie p d => Sys2Proof.Machine.execDbgHaltDie p d s
  | .dbgReleaseDie p d => Sys2Proof.Machine.execDbgReleaseDie p d s
  | .dbgDump p t => Sys2Proof.Machine.execDbgDump p t s
  | .dbgPatch p t => Sys2Proof.Machine.execDbgPatch p t s
  | .divergenceHash id => Sys2Proof.Machine.execDivergenceHash id s
  | .divergedClear o => Sys2Proof.Machine.execDivergedClear o s
  | .serviceCommand c => Sys2Proof.Machine.execServiceCommand c s
  | .attestationRequest nonce => Sys2Proof.Machine.execAttestationRequest nonce s
  | .powerCap watts => Sys2Proof.Machine.execPowerCap watts s
  | .mov f => Sys2Proof.Machine.execMov f s
  | .add f => Sys2Proof.Machine.execAdd f s
  | .sub f => Sys2Proof.Machine.execSub f s
  | .addo f => Sys2Proof.Machine.execAddo f s
  | .addc f => Sys2Proof.Machine.execAddc f s
  | .subo f => Sys2Proof.Machine.execSubo f s
  | .subc f => Sys2Proof.Machine.execSubc f s
  | .mul f => Sys2Proof.Machine.execMul f s
  | .mulhS64 f => Sys2Proof.Machine.execMulhS64 f s
  | .mulhZ64 f => Sys2Proof.Machine.execMulhZ64 f s
  | .divS64 f => Sys2Proof.Machine.execDivS64 f s
  | .divZ64 f => Sys2Proof.Machine.execDivZ64 f s
  | .remS64 f => Sys2Proof.Machine.execRemS64 f s
  | .remZ64 f => Sys2Proof.Machine.execRemZ64 f s
  | .minS64 f => Sys2Proof.Machine.execMinS64 f s
  | .minZ64 f => Sys2Proof.Machine.execMinZ64 f s
  | .maxS64 f => Sys2Proof.Machine.execMaxS64 f s
  | .maxZ64 f => Sys2Proof.Machine.execMaxZ64 f s
  | .andOp f => Sys2Proof.Machine.execAndOp f s
  | .orOp f => Sys2Proof.Machine.execOrOp f s
  | .xorOp f => Sys2Proof.Machine.execXorOp f s
  | .andn f => Sys2Proof.Machine.execAndn f s
  | .shl f => Sys2Proof.Machine.execShl f s
  | .shrZ64 f => Sys2Proof.Machine.execShrZ64 f s
  | .shrS64 f => Sys2Proof.Machine.execShrS64 f s
  | .rotl f => Sys2Proof.Machine.execRotl f s
  | .rotr f => Sys2Proof.Machine.execRotr f s
  | .clz f => Sys2Proof.Machine.execClz f s
  | .ctz f => Sys2Proof.Machine.execCtz f s
  | .popc f => Sys2Proof.Machine.execPopc f s
  | .brev f => Sys2Proof.Machine.execBrev f s
  | .bswap f => Sys2Proof.Machine.execBswap f s
  | .bfextS64 f => Sys2Proof.Machine.execBfextS64 f s
  | .bfextZ64 f => Sys2Proof.Machine.execBfextZ64 f s
  | .bfins f => Sys2Proof.Machine.execBfins f s
  | .clmul f => Sys2Proof.Machine.execClmul f s
  | .clmulh f => Sys2Proof.Machine.execClmulh f s
  | .cmpS64 f => Sys2Proof.Machine.execCmpS64 f s
  | .cmpZ64 f => Sys2Proof.Machine.execCmpZ64 f s
  | .gdand f => Sys2Proof.Machine.execGdand f s
  | .gdor f => Sys2Proof.Machine.execGdor f s
  | .gdxor f => Sys2Proof.Machine.execGdxor f s
  | .sel f => Sys2Proof.Machine.execSel f s
  | .lea f => Sys2Proof.Machine.execLea f s
  | .tagof f => Sys2Proof.Machine.execTagof f s
  | .dflt f => Sys2Proof.Machine.execDflt f s
  | .rdctl f => Sys2Proof.Machine.execRdctl f s
  | .sxt f => Sys2Proof.Machine.execSxt f s
  | .zxt f => Sys2Proof.Machine.execZxt f s
  | .prepOffset f => Sys2Proof.Machine.execPrepOffset f s
  | .prepRegister f => Sys2Proof.Machine.execPrepRegister f s
  | .br f => Sys2Proof.Machine.execBr f s
  | .call f => Sys2Proof.Machine.execCall f s
  | .ret f => Sys2Proof.Machine.execRet f s
  | .loop f => Sys2Proof.Machine.execLoop f s
  | .lbrk f => Sys2Proof.Machine.execLbrk f s
  | .semwImmediate f => Sys2Proof.Machine.execSemwImmediate f s
  | .semwRegister f => Sys2Proof.Machine.execSemwRegister f s
  | .waitw f => Sys2Proof.Machine.execWaitw f s
  | .stepMark f => Sys2Proof.Machine.execStepMark f s
  | .brk f => Sys2Proof.Machine.execBrk f s
  | .trap f => Sys2Proof.Machine.execTrap f s
  | .sys f => Sys2Proof.Machine.execSys f s
  | .endItem f => Sys2Proof.Machine.execEndItem f s
  | .chkctl f => Sys2Proof.Machine.execChkctl f s
  | .dblctl f => Sys2Proof.Machine.execDblctl f s
  | .ctrap f => Sys2Proof.Machine.execCtrap f s
  | .commit f => Sys2Proof.Machine.execCommit f s
  | .wrctl f => Sys2Proof.Machine.execWrctl f s
  | .setctl f => Sys2Proof.Machine.execSetctl f s
  | .clrctl f => Sys2Proof.Machine.execClrctl f s
  | .rft f => Sys2Proof.Machine.execRft f s
  | .xlinv f => Sys2Proof.Machine.execXlinv f s
  | .ctxsave f => Sys2Proof.Machine.execCtxsave f s
  | .ctxload f => Sys2Proof.Machine.execCtxload f s
  | .ldS8 f => Sys2Proof.Machine.execLdS8 f s
  | .ldZ8 f => Sys2Proof.Machine.execLdZ8 f s
  | .ldS16 f => Sys2Proof.Machine.execLdS16 f s
  | .ldZ16 f => Sys2Proof.Machine.execLdZ16 f s
  | .ldS32 f => Sys2Proof.Machine.execLdS32 f s
  | .ldZ32 f => Sys2Proof.Machine.execLdZ32 f s
  | .ldZ64 f => Sys2Proof.Machine.execLdZ64 f s
  | .stZ8 f => Sys2Proof.Machine.execStZ8 f s
  | .stZ16 f => Sys2Proof.Machine.execStZ16 f s
  | .stZ32 f => Sys2Proof.Machine.execStZ32 f s
  | .stZ64 f => Sys2Proof.Machine.execStZ64 f s
  | .vld f => Sys2Proof.Machine.execVld f s
  | .vst f => Sys2Proof.Machine.execVst f s
  | .vlds f => Sys2Proof.Machine.execVlds f s
  | .vsts f => Sys2Proof.Machine.execVsts f s
  | .vldx f => Sys2Proof.Machine.execVldx f s
  | .vstx f => Sys2Proof.Machine.execVstx f s
  | .vldr f => Sys2Proof.Machine.execVldr f s
  | .hbind f => Sys2Proof.Machine.execHbind f s
  | .hunbind f => Sys2Proof.Machine.execHunbind f s
  | .ladd f => Sys2Proof.Machine.execLadd f s
  | .lminS64 f => Sys2Proof.Machine.execLminS64 f s
  | .lminZ64 f => Sys2Proof.Machine.execLminZ64 f s
  | .lmaxS64 f => Sys2Proof.Machine.execLmaxS64 f s
  | .lmaxZ64 f => Sys2Proof.Machine.execLmaxZ64 f s
  | .lxch f => Sys2Proof.Machine.execLxch f s
  | .lcas f => Sys2Proof.Machine.execLcas f s
  | .vmov f => Sys2Proof.Machine.execVmov f s
  | .vsel f => Sys2Proof.Machine.execVsel f s
  | .vchk f => Sys2Proof.Machine.execVchk f s
  | .vcvt f => Sys2Proof.Machine.execVcvt f s
  | .vand f => Sys2Proof.Machine.execVand f s
  | .vor f => Sys2Proof.Machine.execVor f s
  | .vxor f => Sys2Proof.Machine.execVxor f s
  | .vshl f => Sys2Proof.Machine.execVshl f s
  | .vshrZ32 f => Sys2Proof.Machine.execVshrZ32 f s
  | .vshrS32 f => Sys2Proof.Machine.execVshrS32 f s
  | .vperm f => Sys2Proof.Machine.execVperm f s
  | .vbcast f => Sys2Proof.Machine.execVbcast f s
  | .vaddS32 f => Sys2Proof.Machine.execVaddS32 f s
  | .vsubS32 f => Sys2Proof.Machine.execVsubS32 f s
  | .vmulS32 f => Sys2Proof.Machine.execVmulS32 f s
  | .vaddsS32 f => Sys2Proof.Machine.execVaddsS32 f s
  | .vminS32 f => Sys2Proof.Machine.execVminS32 f s
  | .vminZ32 f => Sys2Proof.Machine.execVminZ32 f s
  | .vmaxS32 f => Sys2Proof.Machine.execVmaxS32 f s
  | .vmaxZ32 f => Sys2Proof.Machine.execVmaxZ32 f s
  | .vcmpS32 f => Sys2Proof.Machine.execVcmpS32 f s
  | .vcmpZ32 f => Sys2Proof.Machine.execVcmpZ32 f s
  | .vext f => Sys2Proof.Machine.execVext f s
  | .vins f => Sys2Proof.Machine.execVins f s
  | .vrcpF32 f => Sys2Proof.Machine.execVrcpF32 f s
  | .vrsqF32 f => Sys2Proof.Machine.execVrsqF32 f s
  | .vitpF32 f => Sys2Proof.Machine.execVitpF32 f s
  | .vitpBf16 f => Sys2Proof.Machine.execVitpBf16 f s
  | .vaddF f => Sys2Proof.Machine.execVaddF f s
  | .vsubF f => Sys2Proof.Machine.execVsubF f s
  | .vmulF f => Sys2Proof.Machine.execVmulF f s
  | .vfma f => Sys2Proof.Machine.execVfma f s
  | .vfnma f => Sys2Proof.Machine.execVfnma f s
  | .vminF f => Sys2Proof.Machine.execVminF f s
  | .vmaxF f => Sys2Proof.Machine.execVmaxF f s
  | .vcmpF f => Sys2Proof.Machine.execVcmpF f s
  | .vssum f => Sys2Proof.Machine.execVssum f s
  | .vsmin f => Sys2Proof.Machine.execVsmin f s
  | .vsmax f => Sys2Proof.Machine.execVsmax f s
  | .vsscan f => Sys2Proof.Machine.execVsscan f s
  | .vsmean f => Sys2Proof.Machine.execVsmean f s
  | .vsvar f => Sys2Proof.Machine.execVsvar f s
  | .vssmx f => Sys2Proof.Machine.execVssmx f s
  | .xnest f => Sys2Proof.Machine.execXnest f s
  | .xbase f => Sys2Proof.Machine.execXbase f s
  | .xfmt f => Sys2Proof.Machine.execXfmt f s
  | .xsrc f => Sys2Proof.Machine.execXsrc f s
  | .xbmp f => Sys2Proof.Machine.execXbmp f s
  | .xsdiag f => Sys2Proof.Machine.execXsdiag f s
  | .xzero f => Sys2Proof.Machine.execXzero f s
  | .xgo f => Sys2Proof.Machine.execXgo f s
  | .xdrain f => Sys2Proof.Machine.execXdrain f s
  | .xwait f => Sys2Proof.Machine.execXwait f s
  | .xstat f => Sys2Proof.Machine.execXstat f s
  | .sbind f => Sys2Proof.Machine.execSbind f s
  | .sunbind f => Sys2Proof.Machine.execSunbind f s
  | .gpush f => Sys2Proof.Machine.execGpush f s
  | .copy f => Sys2Proof.Machine.execCopy f s
  | .send f => Sys2Proof.Machine.execSend f s
  | .rsend f => Sys2Proof.Machine.execRsend f s
  | .ssig f => Sys2Proof.Machine.execSsig f s
  | .ssigR f => Sys2Proof.Machine.execSsigR f s
  | .sinit f => Sys2Proof.Machine.execSinit f s
  | .sread f => Sys2Proof.Machine.execSread f s
  | .aadd f => Sys2Proof.Machine.execAadd f s
  | .aminS64 f => Sys2Proof.Machine.execAminS64 f s
  | .aminZ64 f => Sys2Proof.Machine.execAminZ64 f s
  | .amaxS64 f => Sys2Proof.Machine.execAmaxS64 f s
  | .amaxZ64 f => Sys2Proof.Machine.execAmaxZ64 f s
  | .aand f => Sys2Proof.Machine.execAand f s
  | .aor f => Sys2Proof.Machine.execAor f s
  | .axor f => Sys2Proof.Machine.execAxor f s
  | .axch f => Sys2Proof.Machine.execAxch f s
  | .acas f => Sys2Proof.Machine.execAcas f s
  | .afaddF32 f => Sys2Proof.Machine.execAfaddF32 f s
  | .afaddBf16 f => Sys2Proof.Machine.execAfaddBf16 f s
  | .fence f => Sys2Proof.Machine.execFence f s
  | .launch f => Sys2Proof.Machine.execLaunch f s
  | .pref f => Sys2Proof.Machine.execPref f s
  | .ectlBayout f => Sys2Proof.Machine.execEctlBayout f s
  | .ectlBayin f => Sys2Proof.Machine.execEctlBayin f s
  | .ectlSpout f => Sys2Proof.Machine.execEctlSpout f s
  | .ectlSpin f => Sys2Proof.Machine.execEctlSpin f s
  | .ectlAccout f => Sys2Proof.Machine.execEctlAccout f s
  | .ectlAccin f => Sys2Proof.Machine.execEctlAccin f s
  | .ectlKill f => Sys2Proof.Machine.execEctlKill f s
  | .engineHardError u => Sys2Proof.Machine.execEngineHardError u s
  | .partitionCreate p tiles => Sys2Proof.Machine.execPartitionCreate p tiles s
  | .junctionThrottle d hot => Sys2Proof.Machine.execJunctionThrottle d hot s
  | .wallTimeDiscipline m => Sys2Proof.Machine.execWallTimeDiscipline m s
  | .ualinkPortState k up peer => Sys2Proof.Machine.execUalinkPortState k up peer s
  | .bundleIssue => Sys2Proof.Machine.execBundleIssue s
  | .waitCycle => Sys2Proof.Machine.execWaitCycle s
  | .bubbleCycle => Sys2Proof.Machine.execBubbleCycle s
  | .waitwDeadline => Sys2Proof.Machine.execWaitwDeadline s
  | .resultArrival => Sys2Proof.Machine.execResultArrival s
  | .engineCommandPresentation => Sys2Proof.Machine.execEngineCommandPresentation s
  | .denseMatrixCycle => Sys2Proof.Machine.execDenseMatrixCycle s
  | .matrixBlockZero => Sys2Proof.Machine.execMatrixBlockZero s
  | .drainRowWrite => Sys2Proof.Machine.execDrainRowWrite s
  | .sparseMatrixStart => Sys2Proof.Machine.execSparseMatrixStart s
  | .sparseMatrixComplete => Sys2Proof.Machine.execSparseMatrixComplete s
  | .segmentEntry => Sys2Proof.Machine.execSegmentEntry s
  | .segmentRewind => Sys2Proof.Machine.execSegmentRewind s
  | .deciderVerdict => Sys2Proof.Machine.execDeciderVerdict s
  | .trapTaken => Sys2Proof.Machine.execTrapTaken s
  | .semaphoreWaitWatchdog => Sys2Proof.Machine.execSemaphoreWaitWatchdog s
  | .debugStop => Sys2Proof.Machine.execDebugStop s
  | .walkData => Sys2Proof.Machine.execWalkData s
  | .migrationComplete => Sys2Proof.Machine.execMigrationComplete s
  | .refuseLog => Sys2Proof.Machine.execRefuseLog s
  | .signalLog => Sys2Proof.Machine.execSignalLog s
  | .launchAccept => Sys2Proof.Machine.execLaunchAccept s
  | .sumpAdmit => Sys2Proof.Machine.execSumpAdmit s
  | .launchEligible => Sys2Proof.Machine.execLaunchEligible s
  | .gangPlacement => Sys2Proof.Machine.execGangPlacement s
  | .runResident => Sys2Proof.Machine.execRunResident s
  | .gangStart => Sys2Proof.Machine.execGangStart s
  | .workItemComplete => Sys2Proof.Machine.execWorkItemComplete s
  | .sliceExpiry => Sys2Proof.Machine.execSliceExpiry s
  | .gangPreemption => Sys2Proof.Machine.execGangPreemption s
  | .contextSaveDone => Sys2Proof.Machine.execContextSaveDone s
  | .ectlTransferComplete => Sys2Proof.Machine.execEctlTransferComplete s
  | .gangRestore => Sys2Proof.Machine.execGangRestore s
  | .marginMeasurement => Sys2Proof.Machine.execMarginMeasurement s
  | .resetDone => Sys2Proof.Machine.execResetDone s
  | .dieFailure => Sys2Proof.Machine.execDieFailure s
  | .galleryDieLoss => Sys2Proof.Machine.execGalleryDieLoss s
  | .thermalTrip => Sys2Proof.Machine.execThermalTrip s
  | .surveyReportWrite => Sys2Proof.Machine.execSurveyReportWrite s
  | .powerOn => Sys2Proof.Machine.execPowerOn s
  | .nop => Sys2Proof.Machine.execNop s

end Sys2Proof.Machine
end

