-- ==== Sys2Proof/Machine/Order.lean ====
section
/-! DEFINITION. The event that happens next when none is named (log 3): one order among those that the manual allows, in which
everything pending outside the tiles' clocks comes before the next clock period of the tile that is furthest behind. -/
namespace Sys2Proof.Machine

/-! ## The engines of a tile -/

/-- Whether a miss arises, or its record is written: in host-assisted mode only while the ring has room (R395). -/
def State.missMoves (s : State) (tn : TileNo) (m : Option Miss) : Bool :=
  let x := (s.part (s.partOf tn)).xl
  match m with
  | none => true
  | some m => m.mode = 2 && !m.raised && decide (x.missStanding < x.missSlotsM1 + 1)

/-- Whether a request only translates the pages of an rsend's result (R390, R442). -/
def Tile.translates (t : Tile) (a : Asked) : Bool :=
  match (t.eng.active a.id).map fun (x : Active) => x.cmd.body with
  | some (.xfer x) => x.isRsend && a.req.access = .write
  | _ => false

/-- The event that performs a request which its home has let through. -/
def State.performEvent (s : State) (tn : TileNo) (a : Asked) : Option Instr :=
  let t := s.tile tn
  match s.cleared a with
  | none => none
  | some l =>
    if a.id < 2 ^ 32 then
      match (t.eng.active a.id).map fun (x : Active) => x.cmd.body with
      | some (.xfer _) => some (.globalRequestPerform tn a.id)
      | some (.atomic _ _ _ _ _ _) =>
        if l.host || s.atomicServes (homeDie l.pa) (homeCluster l.pa) tn then some (.globalAtomicPerform tn a.id) else none
      | _ => none
    else if a.req.access = .read then some (.streamElementFill tn (a.id - 2 ^ 32)) else some (.streamElementDrain tn (a.id - 2 ^ 32))

/-- What happens next to a global request (R392 to R398). -/
def State.askedEvent (s : State) (tn : TileNo) (a : Asked) : Option Instr :=
  let t := s.tile tn
  if a.fault.isSome then (if a.reported || t.priv.ef.standing then none else some (.engineFault tn a.id))
  else if (t.missing a).isSome then
    (match t.xlat.miss a.copy with
    | some m => if m.mode = 0 then some (.translationWalkComplete tn a.copy)
      else if s.missMoves tn (some m) then some (.translationMiss tn a.copy) else none
    | none => some (.translationMiss tn a.copy))
  else if (t.denied a).isSome then some (.engineFault tn a.id)
  else if t.translates a then some (.globalRequestPerform tn a.id)
  else if a.loc.isNone then
    (match t.locOf a with
    | some l => if s.heldAt a.req.access l then none else some (.homeDieRequest tn a.id)
    | none => none)
  else s.performEvent tn a

/-- What a command of the queue does next by itself: a step within scratchpads, its completion, the report of its fault. -/
def State.activeEvent (s : State) (tn : TileNo) (t : Tile) (a : Active) : Option Instr :=
  match a.cmd.body with
  | .xfer x =>
    if a.fault.isSome then (if a.reported || t.priv.ef.standing then none else some (.engineFault tn a.cmd.id))
    else if s.completes tn a x then some (.transferCompletion tn a.cmd.id)
    else if a.done || a.sent || !t.turn a || t.mayComplete a x then none
    else match a.nextReq x with
      | some r => if r.isGlobal || s.writeWaits tn a.cmd.id x r then none else some (.globalRequestPerform tn a.cmd.id)
      | none => some (.globalRequestPerform tn a.cmd.id)
  | _ => none

/-- What a stream does next without a global request: an element of the scratchpad, or of a VOID index. -/
def State.streamEvent (s : State) (tn : TileNo) (t : Tile) (st : Stream) : Option Instr :=
  if !t.streamTurn st then none
  else match st.nextElem with
    | some (.fill a) => if a.isNone || st.pat.isLocal then some (.streamElementFill tn st.serial) else none
    | some (.drain a e) =>
      if (a.isNone || st.pat.isLocal || e.words.any fun w => w.2.2.isPoison) && !(st.pat.isLocal && (a.map (s.drainHeld tn st)).getD false) then
        some (.streamElementDrain tn st.serial)
      else none
    | none => none

/-- Whether the oldest ectl transfer of a tile can complete, or meets a fault: nothing holds it (R401, R433, R439). -/
def State.ectlMoves (s : State) (tn : TileNo) : Bool :=
  match (s.tile tn).priv.ectl with
  | [] => false
  | e :: _ => e.fault.isNone && (match s.ectlPages (s.partOf tn) e with
    | .error _ => true
    | .ok ls => !ls.any fun l => s.heldAt (if e.outward then .write else .read) l.1)

/-- Whether the next copy of a run's residency is held on its way (R433, R439). -/
def State.stagingHeld (s : State) (r : Run) : Bool :=
  match (s.residencyCopies r).drop r.staged with
  | [] => false
  | c :: _ => match s.fetchPages r.part c.1 c.2.1 with
    | .error _ => false
    | .ok ls => ls.any fun l => s.heldAt .read l.1

/-- What a standing miss does next by itself, its request there or not (R393): the hardware walk ends, or the record is written. -/
def State.missEvent (s : State) (tn : TileNo) (copy : Bool) : Option Instr :=
  match (s.tile tn).xlat.miss copy with
  | none => none
  | some m =>
    if m.mode = 0 then some (.translationWalkComplete tn copy)
    else if s.missMoves tn (some m) then some (.translationMiss tn copy) else none

/-- What the engines of a tile do next. -/
def State.engineEvent (s : State) (tn : TileNo) : Option Instr :=
  let t := s.tile tn
  (t.asked.findSome? fun a => s.askedEvent tn a) <|> (t.eng.queue.findSome? fun a => s.activeEvent tn t a) <|>
  (t.streams.all.findSome? fun st => s.streamEvent tn t st) <|>
  ([false, true].findSome? fun c => s.missEvent tn c) <|>
  (if t.mx.sparseReady.isSome then some .sparseMatrixStart else none) <|>
  (if t.mx.sparseOver.isSome then some .sparseMatrixComplete else none) <|>
  (if t.xlat.walkPending then some .walkData else none) <|>
  (if s.ectlMoves tn then some .ectlTransferComplete else none) <|>
  (if t.survey.due.isEmpty then none else some .surveyReportWrite)

/-! ## The cycles of a tile -/

/-- What the handler of a tile does next. -/
def State.handlerEvent (s : State) (tn : TileNo) : Instr :=
  let p := (s.tile tn).priv
  if p.saving.isSome && (s.tile tn).seg.pendingEntry then .segmentEntry
  else if p.saving.isSome && s.gangDrained tn then .contextSaveDone
  else if p.shadow.pos.waiting then .waitCycle
  else if p.shadow.pos.bubbling then .bubbleCycle
  else .bundleIssue

/-- What the kernel of a tile does next at its boundary (R346, R418, R450), or in its next cycle. -/
def Tile.kernelEvent (t : Tile) : Option Instr :=
  if t.dbg.stopKind ≠ 0 then (if t.resident then some .debugStop else none)
  else if !t.live then none
  else if (t.eventDue (t.running && t.entryNeeded)).isSome then some .segmentRewind
  else if t.verdictDue.isSome then some .deciderVerdict
  else if t.causeDue then some .trapTaken
  else if t.running then
    (if t.stopDue.isSome then some .debugStop
     else if t.wdogDue.isSome then some .semaphoreWaitWatchdog
     else if t.entryNeeded then some .segmentEntry
     else if t.k.pos.waiting then some .waitCycle
     else if t.k.pos.bubbling then some .bubbleCycle
     else some .bundleIssue)
  else if t.winding then
    (if !t.eng.lag.isEmpty then some .engineCommandPresentation
     else if !t.mx.over_ || t.deciding then some .denseMatrixCycle
     else if t.mayCommit && (match t.run with | some r => !r.drained || t.settled | none => false) then some .workItemComplete
     else none)
  else none

/-- What a tile does next. -/
def State.tileEvent (s : State) (tn : TileNo) : Option Instr :=
  let t := s.tile tn
  if t.priv.parked then (if t.priv.faultTold then none else some .bundleIssue)
  else if t.priv.active then some (s.handlerEvent tn)
  else match t.run with
    | none => none
    | some r =>
      if !r.resident then (if t.priv.ef.standing || t.priv.ctxState ≠ 3 || s.stagingHeld r then none else some .runResident)
      else if !r.started then
        (match s.gangOf r with | some g => if s.gangReady g then some .gangStart else none | none => none)
      else t.kernelEvent

/-- The tile that acts next: of those with something to do, the one whose clock stands lowest. -/
def State.nextTile (s : State) : Option (TileNo × Instr) :=
  (((List.range 1152).map tileNo).filterMap fun t => (s.tileEvent t).map fun i => (t, i)).foldl
    (fun (b : Option (TileNo × Instr)) x => match b with
      | some y => if (s.tile x.1).clock < (s.tile y.1).clock then some x else b
      | none => some x) none

/-! ## Schedulers, homes and governors -/

/-- What the scheduler of a die does next. -/
def State.dieEvent (s : State) (d : Nat) : Option Instr :=
  (if s.takesHost d && (s.nextEntry d).isSome then some .launchAccept else none) <|>
  (if !(s.die d).sump.isEmpty && decide (1 ≤ s.poolFree d) && !s.hostSumped d then some .sumpAdmit else none) <|>
  (if s.launches.any fun (l : Launch) => !l.eligible && l.ending.isNone && s.gatesHold l then some .launchEligible else none) <|>
  (if (s.starved d).isSome then some .gangPlacement
   else match s.nextPlacement d with
    | some p => if p.gang.isNone then some .gangPlacement else some .gangRestore
    | none => none) <|>
  (if (s.nextPreempt d).isSome then some .gangPreemption else none) <|>
  (if (s.die d).mig.isSome then some .migrationComplete else none) <|>
  (if s.boot.booted && decide ((s.die d).measured + 1000000 ≤ s.ns) then some .marginMeasurement else none)

/-- The tile whose gang's slice ends now (R378). -/
def State.sliceEvent (s : State) : Option (TileNo × Instr) :=
  s.launches.findSome? fun (l : Launch) => l.gangs.findSome? fun (g : Gang) =>
    if g.sliceEnd ≠ 0 && decide (g.sliceEnd ≤ s.ns) && !s.gangHalted g && g.isResident && !(g.expired && s.sliceWanted l g) then
      g.running.head?.map fun t => (t, .sliceExpiry)
    else none

/-- What a launch that may end does next (R375, R456). -/
def State.endEvent (s : State) (l : Launch) : Option Instr :=
  if l.outcome.isNone || l.divHeld then none
  else if s.completionHeld l then some (.divergenceHash l.id) else some (.launchCompletion l.id)

/-- What a partition's translation does next: an invalidation ends, counters are halved (R391, R399). -/
def State.partEvent (s : State) (p : PartNo) : Option Instr :=
  let x := (s.part p).xl
  if x.xlBusy && !s.oldWalk p then some (.xlShootDone p)
  else if x.migDecay = 0 then none
  else ((List.range 12).find? fun d => decide (vget x.decayed d + 1024 * x.migDecay ≤ s.ns)).map fun d =>
    .migDecayHalving p (Fin.ofNat 12 d)

/-- The first of the events that no tile's clock paces. -/
def State.freeEvent (s : State) : Option (TileNo × Instr) :=
  let at0 := fun (i : Option Instr) => i.map fun i => ((0 : TileNo), i)
  at0 (if s.boot.ran then none else some .powerOn) <|>
  at0 (if s.signals.isEmpty then none else some (.semaphoreSignalArrival 0)) <|>
  at0 (if s.gallery.contributions.isEmpty || s.gallery.lost then none else some (.rsendContribution (.flight 0))) <|>
  (((List.range 1152).map tileNo).findSome? fun t => (s.engineEvent t).map fun i => (t, i)) <|>
  ((List.range 12).findSome? fun d => (s.dieEvent d).map fun i => (tileNo (96 * d), i)) <|>
  s.sliceEvent <|> at0 (s.launches.findSome? s.endEvent) <|> at0 (allParts.findSome? s.partEvent) <|>
  at0 (if s.gallery.resetBusy || (vlist s.dies).any fun d => d.down && !d.refused then some .resetDone else none)

/-- The event that happens next when the agenda names none. -/
def State.nextEvent (s : State) : Option (TileNo × Instr) := s.freeEvent <|> s.nextTile

end Sys2Proof.Machine
end

