-- ==== Sys2Proof/Machine/Step.lean ====
section
/-! DEFINITION. One step of the package, and the placing of one instruction where the first tile fetches its next. -/
namespace Sys2Proof.Machine

/-- One step (log 3): the event that the agenda names, else the one that comes next by itself; with nothing to do a nanosecond passes.
A stopped package has only power-up before it
(20 Table 20.3, class 14; R469). -/
def stepOn (s : State) : Host.Outcome State Fault Refusal :=
  match s.stopped, s.agenda with
  | true, (t, .powerOn) :: rest => exec .powerOn { s with cur := t, agenda := rest }
  | true, _ => .fault .packageStopped
  | false, (t, i) :: rest => exec i { s with cur := t, agenda := rest }
  | false, [] => match s.nextEvent with
    | some (t, i) => exec i { s with cur := t }
    | none => .next { s with wall := s.wall + 1000 }

/-- One step, from the state that the physical world has left (log 10). -/
def step (s : State) : Host.Outcome State Fault Refusal := stepOn s.physical

/-! ## Placing an instruction (log 2) -/

/-- Whether an operation belongs to handlers alone, and is placed in the handler store. -/
def handlerOnly (i : Instr) : Bool :=
  match i with
  | .wrctl _ | .setctl _ | .clrctl _ | .rft _ | .xlinv _ | .ctxsave _ | .ctxload _ | .ectlBayout _ | .ectlBayin _ | .ectlSpout _
  | .ectlSpin _ | .ectlAccout _ | .ectlAccin _ | .ectlKill _ => true
  | _ => false

/-- The slot in which a bare word is placed: the first of its kind. -/
def firstSlot : SlotKind → Slot
  | .S => .s0 | .C => .c | .M => .m0 | .V => .v0 | .X => .x | .Q => .q

/-- The header that presents one slot, ITER_LVL 0b111, scope 0. -/
def headerFor (sl : Slot) : Insn := 0x1C000000 ||| BitVec.ofNat 32 (2 ^ sl.idx)

/-- The image of the placed kernel: code from offset 0. -/
def placedImage : Image :=
  { codeOff := 0, codeLen := 0x1000, entry := 0, scratch := 0x5F0000, coverage := 0, nsems := 64, nshapes := 8, nstreams := 8,
    nregs := 32, segMax := 4096, safeDist := 4096, bodyLen := 0x1000, kernelId := 0 }

/-- The launch of the placed kernel: one gang of one tile. -/
def placedLaunch (id : Nat) : Launch :=
  { id := id, die := 0, part := 0,
    record := { (default : LaunchRec) with f := 1, g := 1, s := 0, widths := [1], extents := [1], dieMask := 1 },
    img := some placedImage, order := 0, eligible := true, gate := none, nextGang := 1,
    gangs := [{ index := 0, ranks := [.onTile 0], since := 0, residentAt := some 0, sliceEnd := 0, paused := none, expired := false, ordered := false, asked := false }],
    items := 1, itemsDone := 0, ending := none, pooled := true, heldPreempt := false, preempts := 0, sumped := false, raised := false, accept := 0,
    start := 0, dirty := [], hashed := false, divHeld := false }

/-- The run of the placed kernel. -/
def placedRun (id : Nat) : Run :=
  { launch := id, gang := 0, rank := 0, gangTiles := 1, items := 1, item := 0, wid := 0, mailbox := vrep 16 0, img := placedImage,
    part := 0, tag := 0, staged := 0, resident := true, started := true, itemEnded := false, doneItems := 0, sc := 0,
    drained := false, gate := none, retrace := false, killed := false }

/-- Tile 0 with the placed bundle next to issue, of its kernel or of its handler, at the nominal clock of reclaim mode (R405). -/
def Tile.withBundle (t : Tile) (id : Nat) (handler : Bool) (bs : List Byte) : Tile :=
  let t1 : Tile := { t with priv := { Priv.reset with handlers := t.priv.handlers }, dbg := Debug.reset, inp := Tile.reset.inp,
                            margin := { t.margin with mhz := 1500 } }
  let t2 := t1.becomeResident (placedRun id)
  if handler then
    { t2 with priv := { t2.priv with ctxState := 0b01, active := true, shadow := Ctx.start 0, handlers := writeCells t2.priv.handlers 0 bs } }
  else { t2 with spad := t2.spad.put 0 bs }

/-- The state with a table row's instruction as the next bundle of tile 0, and its issue as the next event (log 2). -/
def State.withFetchWord (s : State) (nbits w : Nat) : State :=
  let word_ := BitVec.ofNat 32 (w % 2 ^ nbits)
  match tableKind word_ with
  | none => s
  | some (k, i) =>
    let bs := leBytes 4 (headerFor (firstSlot k)).toNat ++ leBytes 4 word_.toNat
    { (s.setTile 0 ((s.tile 0).withBundle s.nextLaunch (handlerOnly i) bs)).setPart 0 (Part.withTiles 1) with
      launches := s.launches ++ [placedLaunch s.nextLaunch], nextLaunch := s.nextLaunch + 1, stopped := false,
      cur := 0, curSlot := (firstSlot k), curExt := none, curHdr := Header.ofWord (headerFor (firstSlot k)), agenda := [(0, .bundleIssue)] }

end Sys2Proof.Machine
end

