-- ==== Sys2Proof/WellFormed.lean ====
section
/-! DEFINITION. When an instruction is well formed: a slot operation that passes every word check of 05
Table 5.10; an event, whose operands are in range by their types. -/
namespace Sys2Proof

/-- An instruction is well formed in a slot that does (`ext`) or does not receive an extension value. -/
def Instr.wellFormed (ext : Bool) (i : Instr) : Bool := (i.wordFault ext).isNone

/-- A well-formed slot operation and the slot kind it stands in. -/
def Instr.wellFormedIn (k : SlotKind) (ext : Bool) (i : Instr) : Bool :=
  i.wellFormed ext && (i = .nop || i.kind = some k)

end Sys2Proof
end

