-- ==== Sys2Proof/Safety.lean ====
section
/-! DEFINITION. The vocabulary of the statements: what counts as a run that goes on, when an operation issues with nothing in its way,
and where its result is found. -/
namespace Sys2Proof.Machine

/-- A step that ends in a next state. -/
def State.goesOn (s : State) : Prop := ∃ t, step s = .next t

/-! ## An operation that issues alone -/

/-- The issue of an operation that is named alone: in the slot and with the extension value of the state. -/
def State.sole (s : State) (i : Instr) : Issue :=
  { slot := s.curSlot, op := i, ext := s.curExt, first := true, latch := zeroVoid, stepBy := zeroVoid }

/-- What its operands read, by role (R52, R65). -/
def State.operands (s : State) (i : Instr) : List (Role × Val) := (readSources (s.sole i) (s.sole i).sources s.me).1

/-- The acting tile after the pops of its operands (R65). -/
def State.popped (s : State) (i : Instr) : Tile := (readSources (s.sole i) (s.sole i).sources s.me).2.1

/-- What the operation has at its issue. -/
def State.env (s : State) (i : Instr) : Env :=
  mkEnv (aloneBatch i (slotSem i) s) s.me.ctx.cycle true (s.sole i) (s.operands i)

/-- The operation is on: its guard lets it be, and the iteration condition of its bundle holds (R57, R123). -/
def State.on (s : State) (i : Instr) : Prop := opOn s.curHdr s.me.ctx i = true

/-- Every check that an issue passes before it takes effect: the word checks, no issue-time cause of its bundle or its own, nothing to wait for
(R143, R156, R157, R345). -/
def State.unhindered (s : State) (i : Instr) : Prop :=
  i.wordFault s.curExt.isSome = none ∧ boundCands s.me s.curHdr = [] ∧ (checkAll (aloneBatch i (slotSem i) s) s).cands = [] ∧
  (checkAll (aloneBatch i (slotSem i) s) s).short = []

/-- Nothing else happens at the tile in the clock period of the issue: no replay (R32), no launch gate or stream leg to publish,
or trace record of a start to make again (R315, R455), no upset copy (R208, R340), no stuck bit (24 R479), nothing put off, no result, command or
semaphore change that falls due, and no checker's copy of a command late (R170). -/
def State.steady (s : State) : Prop :=
  s.me.inp.replays = [] ∧ s.me.run.bind Run.gate = none ∧ (s.me.run.map Run.retrace).getD false = false ∧
  s.me.survey.waits.read = none ∧ s.me.survey.waits.write = none ∧
  s.me.checker = none ∧ s.me.shadowCheck = none ∧ s.me.inp.stuck = [] ∧ s.me.dfr = Deferred.none ∧ (∀ e ∈ s.me.k.infl, s.me.k.cycle < e.last) ∧
  (∀ e ∈ s.me.priv.shadow.infl, s.me.priv.shadow.cycle < e.last) ∧ (∀ c ∈ s.me.eng.lag, s.me.k.cycle < c.cycle + 4 ∧ c.late = 0) ∧
  s.me.sems.pend = []

/-- As `steady`, with no matrix command in the queue (R242). -/
def State.calm (s : State) : Prop := s.steady ∧ s.me.mx.queue = []

/-! ## Where a result is found -/

/-- The position that a destination reserves in a write stream, by binding and number (R66); none for any other destination. -/
def State.reserved (s : State) (i : Instr) (d : BitVec 6) : Option (Nat × Nat) := (reserve (s.popped i) s.curSlot.idx d).1

/-- A result stands in flight and arrives at the end of its latency (R50). -/
def State.inFlight (s t : State) (i : Instr) (lat : Nat) (d : BitVec 6) (r : Result) : Prop :=
  { slot := s.curSlot, issued := s.me.ctx.cycle, last := s.me.ctx.cycle + lat - 1, res := r, place := s.reserved i d }
    ∈ t.me.ctx.infl

/-- A scalar has arrived: pushed to the scalar queue, its named register written (R50), its place in a write stream filled (R66). -/
def State.arrived (s t : State) (i : Instr) (d : BitVec 6) (x : Scalar) : Prop :=
  t.me.ctx.sq = pushWindow s.me.ctx.sq x ∧
  t.me.ctx.n = (if d.toNat < 32 then vset s.me.ctx.n d.toNat x else s.me.ctx.n) ∧
  (∀ serial pos, s.reserved i d = some (serial, pos) →
    t.me.streams = (reserve (s.popped i) s.curSlot.idx d).2.1.streams.mapSerial serial fun st => st.fill pos (.scalar x))

/-- An operation of latency `lat` pushes a scalar and writes it to the destination it names (R50). -/
def State.gives (s t : State) (i : Instr) (lat : Nat) (x : Scalar) : Prop :=
  if lat = 1 then s.arrived t i (destSpec i.dest) x
  else s.inFlight t i lat (destSpec i.dest) (.scalar x (destSpec i.dest))

/-- An operation of latency `lat` pushes a vector and writes it to the destination it names (R50). -/
def State.givesVector (s t : State) (i : Instr) (lat : Nat) (x : VReg) : Prop :=
  s.inFlight t i lat (destSpec i.dest) (.vector x (destSpec i.dest))

/-- A guard pair holds two guards, every other guard what it held; a write to g0 is discarded (R61, R62). -/
def State.guardsAre (s t : State) (j : Nat) (even odd : Guard) : Prop :=
  ∀ k, k < 16 → vget t.me.ctx.g k =
    if k = 2 * j ∧ k ≠ 0 then even else if k = 2 * j + 1 then odd else vget s.me.ctx.g k

/-- The bubble cycles of a taken transfer whose entry was prepared at cycle `p`, none where it counts as early enough: the target issues at
max(t + w + 1, p + 7) (R164). -/
def State.bubbles (s : State) (p : Option Nat) : Nat :=
  match p with
  | none => 0
  | some c => max (s.me.ctx.cycle + s.curHdr.wait.toNat + 1) (c + 7) - (s.me.ctx.cycle + s.curHdr.wait.toNat + 1)

/-- The major opcode in the word of an operation (05 Tables 5.4 to 5.9): bits 31 to 25. -/
def majorOf (i : Instr) : Nat := (encode i).toNat / 2 ^ 25

/-! ## The results of the scalar operations (08 Table 8.1, R181, R184, R185) -/

/-- The result of an operation of 08 Table 8.1 on two words, as an integer or a bit pattern. -/
def wordResult (i : Instr) (a b : Word) : Option Word :=
  let n := b.toNat % 64
  let w := min (b.toNat / 2 ^ 8 % 64 + 1) (64 - n)
  match i with
  | .mov _ => some a
  | .add _ => some (BitVec.ofNat 64 (a.toNat + b.toNat))
  | .sub _ => some (BitVec.ofInt 64 ((a.toNat : Int) - b.toNat))
  | .mul _ => some (BitVec.ofNat 64 (a.toNat * b.toNat))
  | .mulhS64 _ => some (BitVec.ofInt 64 (a.toInt * b.toInt / 2 ^ 64))
  | .mulhZ64 _ => some (BitVec.ofNat 64 (a.toNat * b.toNat / 2 ^ 64))
  | .minS64 _ => some (if b.toInt < a.toInt then b else a)
  | .minZ64 _ => some (if b.toNat < a.toNat then b else a)
  | .maxS64 _ => some (if a.toInt < b.toInt then b else a)
  | .maxZ64 _ => some (if a.toNat < b.toNat then b else a)
  | .andOp _ => some (a &&& b)
  | .orOp _ => some (a ||| b)
  | .xorOp _ => some (a ^^^ b)
  | .andn _ => some (a &&& ~~~b)
  | .shl _ => some (BitVec.ofNat 64 (a.toNat * 2 ^ n))
  | .shrZ64 _ => some (BitVec.ofNat 64 (a.toNat / 2 ^ n))
  | .shrS64 _ => some (BitVec.ofInt 64 (a.toInt / 2 ^ n))
  | .rotl _ => some (BitVec.ofNat 64 (a.toNat * 2 ^ n + a.toNat / 2 ^ (64 - n)))
  | .rotr _ => some (BitVec.ofNat 64 (a.toNat / 2 ^ n + a.toNat * 2 ^ (64 - n)))
  | .lea f => some (BitVec.ofNat 64 (a.toNat + b.toNat * 2 ^ f.sh.toNat))
  | .sxt f => some (BitVec.ofInt 64 ((a.setWidth (8 * 2 ^ f.w.toNat)).toInt))
  | .zxt f => some ((a.setWidth (8 * 2 ^ f.w.toNat)).setWidth 64)
  | .bfextZ64 _ => some (BitVec.ofNat 64 (a.toNat / 2 ^ n % 2 ^ w))
  | .bfextS64 _ => some (BitVec.ofInt 64 ((BitVec.ofNat w (a.toNat / 2 ^ n)).toInt))
  | .divZ64 _ => some (if b.toNat = 0 then BitVec.allOnes 64 else BitVec.ofNat 64 (a.toNat / b.toNat))
  | .remZ64 _ => some (if b.toNat = 0 then a else BitVec.ofNat 64 (a.toNat % b.toNat))
  | .divS64 _ => some (if b.toInt = 0 then BitVec.allOnes 64 else BitVec.ofInt 64 (a.toInt.tdiv b.toInt))
  | .remS64 _ => some (if b.toInt = 0 then a else BitVec.ofInt 64 (a.toInt.tmod b.toInt))
  | _ => none

/-- The latency of an operation in schedule cycles (07 Table 7.1). -/
def wordLatency (i : Instr) : Nat :=
  match i with
  | .mul _ => 3
  | .mulhS64 _ | .mulhZ64 _ => 4
  | .bfextZ64 _ | .bfextS64 _ => 2
  | .divZ64 _ | .remZ64 _ | .divS64 _ | .remS64 _ => 20
  | _ => 1

/-- The result of an operation that counts or rearranges the bits of a word (08 Table 8.1), bit by bit. -/
def bitResult (i : Instr) (a r : Word) : Prop :=
  match i with
  | .clz _ => r.toNat ≤ 64 ∧ a.toNat < 2 ^ (64 - r.toNat) ∧ (r.toNat < 64 → 2 ^ (63 - r.toNat) ≤ a.toNat)
  | .ctz _ => r.toNat ≤ 64 ∧ (∀ k, k < r.toNat → a.getLsbD k = false) ∧ (r.toNat < 64 → a.getLsbD r.toNat = true)
  | .popc _ => r.toNat = ((List.range 64).filter fun k => a.getLsbD k).length
  | .brev _ => ∀ k, k < 64 → r.getLsbD k = a.getLsbD (63 - k)
  | .bswap _ => ∀ k, k < 64 → r.getLsbD k = a.getLsbD (56 - k / 8 * 8 + k % 8)
  | _ => False

/-- The product of two words as polynomials over two elements: bit k is the parity of the pairs of one bits whose places add
to k (08 Table 8.1). -/
def carrylessBit (a b : Word) (k : Nat) : Bool :=
  (List.range 64).foldl (fun p j => p ^^ (b.getLsbD j && decide (j ≤ k) && a.getLsbD (k - j))) false

/-! ## The accesses of slots M (10 R219, R220, R223) -/

/-- The bytes of a scalar load and whether it extends their sign (R219). -/
def loadShape (i : Instr) : Option (Nat × Bool) :=
  match i with
  | .ldS8 _ => some (1, true) | .ldZ8 _ => some (1, false) | .ldS16 _ => some (2, true) | .ldZ16 _ => some (2, false)
  | .ldS32 _ => some (4, true) | .ldZ32 _ => some (4, false) | .ldZ64 _ => some (8, false)
  | _ => none

/-- The bytes of a scalar store (R219). -/
def storeShape (i : Instr) : Option Nat :=
  match i with
  | .stZ8 _ => some 1 | .stZ16 _ => some 2 | .stZ32 _ => some 4 | .stZ64 _ => some 8
  | _ => none

/-- The address and tag of lane `l` of a contiguous access: 4 bytes each from the address aligned down to 4 (R220). -/
def State.blockLane (s : State) (i : Instr) (l : Nat) : Nat × Tag :=
  ((s.env i).address.v.toNat - (s.env i).address.v.toNat % 4 + 4 * l, (s.env i).address.tag)

/-- The address and tag of lane `l` of a strided access (R220). -/
def State.strideLane (s : State) (i : Instr) (l : Nat) : Nat × Tag :=
  let x := ((s.env i).a.v.toNat + (s.env i).offset.v.toNat * l) % 2 ^ 64
  (x - x % 4, (s.env i).a.tag.join (s.env i).offset.tag)

/-- The address and tag of lane `l` of an indexed access: the offset is lane `l` of B, zero-extended (R220). -/
def State.indexLane (s : State) (i : Instr) (l : Nat) : Nat × Tag :=
  let x := ((s.env i).a.v.toNat + ((s.env i).lane .B l).v.toNat) % 2 ^ 64
  (x - x % 4, (s.env i).a.tag.join ((s.env i).lane .B l).tag)

/-- The latency and the lane addresses of a vector load. -/
def vectorLoadShape (s : State) (i : Instr) : Option (Nat × (Nat → Nat × Tag)) :=
  match i with
  | .vld _ => some (5, s.blockLane i) | .vlds _ => some (5, s.strideLane i) | .vldx _ => some (6, s.indexLane i)
  | _ => none

/-- The lane addresses of a vector store. -/
def vectorStoreShape (s : State) (i : Instr) : Option (Nat → Nat × Tag) :=
  match i with
  | .vst _ => some (s.blockLane i) | .vsts _ => some (s.strideLane i) | .vstx _ => some (s.indexLane i)
  | _ => none

/-- The word that a local atomic leaves, from the old word, B and D (R223). -/
def localAtomic (i : Instr) : Option (Word → Word → Word → Word) :=
  match i with
  | .ladd _ => some fun old b _ => BitVec.ofNat 64 (old.toNat + b.toNat)
  | .lminS64 _ => some fun old b _ => if b.toInt < old.toInt then b else old
  | .lminZ64 _ => some fun old b _ => if b.toNat < old.toNat then b else old
  | .lmaxS64 _ => some fun old b _ => if old.toInt < b.toInt then b else old
  | .lmaxZ64 _ => some fun old b _ => if old.toNat < b.toNat then b else old
  | .lxch _ => some fun _ b _ => b
  | .lcas _ => some fun old b d => if old = d then b else old
  | _ => none

/-! ## The results of slots V (10 R226, R230, R233, R240) -/

/-- A floating result of two lanes in the type of the operation, rounded to nearest, ties to even (R230). -/
def floatLane (t : BitVec 2) (f : Ext → Ext → Ext → Ext) (a b d : LaneBits) : LaneBits :=
  let v := fun (x : LaneBits) => decodeFmt (fltOf t) (x.toNat % 2 ^ (fltOf t).width)
  BitVec.ofNat 32 (encodeFmt (fltOf t) (roundFmt (fltOf t) .rne false (f (v a) (v b) (v d))))

/-- The latency, the operands and the lane result of a lane operation. -/
def laneResult (i : Instr) : Option (Nat × List Role × (LaneBits → LaneBits → LaneBits → LaneBits)) :=
  match i with
  | .vmov _ => some (2, [.A], fun a _ _ => a)
  | .vand _ => some (2, [.A, .B], fun a b _ => a &&& b)
  | .vor _ => some (2, [.A, .B], fun a b _ => a ||| b)
  | .vxor _ => some (2, [.A, .B], fun a b _ => a ^^^ b)
  | .vshl _ => some (2, [.A, .B], fun a b _ => BitVec.ofNat 32 (a.toNat * 2 ^ (b.toNat % 32)))
  | .vshrZ32 _ => some (2, [.A, .B], fun a b _ => BitVec.ofNat 32 (a.toNat / 2 ^ (b.toNat % 32)))
  | .vshrS32 _ => some (2, [.A, .B], fun a b _ => BitVec.ofInt 32 (a.toInt / 2 ^ (b.toNat % 32)))
  | .vaddS32 _ => some (2, [.A, .B], fun a b _ => BitVec.ofNat 32 (a.toNat + b.toNat))
  | .vsubS32 _ => some (2, [.A, .B], fun a b _ => BitVec.ofInt 32 ((a.toNat : Int) - b.toNat))
  | .vmulS32 _ => some (3, [.A, .B], fun a b _ => BitVec.ofNat 32 (a.toNat * b.toNat))
  | .vaddsS32 _ => some (2, [.A, .B], fun a b _ => BitVec.ofInt 32 (max (-(2 ^ 31)) (min (2 ^ 31 - 1) (a.toInt + b.toInt))))
  | .vminS32 _ => some (2, [.A, .B], fun a b _ => if b.toInt < a.toInt then b else a)
  | .vminZ32 _ => some (2, [.A, .B], fun a b _ => if b.toNat < a.toNat then b else a)
  | .vmaxS32 _ => some (2, [.A, .B], fun a b _ => if a.toInt < b.toInt then b else a)
  | .vmaxZ32 _ => some (2, [.A, .B], fun a b _ => if a.toNat < b.toNat then b else a)
  | .vrcpF32 _ => some (4, [.A], fun a _ _ => BitVec.ofNat 32 (rcpSeed a.toNat))
  | .vrsqF32 _ => some (4, [.A], fun a _ _ => BitVec.ofNat 32 (rsqSeed a.toNat))
  | .vaddF f => some (4, [.A, .B], floatLane f.t fun a b _ => a.add b)
  | .vsubF f => some (4, [.A, .B], floatLane f.t fun a b _ => a.sub b)
  | .vmulF f => some (4, [.A, .B], floatLane f.t fun a b _ => a.mul b)
  | .vminF f => some (2, [.A, .B], floatLane f.t fun a b _ => a.min b)
  | .vmaxF f => some (2, [.A, .B], floatLane f.t fun a b _ => a.max b)
  | .vfma f => some (5, [.A, .B, .D], floatLane f.t fun a b d => d.add (a.mul b))
  | .vfnma f => some (5, [.A, .B, .D], floatLane f.t fun a b d => d.sub (a.mul b))
  | _ => none

/-- A segmented operation's fields, its latency, and what a lane receives from the values of the segment (10 Table 10.6, R240);
none: the lane lies outside the segment and becomes VOID. -/
def segmentedResult (i : Instr) : Option (FormHDAB × Nat × (ElemFmt → List Ext → Nat → Option LaneBits)) :=
  match i with
  | .vssum f => some (f, 6, fun ef xs _ => some (segResult ef false (sumExt xs)))
  | .vsmin f => some (f, 6, fun ef xs _ => some (segResult ef false (minExt xs)))
  | .vsmax f => some (f, 6, fun ef xs _ => some (segResult ef false (maxExt xs)))
  | .vsmean f => some (f, 8, fun ef xs _ => some (rneLane (segFlt ef) ((sumExt xs).divNat xs.length)))
  | .vsvar f => some (f, 10, fun ef xs _ => some (rneLane (segFlt ef) (varExt xs)))
  | .vsscan f => some (f, 8, fun ef xs l => if l < xs.length then some (segResult ef false (sumExt (xs.take (l + 1)))) else none)
  | .vssmx f => some (f, 10, fun ef xs l => if l < xs.length then some (segResult ef true ((xs.getD l .nan).sub (maxExt xs))) else none)
  | _ => none

/-! ## Slots X and Q -/

/-- The configuration table that a configuration write of a value leaves (R244 to R246). -/
def configured (i : Instr) (c : MxCfg) (v : Nat) : Option MxCfg :=
  match i with
  | .xnest f =>
    let l := vget c.nest f.f.toNat
    some { c with nest := vset c.nest f.f.toNat (match f.sel.toNat with
      | 0 => { l with bound := v } | 1 => { l with astr := v } | 2 => { l with bstr := v } | 3 => { l with accstr := v }
      | 4 => { l with sastr := v } | 5 => { l with sbstr := v } | 6 => { l with rowstr := v } | _ => { l with colstr := v }) }
  | .xbase f => some { c with base := vset c.base f.sel.toNat v }
  | .xfmt _ => some { c with afmt := v % 16, bfmt := v / 16 % 16, rowsM1 := v / 256 % 64 }
  | .xsrc f => some { c with accSrc := decide (f.sel = 1) }
  | .xbmp f =>
    if f.sel = 2 then some { c with abmpOn := false, bbmpOn := false }
    else if f.sel = 0 then some { c with abmp := v, abmpOn := true } else some { c with bbmp := v, bbmpOn := true }
  | .xsdiag f => some { c with sdiag := if f.sel = 1 then some f.f.toNat else none }
  | _ => none

/-- The operation of a global atomic, and the stream register to which it returns the old value (R276, R288). -/
def atomicOf (i : Instr) : Option (AtomicOp × Option Nat) :=
  match i with
  | .aadd f => some (.add, specStream f.d) | .aminS64 f => some (.minS, specStream f.d) | .aminZ64 f => some (.minZ, specStream f.d)
  | .amaxS64 f => some (.maxS, specStream f.d) | .amaxZ64 f => some (.maxZ, specStream f.d) | .aand f => some (.and, specStream f.d)
  | .aor f => some (.or, specStream f.d) | .axor f => some (.xor, specStream f.d) | .axch f => some (.xch, specStream f.d)
  | .afaddF32 f => some (.faddF32, specStream f.d) | .afaddBf16 f => some (.faddBf16, specStream f.d)
  | .acas f => some (.cas, some f.h.toNat)
  | _ => none

/-- An operation issues an engine command (R170, R267): it joins the commands within the checker lag, in issue order, with the bundle,
cycle, scope and segment of its issue. -/
def State.issuesCommand (s t : State) (b : CmdBody) : Prop :=
  ∃ c ∈ t.me.eng.lag, c.id = s.me.eng.next ∧ c.body = b ∧ c.addr = s.me.k.pos.addr ∧ c.cycle = s.me.k.cycle ∧
    c.scope = s.curHdr.scope ∧ c.segNo = s.me.seg.number ∧ t.me.eng.next = s.me.eng.next + 1

/-- The tag that an operation consumes where it is POISON (R59): its operands joined in a carry, compare, local atomic and command operation and a
drain; the first address that is POISON, or datum that is POISON under a VALID address, in a store; the lowest on lane in a vector compare; and
otherwise the count, target or value in A or B. -/
def State.usesPoison (s : State) (i : Instr) (o : BadWord) : Prop :=
  let e := s.env i
  let firstOf := fun (at_ : Nat → Nat × Tag) =>
    let tag := fun l => if (at_ l).2 = .valid then (e.lane .D l).tag else (at_ l).2
    ∃ l, l < 32 ∧ tag l = .poison o ∧ ∀ k, k < l → (tag k).isPoison = false
  let lowestOn := fun (m : BitVec 3) =>
    let tag := fun l => (e.lane .A l).tag.join (e.lane .B l).tag
    let on := fun l => (s.mask m).vals.getLsbD l = true ∧ (s.mask m).voids.getLsbD l = false
    ∃ l, l < 32 ∧ on l ∧ tag l = .poison o ∧ ∀ k, k < l → on k → (tag k).isPoison = false
  match i with
  | .addo _ | .addc _ | .subo _ | .subc _ | .cmpS64 _ | .cmpZ64 _ | .xdrain _
  | .copy _ | .send _ | .rsend _ | .sbind _ | .gpush _ | .ssig _ | .ssigR _ | .sinit _ | .fence _ | .launch _ | .pref _
  | .aadd _ | .aminS64 _ | .aminZ64 _ | .amaxS64 _ | .amaxZ64 _ | .aand _ | .aor _ | .axor _ | .axch _ | .acas _ | .afaddF32 _ | .afaddBf16 _ =>
    e.joined = .poison o
  | .ladd _ | .lminS64 _ | .lminZ64 _ | .lmaxS64 _ | .lmaxZ64 _ | .lxch _ | .lcas _ => e.a.tag ≠ .void ∧ e.joined = .poison o
  | .stZ8 _ | .stZ16 _ | .stZ32 _ | .stZ64 _ =>
    e.address.tag = .poison o ∨ (e.address.tag = .valid ∧ e.d.tag = .poison o)
  | .vst _ => firstOf (s.blockLane i) | .vsts _ => firstOf (s.strideLane i) | .vstx _ => firstOf (s.indexLane i)
  | .vcmpS32 f => lowestOn f.m | .vcmpZ32 f => lowestOn f.m | .vcmpF f => lowestOn f.m
  | .loop f => f.k = false ∧ e.a.tag = .poison o
  | .xbmp f => f.sel ≠ 2 ∧ e.a.tag = .poison o
  | .prepRegister _ | .waitw _ | .hbind _ | .xnest _ | .xbase _ | .xfmt _ | .xzero _
  | .wrctl _ | .setctl _ | .clrctl _ | .xlinv _ | .ctxsave _ | .ctxload _ => e.a.tag = .poison o
  | .semwRegister _ => e.b.tag = .poison o
  | _ => False

/-! ## The privileged space (17 Table 17.1, 19 Table 19.5, 20 Table 20.9, 22 Table 22.1) -/

/-- The bits in which a register without a side effect holds what is written. -/
def writableBits (n : Nat) : Option Word :=
  if 0x178 ≤ n ∧ n ≤ 0x17F then some (if n % 2 = 0 then 0xC0000000FFFFFFFF else BitVec.allOnes 64)
  else match n with
    | 0x110 => some 0x7
    | 0x112 => some 0xFFFFFFFF
    | 0x120 => some 0x01FFFFFFFFFFFFC0
    | 0x121 => some 0x3FFFFFFFF
    | 0x150 => some 0x0000FFFFFFFFF003
    | 0x151 => some 0x000000FFFFFF0003
    | 0x159 => some 0x07FF0001
    | 0x15A => some 0x01FFFFFFFFFFFFFF
    | 0x163 => some 0x1
    | 0x171 => some 0x07FF0000
    | 0x175 => some 0x01FFFFFFFFFFFFC0
    | 0x180 => some 0x01FFFFFFFFFFFFC0
    | 0x181 => some 0x000001FFFFFFFFFF
    | 0x188 => some 0x7
    | 0x189 => some 0x01FFFFFFFFFFFFC0
    | 0x18A => some 0x01FFFFFFFFFFFFC0
    | 0x18B => some 0x01FFFFFFFFFFFFC0
    | _ => none

/-! ## Events -/

/-- The kernel of the acting tile goes on at once: nothing comes before its next cycle, and no presentation holds it (R170, R346). -/
def State.kernelReady (s : State) : Prop :=
  s.me.priv.active = false ∧ s.me.clear = true ∧ s.me.checkerHeld = false

/-- The handler of the acting tile goes on at once (R338, R355). -/
def State.handlerReady (s : State) : Prop :=
  s.me.priv.active = true ∧ s.me.priv.parked = false ∧ s.me.priv.saving = none ∧ s.me.priv.rftDone = false

/-- The command queue of a tile holds nothing but transfers, and no released command waits for it. -/
def Tile.transfersOnly (t : Tile) : Prop :=
  (∀ a ∈ t.eng.queue, ∃ x, a.cmd.body = .xfer x) ∧ t.eng.released = []

/-- Bytes stand in a memory from an address on, and every other byte reads as before. -/
def storedAt (m m' : Store) (a : Nat) (bs : List Byte) : Prop :=
  ∀ y, readCell m'.bytes y = if a ≤ y ∧ y < a + bs.length then bs.getD (y - a) 0 else readCell m.bytes y

/-- The byte of the store to which byte `j` of a transfer over pages goes: pages in order, each with its place and length (R359). -/
def pageByte : List (Loc × Nat) → Nat → Option Nat
  | [], _ => none
  | (l, n) :: rest, j => if j < n then some (l.pa + j) else pageByte rest (j - n)

/-- The bytes of a memory from an address on, each with the poisoned word that it lies in, if one (R215): its unit and the word's address. -/
def bytesFrom (m : Store) (unit a n : Nat) : List (Byte × Option BadWord) :=
  (List.range n).map fun j => (readCell m.bytes (a + j),
    if m.poison.contains ((a + j) / 8) then some { unit := unit, place := (a + j) / 8 * 8 } else none)

/-- The tag of bytes that are read together: POISON of the first poisoned word among them (log 22). -/
def tagOfBytes (bs : List (Byte × Option BadWord)) : Tag :=
  match bs.findSome? Prod.snd with
  | some o => .poison o
  | none => .valid

/-- The element that bytes give (R273): a word of 8 bytes, or 32 lanes of 4, POISON where one of its bytes is. -/
def isElement (vector : Bool) (bs : List (Byte × Option BadWord)) : Elem → Prop
  | .scalar x => vector = false ∧ x.tag = tagOfBytes bs ∧
    x.v = if x.tag = .valid then BitVec.ofNat 64 (leNat (bs.map Prod.fst)) else 0
  | .vector x => vector = true ∧ ∀ l, l < 32 →
    let b := (bs.drop (4 * l)).take 4
    (vget x l).tag = tagOfBytes b ∧ (vget x l).v = if (vget x l).tag = .valid then BitVec.ofNat 32 (leNat (b.map Prod.fst)) else 0

/-- The byte that an element writes at an address when it is stored at `a` (R66): none where its word is VOID. -/
def elementByte (e : Elem) (a y : Nat) : Option Byte :=
  match e with
  | .scalar x => if x.tag = .valid ∧ a ≤ y ∧ y < a + 8 then some (BitVec.ofNat 8 (x.v.toNat / 2 ^ (8 * (y - a)))) else none
  | .vector x =>
    if (vget x ((y - a) / 4)).tag = .valid ∧ a ≤ y ∧ y < a + 128 then
      some (BitVec.ofNat 8 ((vget x ((y - a) / 4)).v.toNat / 2 ^ (8 * ((y - a) % 4)))) else none

/-- Whether a translation stays in a cache when xlinv or XL_SHOOT names `v` (R356, R391): bits 63:62 = 0 name the entry of the 64 KiB page in
bits 56:16, and 1 names every entry. -/
def staysCached (v : Word) (l : Leaf) : Prop :=
  v.toNat / 2 ^ 62 = 0 ∧ v.toNat / 2 ^ 16 % 2 ^ 41 * 2 ^ 16 / 2 ^ l.bits ≠ l.va / 2 ^ l.bits

/-- The word that a global atomic leaves, from the old word, B and D (12 Table 12.6). -/
def atomicWord (op : AtomicOp) (old b d : Word) : Nat :=
  match op with
  | .add => (old.toNat + b.toNat) % 2 ^ 64
  | .minS => if b.toInt < old.toInt then b.toNat else old.toNat
  | .minZ => min old.toNat b.toNat
  | .maxS => if old.toInt < b.toInt then b.toNat else old.toNat
  | .maxZ => max old.toNat b.toNat
  | .and => (old &&& b).toNat
  | .or => (old ||| b).toNat
  | .xor => (old ^^^ b).toNat
  | .xch => b.toNat
  | .cas => if old = d then b.toNat else old.toNat
  | .faddF32 => encodeFmt .f32 (roundFmt .f32 .rne false ((decodeFmt .f32 old.toNat).add (decodeFmt .f32 (b.toNat % 2 ^ 32))))
  | .faddBf16 => encodeFmt .bf16 (roundFmt .bf16 .rne false ((decodeFmt .bf16 old.toNat).add (decodeFmt .bf16 (b.toNat % 2 ^ 16))))

/-- The bits in which a window register without a side effect holds what is written (18 Table 18.3, 19 Table 19.6, 20 R432, 21 Table
21.3). -/
def windowBits (w : Window) (off : Nat) : Option Word :=
  match w with
  | .package =>
    if off < 0x20 * 12 then (if off % 0x20 = 0 then some 0x01FFFFFFFFFFFFC0 else if off % 0x20 = 8 then some 0xFFFFFF else none)
    else if 0x400 ≤ off ∧ off < 0x400 + 0x40 * 12 then
      (if off % 0x40 = 0 then some 0x01FFFFFFFFFFFFC0 else if off % 0x40 = 8 then some 0xFFFFFF else none)
    else if off = 0xC00 ∨ off = 0xC90 then some 0x1F
    else if off = 0xE00 then some 0x3FF
    else none
  | .partition _ =>
    if 0x100 ≤ off ∧ off < 0x900 then (if off % 0x20 = 0 then some 0x01FFFFFFFFFFFFC0 else none)
    else if off = 0x000 then some 0xB
    else if off = 0x008 then some 0x01FFFFFFFFFF0000
    else if off = 0x010 ∨ off = 0x10918 then some 0xFFFF
    else if off = 0x038 then some 0x07FF000F
    else if off = 0x10910 then some 0x01FFFFFFFFFFFFC0
    else none

/-! ## Frames -/

/-- A cause has taken the acting tile to its handler (R348): the shadow context starts at 64 × CAUSE with its registers as they were,
CTX_STATE is 0b01, and 6 clk have passed. -/
def State.entersHandler (s u : State) (cause : Nat) : Prop :=
  u.me.priv.active = true ∧ u.me.priv.ctxState = 0b01 ∧ u.me.priv.shadow.pos.addr = 64 * cause ∧ u.me.priv.shadow.pos.mode = .fresh ∧
  u.me.priv.shadow.n = s.me.priv.shadow.n ∧ u.me.margin.clks = s.me.margin.clks + 6

/-- Nothing of the package outside the acting tile changes but wall time and the source of free values. -/
def State.onlyTile (s t : State) : Prop :=
  t.cur = s.cur ∧ (∀ k : TileNo, k ≠ s.cur → t.tile k = s.tile k) ∧ t.mem = s.mem ∧ t.hostMem = s.hostMem ∧ t.parts = s.parts ∧
  t.dies = s.dies ∧ t.gallery = s.gallery ∧ t.boot = s.boot ∧ t.launches = s.launches ∧ t.signals = s.signals ∧ t.stopped = s.stopped

/-- The guard pair that an operation writes (08 Table 8.1, R183, R186, R187). -/
def writesPair (i : Instr) : Option Nat :=
  match i with
  | .addo f | .addc f | .subo f | .subc f => some f.j.toNat
  | .cmpS64 f | .cmpZ64 f => some f.pair.toNat
  | .gdand f | .gdor f | .gdxor f => some f.pair.toNat
  | _ => none

/-- Whether an operation pushes a vector, and its latency (07 Table 7.1); none where it pushes nothing. -/
def pushes (i : Instr) : Option (Bool × Nat) :=
  match i with
  | .mov _ | .add _ | .sub _ | .addo _ | .addc _ | .subo _ | .subc _ | .andOp _ | .orOp _ | .xorOp _ | .andn _ | .shl _ | .shrZ64 _
  | .shrS64 _ | .rotl _ | .rotr _ | .minS64 _ | .minZ64 _ | .maxS64 _ | .maxZ64 _ | .sel _ | .lea _ | .tagof _ | .dflt _ | .sxt _
  | .zxt _ => some (false, 1)
  | .clz _ | .ctz _ | .popc _ | .brev _ | .bswap _ | .bfextS64 _ | .bfextZ64 _ | .bfins _ | .rdctl _ | .xstat _ | .sread _ =>
    some (false, 2)
  | .mul _ | .clmul _ | .clmulh _ | .vext _ => some (false, 3)
  | .mulhS64 _ | .mulhZ64 _ | .ldS8 _ | .ldZ8 _ | .ldS16 _ | .ldZ16 _ | .ldS32 _ | .ldZ32 _ | .ldZ64 _ | .ladd _ | .lminS64 _
  | .lminZ64 _ | .lmaxS64 _ | .lmaxZ64 _ | .lxch _ | .lcas _ => some (false, 4)
  | .divS64 _ | .divZ64 _ | .remS64 _ | .remZ64 _ => some (false, 20)
  | .vmov _ | .vsel _ | .vand _ | .vor _ | .vxor _ | .vshl _ | .vshrZ32 _ | .vshrS32 _ | .vaddS32 _ | .vsubS32 _ | .vaddsS32 _
  | .vminS32 _ | .vminZ32 _ | .vmaxS32 _ | .vmaxZ32 _ | .vbcast _ | .vins _ | .vminF _ | .vmaxF _ => some (true, 2)
  | .vmulS32 _ | .vperm _ | .vcvt _ => some (true, 3)
  | .vaddF _ | .vsubF _ | .vmulF _ | .vrcpF32 _ | .vrsqF32 _ => some (true, 4)
  | .vld _ | .vlds _ | .vfma _ | .vfnma _ => some (true, 5)
  | .vldx _ | .vldr _ | .vitpF32 _ | .vitpBf16 _ | .vssum _ | .vsmin _ | .vsmax _ => some (true, 6)
  | .vsscan _ | .vsmean _ => some (true, 8)
  | .vsvar _ | .vssmx _ => some (true, 10)
  | _ => none

/-! ## Invariants -/

/-- g0 is true and VALID in a context (R61). -/
def Ctx.g0Fixed (c : Ctx) : Prop := vget c.g 0 = { val := true, void := false }

/-- m0 is all lanes true and VALID (R63). -/
def VecState.m0Fixed (v : VecState) : Prop := vget v.m 0 = { vals := BitVec.allOnes 32, voids := 0 }

/-- The constant guard and mask of a tile, in the contexts that issue, in the checkpoint of its segment and in the checker's copies. -/
def Tile.constantsFixed (t : Tile) : Prop :=
  t.k.g0Fixed ∧ t.vec.m0Fixed ∧ t.priv.shadow.g0Fixed ∧ (∀ c, t.seg.chk = some c → c.k.g0Fixed ∧ c.vec.m0Fixed) ∧
  ∀ c, t.checker = some c → c.1.g0Fixed ∧ c.2.m0Fixed

/-- The constant guard and mask hold at every tile of the package. -/
def State.constantsFixed (s : State) : Prop := ∀ t : TileNo, (s.tile t).constantsFixed

/-- Every memory of the package has its canonical form (log 5). -/
def State.memoryForm (s : State) : Prop := s.mem.wf = true ∧ s.hostMem.wf = true ∧ ∀ t : TileNo, (s.tile t).spad.wf = true

/-! ## A bundle of one word -/

/-- A header presents one slot and neither donates nor repeats (05 Tables 5.1 and 5.2). -/
def presentsOne (h : Header) (sl : Slot) : Prop :=
  h.slots = [sl] ∧ h.limm = 0 ∧ h.top = 0 ∧ h.rep = 0 ∧ h.scope.toNat ≤ 4 ∧ h.iterLvl ≠ 6 ∧ (h.iterLvl = 7 → h.iterCond = 0)

/-- The code at an address holds a bundle of one word that decodes to a well-formed operation, for which the state names slot and
header; the sticky operations of every other slot are empty (R69). -/
def State.oneWord (s : State) (a : Nat) (i : Instr) : Prop :=
  presentsOne s.curHdr s.curSlot ∧ s.curExt = none ∧ s.me.fetchable a = true ∧ Header.ofWord (s.me.headerAt a) = s.curHdr ∧
  decodeSlot s.curSlot.kind ((s.me.wordsAt a 1).getD 0 0) = .ok i ∧ i.wordFault false = none ∧
  ∀ sl : Slot, sl ≠ s.curSlot → vget s.me.ctx.sticky sl.idx = Sticky.nop

end Sys2Proof.Machine
end

