-- ==== Sys2Proof/Certificates/Slice0/Obligations.lean ====
section
/-! DEFINITION. The statements for the provers, in the order of the spec's chapters. Their vocabulary is `Sys2Proof/Safety.lean`'s. -/
section
open Sys2Proof Sys2Proof.Machine

/-! ## S slots (chapter 08) -/

/-- R177, R180, R181, R184, R185 (08): each operation of Table 8.1 and of R181, R184 and R185 with a result of two words pushes that result
after its latency and writes it to its destination; an operand that is not VALID makes the result carry the join of the tags. The shifts,
rotates and divisions have the major opcodes that R181 and R184 give them. -/
def Obligations.ScalarResults : Prop :=
  (∀ (s : State) (i : Instr) (r : Word), s.unhindered i → s.steady → s.on i → wordResult i (s.env i).a.v (s.env i).b.v = some r →
    ∃ t, exec i s = .next t ∧
      s.gives t i (wordLatency i) (if (s.env i).tags = .valid then validWord r else { v := 0, tag := (s.env i).tags })) ∧
  (∀ f : FormSA, majorOf (.shl f) = 0x17 ∧ majorOf (.shrZ64 f) = 0x18 ∧ majorOf (.shrS64 f) = 0x19 ∧ majorOf (.rotl f) = 0x1A ∧
    majorOf (.rotr f) = 0x1B ∧ majorOf (.divS64 f) = 0x0B ∧ majorOf (.divZ64 f) = 0x0C ∧ majorOf (.remS64 f) = 0x0D ∧
    majorOf (.remZ64 f) = 0x0E)

/-- R180, R185 (08): the operations on bits of one word, bfins and the carry-less products. -/
def Obligations.BitResults : Prop :=
  (∀ (s : State) (i : Instr), (∃ f, i = .clz f ∨ i = .ctz f ∨ i = .popc f ∨ i = .brev f ∨ i = .bswap f) → s.unhindered i → s.steady →
    s.on i → ∃ t r, exec i s = .next t ∧
      s.gives t i 2 (if (s.env i).tags = .valid then validWord r else { v := 0, tag := (s.env i).tags }) ∧ bitResult i (s.env i).a.v r) ∧
  (∀ (s : State) (f : FormSA), s.unhindered (.bfins f) → s.steady → s.on (.bfins f) →
    ∃ t r, exec (.bfins f) s = .next t ∧
      s.gives t (.bfins f) 2 (if (s.env (.bfins f)).tags = .valid then validWord r else { v := 0, tag := (s.env (.bfins f)).tags }) ∧
      let e := s.env (.bfins f)
      let pos := e.b.v.toNat % 64
      let w := min (e.b.v.toNat / 2 ^ 8 % 64 + 1) (64 - pos)
      ∀ k, k < 64 → r.getLsbD k = if pos ≤ k ∧ k < pos + w then e.a.v.getLsbD (k - pos) else e.d.v.getLsbD k) ∧
  (∀ (s : State) (i : Instr) (hi : Bool), (∃ f, i = if hi then .clmulh f else .clmul f) → s.unhindered i → s.steady → s.on i →
    ∃ t r, exec i s = .next t ∧
      s.gives t i 3 (if (s.env i).tags = .valid then validWord r else { v := 0, tag := (s.env i).tags }) ∧
      ∀ k, k < 64 → r.getLsbD k = carrylessBit (s.env i).a.v (s.env i).b.v (if hi then k + 64 else k))

/-- R62, R177, R183 (08): a carry or borrow operation pushes its result and writes the pair J; an operand or a chained guard that is
VOID pushes VOID and leaves the pair VOID; so does the operation that is off. A POISON operand is consumed, which O54 states. -/
def Obligations.CarryResults : Prop :=
  ∀ (s : State) (i : Instr) (f : FormSC) (chain sub : Bool),
    i = (if sub then (if chain then .subc f else .subo f) else (if chain then .addc f else .addo f)) →
    s.unhindered i → s.steady →
    let e := s.env i
    let c := vget s.me.ctx.g (2 * f.j.toNat)
    let cin : Int := if chain && c.val then 1 else 0
    let r : Int := if sub then (e.a.v.toNat : Int) - e.b.v.toNat - cin else (e.a.v.toNat : Int) + e.b.v.toNat + cin
    let void := e.tags = .void ∨ (chain = true ∧ c.void = true)
    (s.on i → e.tags.isPoison = false → ¬ void → ∃ t, exec i s = .next t ∧
      s.arrived t i f.d (validWord (BitVec.ofInt 64 r)) ∧
      s.guardsAre t f.j.toNat (guardPair (decide (r < 0 ∨ 2 ^ 64 ≤ r))).1 (guardPair (decide (r < 0 ∨ 2 ^ 64 ≤ r))).2) ∧
    (s.on i → e.tags.isPoison = false → void → ∃ t, exec i s = .next t ∧ s.arrived t i f.d zeroVoid ∧
      s.guardsAre t f.j.toNat { val := false, void := true } { val := false, void := true }) ∧
    (¬ s.on i → ∃ t, exec i s = .next t ∧ t.me.ctx.sq = pushWindow s.me.ctx.sq zeroVoid ∧
      t.me.ctx.n = (if f.d.toNat < 32 then vset s.me.ctx.n f.d.toNat zeroVoid else s.me.ctx.n) ∧
      s.guardsAre t f.j.toNat { val := false, void := true } { val := false, void := true })

/-- R62, R135, R186, R187 (08): a compare and a guard operation write the outcome to the even guard of the pair and its complement to
the odd one, both VOID where the operation is off or an operand is VOID; a guard operation pushes nothing and pops no stream. -/
def Obligations.GuardResults : Prop :=
  (∀ (s : State) (i : Instr) (f : FormSP) (signed : Bool), i = (if signed then .cmpS64 f else .cmpZ64 f) → s.unhindered i → s.steady →
    let e := s.env i
    let x : Int := if signed then e.a.v.toInt else e.a.v.toNat
    let y : Int := if signed then e.b.v.toInt else e.b.v.toNat
    let c := match f.cond.toNat with
      | 0 => decide (x = y) | 1 => decide (x ≠ y) | 2 => decide (x < y) | 3 => decide (x ≤ y) | 4 => decide (y < x) | _ => decide (y ≤ x)
    (s.on i → e.tags = .valid → ∃ t, exec i s = .next t ∧ s.guardsAre t f.pair.toNat (guardPair c).1 (guardPair c).2) ∧
    ((¬ s.on i ∨ e.tags = .void) → ∃ t, exec i s = .next t ∧
      s.guardsAre t f.pair.toNat { val := false, void := true } { val := false, void := true })) ∧
  (∀ (s : State) (i : Instr) (f : FormSL) (op : Bool → Bool → Bool),
    (i = .gdand f ∧ op = (fun x y => x && y)) ∨ (i = .gdor f ∧ op = (fun x y => x || y)) ∨ (i = .gdxor f ∧ op = (fun x y => x != y)) →
    s.unhindered i → s.steady →
    let x := vget s.me.ctx.g (f.ga.toNat % 16)
    let y := vget s.me.ctx.g (f.gb.toNat % 16)
    let r := op (x.val != f.ga.getLsbD 4) (y.val != f.gb.getLsbD 4)
    let quiet := fun (t : State) => t.me.ctx.sq = s.me.ctx.sq ∧ ∀ k, k < 8 → vget t.me.streams.regs k = vget s.me.streams.regs k
    (s.on i → x.void = false → y.void = false → ∃ t, exec i s = .next t ∧ quiet t ∧
      s.guardsAre t f.pair.toNat (guardPair r).1 (guardPair r).2) ∧
    ((¬ s.on i ∨ x.void = true ∨ y.void = true) → ∃ t, exec i s = .next t ∧ quiet t ∧
      s.guardsAre t f.pair.toNat { val := false, void := true } { val := false, void := true })) ∧
  (∀ f : FormSL, majorOf (.gdand f) = 0x28 ∧ majorOf (.gdor f) = 0x29 ∧ majorOf (.gdxor f) = 0x2A)

/-- R188 to R191 (08), R286 (12), R263 (11): sel, tagof, dflt, rdctl, sread and xstat push the value that their rule gives, with its tag. -/
def Obligations.ChoiceResults : Prop :=
  (∀ (s : State) (f : FormSC), s.unhindered (.sel f) → s.steady → s.on (.sel f) →
    let e := s.env (.sel f)
    let g := vget s.me.ctx.g (2 * f.j.toNat)
    ∃ t, exec (.sel f) s = .next t ∧
      s.gives t (.sel f) 1 (Scalar.norm (if g.void then zeroVoid else if g.val then e.a else e.b))) ∧
  (∀ (s : State) (f : FormSU), s.unhindered (.tagof f) → s.steady → s.on (.tagof f) →
    ∃ t, exec (.tagof f) s = .next t ∧
      s.gives t (.tagof f) 1 (validWord (match (s.env (.tagof f)).a.tag with | .valid => 0 | .void => 1 | .poison _ => 2))) ∧
  (∀ (s : State) (f : FormSA), s.unhindered (.dflt f) → s.steady → s.on (.dflt f) →
    let e := s.env (.dflt f)
    ∃ t, exec (.dflt f) s = .next t ∧
      s.gives t (.dflt f) 1 (Scalar.norm (match e.a.tag with | .valid => e.a | .poison o => { v := 0, tag := .poison o } | .void => e.b))) ∧
  (∀ (s : State) (f : FormSR), s.unhindered (.rdctl f) → s.steady → s.on (.rdctl f) →
    ∃ t, exec (.rdctl f) s = .next t ∧ s.gives t (.rdctl f) 2 (validWord (s.readCtl f.cr.toNat))) ∧
  (∀ (s : State) (f : FormSU), s.unhindered (.sread f) → s.steady → s.on (.sread f) →
    let a := (s.env (.sread f)).a
    ∃ t, exec (.sread f) s = .next t ∧
      s.gives t (.sread f) 2 (if a.tag = .valid then validWord ((vget s.me.sems.cnt (a.v.toNat % 64)).setWidth 64) else { v := 0, tag := a.tag })) ∧
  (∀ (s : State) (f : FormXS), s.unhindered (.xstat f) → s.steady → s.on (.xstat f) →
    ∃ t, exec (.xstat f) s = .next t ∧ s.gives t (.xstat f) 2 (validWord (s.me.mx.status s.me.ctx.cycle)))

/-! ## Slot C (chapters 09 and 17) -/

/-- R164, R166, R197 to R199 (07, 09): prep loads a target entry with the cycle of its issue; a taken br or call goes to the entry's target
with its bubble cycles, br leaving the levels of the frame whose bodies do not hold the target, call pushing the return entry; ret leaves every
level of the frame, pops the entry, and goes on after the call's bundle as that bundle's fall-through in the caller's frame would. -/
def Obligations.Transfers : Prop :=
  (∀ (s : State) (f : FormCBo), s.unhindered (.prepOffset f) → s.steady → s.on (.prepOffset f) →
    ∃ t, exec (.prepOffset f) s = .next t ∧ t.me.ctx.seq = { s.me.ctx.seq with
      targets := vset s.me.ctx.seq.targets f.e.toNat
        { addr := BitVec.ofInt 64 ((s.me.ctx.pos.addr : Int) + 4 * f.off.toInt), p := some s.me.ctx.cycle } }) ∧
  (∀ (s : State) (f : FormCBr), s.unhindered (.prepRegister f) → s.steady → s.on (.prepRegister f) →
    (s.env (.prepRegister f)).a.tag = .valid →
    ∃ t, exec (.prepRegister f) s = .next t ∧ t.me.ctx.seq = { s.me.ctx.seq with
      targets := vset s.me.ctx.seq.targets f.e.toNat { addr := (s.env (.prepRegister f)).a.v, p := some s.me.ctx.cycle } }) ∧
  (∀ (s : State) (f : FormCE), s.unhindered (.br f) → s.steady → s.on (.br f) →
    let q := s.me.ctx.seq
    let g := vget q.targets f.e.toNat
    ∃ t, exec (.br f) s = .next t ∧ t.me.ctx.pos.mode = .xfer ∧ t.me.ctx.pos.addr = g.addr.toNat ∧
      t.me.ctx.pos.waits = s.curHdr.wait.toNat ∧ t.me.ctx.pos.bubbles = s.bubbles g.p ∧
      t.me.ctx.seq = { q with loops :=
        (q.frame.filter fun l => decide (l.first ≤ g.addr.toNat ∧ g.addr.toNat ≤ l.last)) ++ q.loops.drop q.frame.length }) ∧
  (∀ (s : State) (f : FormCE), s.unhindered (.call f) → s.steady → s.on (.call f) →
    let q := s.me.ctx.seq
    let g := vget q.targets f.e.toNat
    ∃ t, exec (.call f) s = .next t ∧ t.me.ctx.pos.mode = .xfer ∧ t.me.ctx.pos.addr = g.addr.toNat ∧
      t.me.ctx.pos.waits = s.curHdr.wait.toNat ∧ t.me.ctx.pos.bubbles = s.bubbles g.p ∧
      t.me.ctx.seq = { q with rets := { addr := s.me.ctx.pos.addr, cycle := s.me.ctx.cycle } :: q.rets }) ∧
  (∀ (s : State) (f : FormGZ) (r : Return) (rest : List Return), s.unhindered (.ret f) → s.steady → s.on (.ret f) →
     s.me.ctx.seq.rets = r :: rest →
     let q := s.me.ctx.seq
     let q1 : Sequencer := { q with loops := q.loops.drop q.frame.length, rets := rest }
     let x := q1.fallThrough r.addr (r.addr + bundleLen s.me.code r.addr)
     ∃ t, exec (.ret f) s = .next t ∧
       match x.2 with
       | .ok n => t.me.ctx.seq = x.1 ∧ t.me.ctx.pos.mode = .xfer ∧ t.me.ctx.pos.addr = n ∧
           t.me.ctx.pos.waits = s.curHdr.wait.toNat ∧ t.me.ctx.pos.bubbles = s.bubbles (some r.cycle)
       | .error l => t.me.ctx.seq = q1 ∧ t.me.ctx.pos.mode = .cont ∧ t.me.ctx.pos.choice = .passed l r.cycle)

/-- R194, R200, R201 (09): loop with a count pushes a level whose body runs from the next bundle to the last address; with a count of 0 or
VOID, or off, it goes on after the last address; lbrk leaves the k-th level of the frame and those inside it. -/
def Obligations.Loops : Prop :=
  (∀ (s : State) (f : FormCL), s.unhindered (.loop f) → s.steady → s.on (.loop f) →
    let q := s.me.ctx.seq
    let e := s.env (.loop f)
    let n : Scalar := if f.k then validWord (s.readKernel s.cur (0x020 + f.cnt.toNat % 16)) else e.a
    let first := s.me.ctx.pos.addr + s.curHdr.len
    let last := first + 4 * f.last.toNat
    (n.tag = .valid → n.v ≠ 0 → ∃ t, exec (.loop f) s = .next t ∧
      t.me.ctx.seq = { q with loops := { first := first, last := last, n := n.v.toNat, x := 0, frame := q.rets.length } :: q.loops } ∧
      t.me.ctx.pos.mode = .cont ∧ t.me.ctx.pos.choice = .fall) ∧
    ((n.tag = .void ∨ (n.tag = .valid ∧ n.v = 0)) → ∃ t, exec (.loop f) s = .next t ∧
      t.me.ctx.seq = q ∧ t.me.ctx.pos.mode = .cont ∧ t.me.ctx.pos.choice = .after last)) ∧
  (∀ (s : State) (f : FormCL), s.unhindered (.loop f) → s.steady → ¬ s.on (.loop f) →
    ∃ t, exec (.loop f) s = .next t ∧ t.me.ctx.seq = s.me.ctx.seq ∧ t.me.ctx.pos.mode = .cont ∧
      t.me.ctx.pos.choice = .after (s.me.ctx.pos.addr + s.curHdr.len + 4 * f.last.toNat)) ∧
  (∀ (s : State) (f : FormCV) (lv : Loop), s.unhindered (.lbrk f) → s.steady → s.on (.lbrk f) →
    s.me.ctx.seq.frame[f.lvl.toNat]? = some lv →
    ∃ t, exec (.lbrk f) s = .next t ∧
      t.me.ctx.seq = { s.me.ctx.seq with loops := s.me.ctx.seq.loops.drop (f.lvl.toNat + 1) } ∧
      t.me.ctx.pos.mode = .cont ∧ t.me.ctx.pos.choice = .after lv.last)

/-- R203, R204 (09), R75 (02), R30, R34 (01): a semw whose count is there lowers the semaphore by its count at the end of the clock period and leaves the
others; a waitw whose time has come goes on; where the count or the time is not there the tile is frozen for the clock period, charged to the
first cause that holds in the order of R34, and neither its schedule cycle nor its position changes. -/
def Obligations.Waits : Prop :=
  (∀ (s : State) (i : Instr) (k : Nat) (n : Nat),
    (∃ f, i = .semwImmediate f ∧ k = f.sem.toNat ∧ n = f.n.toNat) ∨
      (∃ f, i = .semwRegister f ∧ k = f.sem.toNat ∧ n = (s.env i).b.v.toNat ∧ (s.env i).b.tag = .valid) →
    s.unhindered i → s.calm → s.on i → s.me.priv.active = false →
    ∃ t, exec i s = .next t ∧ t.me.k.cycle = s.me.k.cycle + 1 ∧
      ∀ j, j < 64 → vget t.me.sems.cnt j = if j = k then vget s.me.sems.cnt j - BitVec.ofNat 32 n else vget s.me.sems.cnt j) ∧
  (∀ (s : State) (f : FormCA), s.unhindered (.waitw f) → s.steady → s.on (.waitw f) →
    ∃ t, exec (.waitw f) s = .next t ∧ t.me.ctx.cycle = s.me.ctx.cycle + 1 ∧ t.me.ctx.pos.mode = .cont ∧ t.me.ctx.n = s.me.ctx.n) ∧
  (∀ (s : State) (i : Instr) (w : Wait), i.wordFault s.curExt.isSome = none → s.me.priv.active = false → boundCands s.me s.curHdr = [] →
    let c := checkAll (aloneBatch i (slotSem i) s) s
    c.cands = [] → w ∈ c.short → (∀ x ∈ c.short, w.cause ≤ x.cause) →
    ∃ t, exec i s = .next t ∧ t.me.k = s.me.k ∧ t.me.spad = s.me.spad ∧ t.me.streams = s.me.streams ∧ t.me.vec = s.me.vec ∧
      vget t.me.counters.freeze w.cause = vget s.me.counters.freeze w.cause + 1)

/-- R205 to R207, R169, R346 (09, 07, 17): step records a mark; trap and sys leave the after-issue causes 0x10 and 0x11, brk cause 0x12 or,
with debug armed, the debug stop; end makes this cycle the work item's last, and what is in flight is discarded. That the counters of a mark do not count
its own bundle is the model's reading (log 27). -/
def Obligations.MarksAndEnds : Prop :=
  (∀ (s : State) (f : FormCI), s.unhindered (.stepMark f) → s.calm → s.on (.stepMark f) → s.me.priv.active = false →
    ∃ t, exec (.stepMark f) s = .next t ∧ t.me.seg.marks = s.me.seg.marks ++
      [{ id := f.imm, addr := s.me.k.pos.addr, cycle := s.me.k.cycle, wall := s.wallAt s.me, counters := s.me.counters.list }]) ∧
  (∀ (s : State) (i : Instr) (f : FormCI) (c : Nat),
    (i = .trap f ∧ c = 0x10) ∨ (i = .sys f ∧ c = 0x11) ∨ (i = .brk f ∧ c = 0x12 ∧ s.me.priv.debugArmed = false) →
    s.unhindered i → s.steady → s.on i → s.me.priv.active = false →
    ∃ t, exec i s = .next t ∧ t.me.priv.after = s.me.priv.after ++
      [{ cause := c, sub := 0, slot := 2, value := f.imm.setWidth 64, addr := s.me.k.pos.addr, cycle := s.me.k.cycle }]) ∧
  (∀ (s : State) (f : FormCI), s.unhindered (.brk f) → s.steady → s.on (.brk f) → s.me.priv.active = false → s.me.priv.debugArmed = true →
    ∃ t, exec (.brk f) s = .next t ∧ t.me.dbg.brkCode = some f.imm.toNat ∧ t.me.priv.after = s.me.priv.after) ∧
  (∀ (s : State) (f : FormGZ), s.unhindered (.endItem f) → s.steady → s.on (.endItem f) → s.me.priv.active = false →
    ∃ t, exec (.endItem f) s = .next t ∧ t.me.k.infl = [] ∧ t.me.k.cycle = s.me.k.cycle ∧
      t.me.run = s.me.run.map fun (r : Run) => { r with sc := r.sc + 1, itemEnded := true })

/-- R208 to R211 (09), R424 (20): chkctl compares equal copies without an event; dblctl sets the doubles region; ctrap makes an event of
class 4 exactly where its operands differ, in their tags or as VALID values; commit asks for the segment to close at the end of its bundle. -/
def Obligations.ChecksAndCommits : Prop :=
  (∀ (s : State) (f : FormCK), s.unhindered (.chkctl f) → s.calm → s.on (.chkctl f) → s.me.priv.active = false → s.me.seg.mode ≠ .decide →
    ∃ t, exec (.chkctl f) s = .next t ∧ t.me.seg.pendEvents = s.me.seg.pendEvents ∧ t.me.k.cycle = s.me.k.cycle + 1) ∧
  (∀ (s : State) (f : FormCI), s.unhindered (.dblctl f) → s.calm → s.on (.dblctl f) → s.me.priv.active = false →
    ∃ t, exec (.dblctl f) s = .next t ∧ t.me.seg.doubles = f.imm) ∧
  (∀ (s : State) (f : FormGAB), s.unhindered (.ctrap f) → s.calm → s.on (.ctrap f) → s.me.priv.active = false → s.me.seg.mode ≠ .decide →
    let a := (s.env (.ctrap f)).a
    let b := (s.env (.ctrap f)).b
    ∃ t, exec (.ctrap f) s = .next t ∧
      ((a.tag.code = b.tag.code ∧ (a.tag = .valid → a.v = b.v)) → t.me.seg.pendEvents = s.me.seg.pendEvents) ∧
      ((a.tag.code ≠ b.tag.code ∨ (a.tag = .valid ∧ b.tag = .valid ∧ a.v ≠ b.v)) → ∃ ev, t.me.seg.pendEvents = s.me.seg.pendEvents ++ [ev] ∧
        ev.check = .doubles ∧ ev.addr = s.me.k.pos.addr ∧ ev.cycle = s.me.k.cycle ∧ ev.takenAfter = s.me.k.cycle)) ∧
  (∀ (s : State) (f : FormGZ), s.unhindered (.commit f) → s.calm → s.on (.commit f) → s.me.priv.active = false →
    ∃ t, exec (.commit f) s = .next t ∧ t.me.k.pos.closes = true ∧
      (s.curHdr.rep = 0 → s.curHdr.wait = 0 → t.me.seg.pendingEntry = true))

/-- R354, R402 (17, 19): in a handler wrctl writes a register, setctl sets and clrctl clears the bits that its operand has: a register of Tables
17.1, 19.5, 20.9 and 22.1 without a side effect then reads as the value written in its writable bits; 0b11 leaves WALK_MODE and MIG_MODE. -/
def Obligations.RegisterWrites : Prop :=
  ∀ (s : State) (i : Instr) (f : FormCX) (m : Word) (g : Word → Word → Word),
    (i = .wrctl f ∧ g = fun _ a => a) ∨ (i = .setctl f ∧ g = fun c a => c ||| a) ∨ (i = .clrctl f ∧ g = fun c a => c &&& ~~~a) →
    s.me.priv.active = true → s.unhindered i → s.steady → s.on i → (s.env i).a.tag = .valid → writableBits f.cr.toNat = some m →
    let old := s.readCtl f.cr.toNat
    let new := g old (s.env i).a.v
    let keeps := (f.cr = 0x150 ∨ f.cr = 0x151) ∧ new &&& 3 = 3
    ∃ t, exec i s = .next t ∧
      (¬ keeps → t.readCtl f.cr.toNat = new &&& m) ∧ (keeps → (s.part (s.partOf s.cur)).xl.root % 4 = 0 → t.readCtl f.cr.toNat = (new &&& m &&& ~~~3) ||| (old &&& 3))

/-- R348, R355 to R358 (17): rft in a handler over a kernel context, with no verdict standing and its run neither killed nor being restored, returns to the kernel
(CTX_STATE 0b00, the kernel's context as it was, its next cycle 4 clk after the handler's bundle); xlinv drops what it names from the tile's
translation caches; ctxsave keeps the shadow context waiting for the image; a well-formed image loads, CTX_STATE becoming 0b01; an ectl
transfer starts with the address and length of its action, where Table 17.8 allows it in the state (R359). -/
def Obligations.SystemOperations : Prop :=
  (∀ (s : State) (f : FormGZ), s.me.priv.active = true → s.unhindered (.rft f) → s.steady → s.on (.rft f) →
     s.me.priv.parked = false → s.me.priv.ctxState = 0b01 → s.me.seg.fatal = none → s.curHdr.rep = 0 → s.curHdr.wait = 0 →
     (∀ r, s.me.run = some r → r.killed = false ∧ ∀ t slot, s.rankPlace r ≠ some (.restoring t slot)) →
     ∃ t, exec (.rft f) s = .next t ∧ t.me.priv.active = false ∧ t.me.priv.ctxState = 0b00 ∧ t.me.k = s.me.k ∧ t.me.vec = s.me.vec ∧
       t.me.margin.clks = s.me.margin.clks + 5) ∧
  (∀ (s : State) (f : FormCA), s.me.priv.active = true → s.unhindered (.xlinv f) → s.steady → s.on (.xlinv f) →
    (s.env (.xlinv f)).a.tag = .valid → invalidation (s.env (.xlinv f)).a.v ≠ .bad →
    ∃ t, exec (.xlinv f) s = .next t ∧ t.me.priv.parked = s.me.priv.parked ∧
      t.me.xlat = s.me.xlat.invalidate (invalidation (s.env (.xlinv f)).a.v) ∧
      ∀ copy l, l ∈ t.me.xlat.cache copy ↔ l ∈ s.me.xlat.cache copy ∧ staysCached (s.env (.xlinv f)).a.v l) ∧
  (∀ (s : State) (f : FormCA), s.me.priv.active = true → s.unhindered (.ctxsave f) → s.steady → s.on (.ctxsave f) →
    (s.env (.ctxsave f)).a.tag = .valid → s.me.priv.ctxState = 0b01 →
    ∃ t, exec (.ctxsave f) s = .next t ∧ t.me.priv.saving = some (s.env (.ctxsave f)).a.v) ∧
  (∀ (s : State) (f : FormCA), s.me.priv.active = true → s.unhindered (.ctxload f) → s.steady → s.on (.ctxload f) →
    (s.env (.ctxload f)).a.tag = .valid → 2 ≤ s.me.priv.ctxState.toNat →
    let m := s.me.spad.read Config.saveBay 0xF000
    loadFault m (s.env (.ctxload f)).a.v = none →
    ∃ t, exec (.ctxload f) s = .next t ∧ t.me.priv.ctxState = 0b01 ∧ t.me.priv.parked = s.me.priv.parked ∧
      t.me.k.cycle = leNat ((m.drop 0x18).take 8) ∧
      (∀ j, j < 32 → (vget t.me.k.n j).v = BitVec.ofNat 64 (leNat ((m.drop (0x40 + 8 * j)).take 8))) ∧
      (∀ j, j < 64 → vget t.me.sems.cnt j = BitVec.ofNat 32 (leNat ((m.drop (0x3460 + 4 * j)).take 4)))) ∧
  (∀ (s : State) (i : Instr) (f : FormGAB) (minor len : Nat),
     (i = .ectlBayout f ∧ minor = 0 ∧ len = 0xF000) ∨ (i = .ectlBayin f ∧ minor = 1 ∧ len = 0xF000) ∨
       (i = .ectlSpout f ∧ minor = 2 ∧ len = (s.env i).b.v.toNat) ∨ (i = .ectlSpin f ∧ minor = 3 ∧ len = (s.env i).b.v.toNat) ∨
       (i = .ectlAccout f ∧ minor = 4 ∧ len = 0x40000) ∨ (i = .ectlAccin f ∧ minor = 5 ∧ len = 0x40000) →
     s.me.priv.active = true → s.unhindered i → s.steady → s.on i → (s.env i).joined = .valid →
     ∃ t, exec i s = .next t ∧ (s.me.priv.ctxState = 0b10 ∨ (minor ≠ 0 ∧ s.me.priv.ctxState = 0b11)) ∧
       t.me.priv.ectl = s.me.priv.ectl ++
         [{ minor := minor, va := (s.env i).a.v.toNat % 2 ^ 57, len := len, moved := 0, addr := s.me.ctx.pos.addr,
            cycle := s.me.ctx.cycle, fault := none }])

/-! ## Slots M (chapters 04 and 10) -/

/-- R213, R215, R219 (10): a scalar load pushes the bytes at its address, aligned down to their size, extended as the operation says, POISON
where a word that it reads is poisoned, and the address's tag where that is not VALID. The word from which a POISON value arose, which the statements
name with it, is the model's (log 22). -/
def Obligations.ScalarLoads : Prop :=
  ∀ (s : State) (i : Instr) (z : Nat) (signed : Bool), loadShape i = some (z, signed) → s.unhindered i → s.calm → s.on i →
    let e := s.env i
    let a := e.address.v.toNat - e.address.v.toNat % z
    let n := leNat ((List.range z).map fun k => readCell s.me.spad.bytes (a + k))
    ∃ t, exec i s = .next t ∧ t.me.spad = s.me.spad ∧
      s.gives t i 4 (if e.address.tag ≠ .valid then { v := 0, tag := e.address.tag }
        else if (List.range z).any (fun k => s.me.spad.poison.contains ((a + k) / 8)) then
          { v := 0, tag := .poison { unit := 4, place := a / 8 * 8 } }
        else validWord (if signed then BitVec.ofInt 64 (if 2 ^ (8 * z - 1) ≤ n then (n : Int) - 2 ^ (8 * z) else n) else BitVec.ofNat 64 n))

/-- R160, R213, R215, R219 (07, 10): a scalar store writes the low bytes of D, least significant first, at its address aligned down to their size,
at the end of its cycle, and no other byte; one of 8 bytes clears the POISON of its word, and a shorter one leaves it; a VOID address or datum stores
nothing. -/
def Obligations.ScalarStores : Prop :=
  ∀ (s : State) (i : Instr) (z : Nat), storeShape i = some z → s.me.spad.wf = true → s.unhindered i → s.calm → s.on i →
    let e := s.env i
    let a := e.address.v.toNat - e.address.v.toNat % z
    (e.address.tag = .valid → e.d.tag = .valid → ∃ t, exec i s = .next t ∧
      ∀ x, readCell t.me.spad.bytes x =
        if a ≤ x ∧ x < a + z then BitVec.ofNat 8 (e.d.v.toNat / 2 ^ (8 * (x - a))) else readCell s.me.spad.bytes x) ∧
    (e.address.tag = .valid → e.d.tag = .valid → ∃ t, exec i s = .next t ∧
      ∀ w, w ∈ t.me.spad.poison ↔ w ∈ s.me.spad.poison ∧ ¬ (z = 8 ∧ w = a / 8)) ∧
    ((e.address.tag = .void ∨ (e.address.tag = .valid ∧ e.d.tag = .void)) → ∃ t, exec i s = .next t ∧ t.me.spad = s.me.spad)

/-- R215, R220 (10): a vector load reads 32 words at the addresses of its form, a lane whose address is not VALID carrying its tag; a vector
store writes the lanes whose address and datum are VALID and no other byte, where no two lanes overlap, and clears the POISON of the words of which it
writes all 8 bytes and of no other. The word from which a POISON lane arose is the model's (log 22). -/
def Obligations.VectorMemory : Prop :=
  (∀ (s : State) (i : Instr) (lat : Nat) (at_ : Nat → Nat × Tag), vectorLoadShape s i = some (lat, at_) →
    s.unhindered i → s.calm → s.on i →
    ∃ t x, exec i s = .next t ∧ t.me.spad = s.me.spad ∧ s.givesVector t i lat x ∧
      ∀ l, l < 32 → vget x l =
        if (at_ l).2 ≠ .valid then { v := 0, tag := (at_ l).2 }
        else if (List.range 4).any (fun k => s.me.spad.poison.contains (((at_ l).1 + k) / 8)) then
          { v := 0, tag := .poison { unit := 4, place := (at_ l).1 / 8 * 8 } }
        else { v := BitVec.ofNat 32 (leNat ((List.range 4).map fun k => readCell s.me.spad.bytes ((at_ l).1 + k))), tag := .valid }) ∧
  (∀ (s : State) (i : Instr) (at_ : Nat → Nat × Tag), vectorStoreShape s i = some at_ → s.me.spad.wf = true → s.unhindered i → s.calm → s.on i →
    let d := fun l => (s.env i).lane .D l
    (∀ l, l < 32 → (at_ l).2.isPoison = false ∧ ((at_ l).2 = .valid → (d l).tag.isPoison = false)) →
    (∀ l m, l < m → m < 32 → (at_ l).1 + 4 ≤ (at_ m).1 ∨ (at_ m).1 + 4 ≤ (at_ l).1) →
    ∃ t, exec i s = .next t ∧
      (∀ l k, l < 32 → k < 4 → (at_ l).2 = .valid → (d l).tag = .valid →
        readCell t.me.spad.bytes ((at_ l).1 + k) = BitVec.ofNat 8 ((d l).v.toNat / 2 ^ (8 * k))) ∧
      (∀ x, (∀ l, l < 32 → (at_ l).2 = .valid → (d l).tag = .valid → x < (at_ l).1 ∨ (at_ l).1 + 4 ≤ x) →
        readCell t.me.spad.bytes x = readCell s.me.spad.bytes x) ∧
      ∀ w, w ∈ t.me.spad.poison ↔ w ∈ s.me.spad.poison ∧ ¬ ∀ j, j < 8 → ∃ l, l < 32 ∧ (at_ l).2 = .valid ∧ (d l).tag = .valid ∧
        (at_ l).1 ≤ 8 * w + j ∧ 8 * w + j < (at_ l).1 + 4)

/-- R223 (10): a local atomic pushes the word at its address, aligned down to 8 bytes, as it was, and leaves there the word of its
operation, every other byte unchanged. -/
def Obligations.LocalAtomics : Prop :=
  ∀ (s : State) (i : Instr) (new : Word → Word → Word → Word), localAtomic i = some new → s.me.spad.wf = true → s.unhindered i → s.calm → s.on i →
    let e := s.env i
    let a := e.a.v.toNat - e.a.v.toNat % 8
    let old := BitVec.ofNat 64 (leNat ((List.range 8).map fun k => readCell s.me.spad.bytes (a + k)))
    e.tags = .valid → (a / 8) ∉ s.me.spad.poison →
    ∃ t, exec i s = .next t ∧ s.gives t i 4 (validWord old) ∧
      ∀ x, readCell t.me.spad.bytes x =
        if a ≤ x ∧ x < a + 8 then BitVec.ofNat 8 ((new old e.b.v e.d.v).toNat / 2 ^ (8 * (x - a))) else readCell s.me.spad.bytes x

/-- R105 to R109 (04), R221 (10): hbind puts the snapshot of the record at A in flight for 40 sc; hunbind leaves its register unbound from the next
cycle on; vldr pushes the elements of the segment from the offset in B on, one to a lane, extended to the lane as their format says, and VOID in
the lanes outside the segment. -/
def Obligations.ShapeOperations : Prop :=
  (∀ (s : State) (f : FormHA), s.unhindered (.hbind f) → s.steady → s.on (.hbind f) → s.me.priv.active = false →
    let a := (s.env (.hbind f)).a
    let n := s.me.spad.readLe (a.v.toNat + 4) 4 % 1024
    a.tag = .valid → s.me.spad.anyPoison a.v.toNat (8 + 4 * n) = false →
    ∃ t, exec (.hbind f) s = .next t ∧ t.me.shapes = s.me.shapes ∧
      s.inFlight t (.hbind f) 40 63 (.bind f.h.toNat
        { fmt := s.me.spad.readLe a.v.toNat 4 % 16, rowLen := s.me.spad.readLe a.v.toNat 4 / 256,
          ends := (List.range n).map fun k => s.me.spad.readLe (a.v.toNat + 8 + 4 * k) 4 })) ∧
  (∀ (s : State) (f : FormH0), s.unhindered (.hunbind f) → s.steady → s.on (.hunbind f) → s.me.priv.active = false →
    ∃ t, exec (.hunbind f) s = .next t ∧ ∀ k, k < 8 → vget t.me.shapes k = if k = f.h.toNat then none else vget s.me.shapes k) ∧
  (∀ (s : State) (f : FormHDAB) (sh : Shape) (w : Nat), s.unhindered (.vldr f) → s.steady → s.on (.vldr f) →
     vget s.me.shapes f.h.toNat = some sh → w = fmtWidth sh.fmt →
     let e := s.env (.vldr f)
     let i := e.b.v.toNat % 2 ^ 32
     let off := e.b.v.toNat / 2 ^ 32
     let start := if i = 0 then 0 else sh.ends.getD (i - 1) 0
     let count := (sh.ends.getD i 0 - start) * sh.rowLen
     let bit := fun l => 8 * e.a.v.toNat + w * (start * sh.rowLen + off + l)
     e.a.tag = .valid → e.b.tag = .valid →
     ∃ t x, exec (.vldr f) s = .next t ∧ s.givesVector t (.vldr f) 6 x ∧ ∀ l, l < 32 →
       (count ≤ off + l → vget x l = { v := 0, tag := .void }) ∧
       (off + l < count →
         let n := (bit l + w - 1) / 8 - bit l / 8 + 1
         let c := leNat ((List.range n).map fun k => readCell s.me.spad.bytes (bit l / 8 + k)) / 2 ^ (bit l % 8) % 2 ^ w
         vget x l = if (List.range n).any (fun k => s.me.spad.poison.contains ((bit l / 8 + k) / 8)) then
             { v := 0, tag := tagOfBytes (bytesFrom s.me.spad 4 (bit l / 8) n) }
           else { v := placeElem ((elemFmt sh.fmt).getD (.zint 8)) c, tag := .valid }))

/-! ## Slots V (chapter 10) -/

/-- R224, R226, R230 (10): a lane operation pushes a vector whose lanes are VOID where the mask turns them off, carry the join of their
operands' tags where that is not VALID, and hold their operation's result elsewhere. -/
def Obligations.LaneResults : Prop :=
  ∀ (s : State) (i : Instr) (m : BitVec 3) (lat : Nat) (srcs : List Role) (f : LaneBits → LaneBits → LaneBits → LaneBits),
    laneResult i = some (lat, srcs, f) → i.mask = some m → s.unhindered i → s.steady → s.on i →
    let e := s.env i
    let k := vget s.me.vec.m m.toNat
    ∃ t x, exec i s = .next t ∧ s.givesVector t i lat x ∧ ∀ l, l < 32 →
      let tg := tagJoin (srcs.map fun r => (e.lane r l).tag)
      vget x l = if k.vals.getLsbD l = false ∨ k.voids.getLsbD l = true then { v := 0, tag := .void }
        else if tg = .valid then { v := f (e.lane .A l).v (e.lane .B l).v (e.lane .D l).v, tag := .valid }
        else { v := 0, tag := tg }

/-- R63, R231 (02, 10): a vector compare puts in flight, for the end of the next cycle, the lanes whose outcome is true and the lanes that
are off or VOID, which become VOID in both masks of the pair; O31 states their arrival. A POISON on lane is consumed (O54). -/
def Obligations.MaskResults : Prop :=
  ∀ (s : State) (i : Instr) (m : BitVec 3) (j : Nat) (c : LaneBits → LaneBits → Bool),
    (∃ f, i = .vcmpS32 f ∧ m = f.m ∧ j = f.j.toNat ∧ c = (fun a b => condHolds f.cond.toNat (compare a.toInt b.toInt))) ∨
      (∃ f, i = .vcmpZ32 f ∧ m = f.m ∧ j = f.j.toNat ∧ c = (fun a b => condHolds f.cond.toNat (compare a.toNat b.toNat))) ∨
      (∃ f, i = .vcmpF f ∧ m = f.m ∧ j = f.j.toNat ∧
        c = (fun a b => extCompare f.cond.toNat (laneValue (.flt (fltOf f.t)) a) (laneValue (.flt (fltOf f.t)) b))) →
    s.unhindered i → s.steady → s.on i →
    let e := s.env i
    let k := vget s.me.vec.m m.toNat
    let tg := fun l => (e.lane .A l).tag.join (e.lane .B l).tag
    (∀ l, l < 32 → k.vals.getLsbD l = true → k.voids.getLsbD l = false → (tg l).isPoison = false) →
    ∃ t vals voids, exec i s = .next t ∧ s.inFlight t i 2 63 (.masks j vals voids) ∧ ∀ l, l < 32 →
      let valid := k.vals.getLsbD l = true ∧ k.voids.getLsbD l = false ∧ tg l = .valid
      vals.getLsbD l = (decide valid && c (e.lane .A l).v (e.lane .B l).v) ∧ voids.getLsbD l = !decide valid

/-- R227 to R229, R234 (10): vsel, vperm, vbcast, vext and vins move lanes and bytes as their rules say; vchk leaves no event where the on
lanes of its operands agree, in their tags and as VALID values, and otherwise one of class 4, taken after cycle t + 1, that names the lanes which
differ. That the doubles region is that in force as the comparison is made is the model's (log 103). -/
def Obligations.LaneMoves : Prop :=
  (∀ (s : State) (f : FormVA), s.unhindered (.vsel f) → s.steady → s.on (.vsel f) →
    let e := s.env (.vsel f)
    let k := vget s.me.vec.m f.m.toNat
    ∃ t x, exec (.vsel f) s = .next t ∧ s.givesVector t (.vsel f) 2 x ∧ ∀ l, l < 32 →
      let y := if k.vals.getLsbD l then e.lane .A l else e.lane .B l
      vget x l = if k.voids.getLsbD l = true ∨ y.tag = .void then { v := 0, tag := .void } else y) ∧
  (∀ (s : State) (f : FormVA), s.unhindered (.vperm f) → s.steady → s.on (.vperm f) →
    let e := s.env (.vperm f)
    let k := vget s.me.vec.m f.m.toNat
    (∀ l, l < 32 → (e.lane .A l).tag = .valid ∧ (e.lane .B l).tag = .valid ∧ k.vals.getLsbD l = true ∧ k.voids.getLsbD l = false) →
    ∃ t x, exec (.vperm f) s = .next t ∧ s.givesVector t (.vperm f) 3 x ∧ ∀ l j, l < 32 → j < 4 →
      let n := (e.lane .B l).v.toNat / 2 ^ (8 * j) % 256
      (vget x l).tag = .valid ∧
      (vget x l).v.toNat / 2 ^ (8 * j) % 256 = if n < 128 then (e.lane .A (n / 4)).v.toNat / 2 ^ (8 * (n % 4)) % 256 else 0) ∧
  (∀ (s : State) (f : FormVA), s.unhindered (.vbcast f) → s.steady → s.on (.vbcast f) →
    let e := s.env (.vbcast f)
    let k := vget s.me.vec.m f.m.toNat
    let n := (e.lane .B 0).v.toNat % 32
    (e.lane .A n).tag = .valid → (e.lane .B 0).tag = .valid →
    ∃ t x, exec (.vbcast f) s = .next t ∧ s.givesVector t (.vbcast f) 2 x ∧ ∀ l, l < 32 →
      vget x l = if k.vals.getLsbD l = true ∧ k.voids.getLsbD l = false then e.lane .A n else { v := 0, tag := .void }) ∧
  (∀ (s : State) (f : FormVA), s.unhindered (.vext f) → s.steady → s.on (.vext f) →
    let e := s.env (.vext f)
    let k := vget s.me.vec.m f.m.toNat
    let n := e.b.v.toNat % 32
    (e.lane .A n).tag = .valid → e.b.tag = .valid →
    ∃ t, exec (.vext f) s = .next t ∧ s.gives t (.vext f) 3
      (if k.vals.getLsbD n = true ∧ k.voids.getLsbD n = false then validWord ((e.lane .A n).v.setWidth 64) else zeroVoid)) ∧
  (∀ (s : State) (f : FormVA), s.unhindered (.vins f) → s.steady → s.on (.vins f) →
    let e := s.env (.vins f)
    let k := vget s.me.vec.m f.m.toNat
    e.a.tag = .valid → e.b.tag = .valid →
    ∃ t x, exec (.vins f) s = .next t ∧ s.givesVector t (.vins f) 2 x ∧ ∀ l, l < 32 → k.vals.getLsbD l = true → k.voids.getLsbD l = false →
      (l = e.b.v.toNat % 32 → vget x l = { v := e.a.v.setWidth 32, tag := .valid }) ∧
      (l ≠ e.b.v.toNat % 32 → (e.lane .D l).tag = .valid → vget x l = e.lane .D l)) ∧
  (∀ (s : State) (f : FormVK), s.unhindered (.vchk f) → s.calm → s.on (.vchk f) → s.me.seg.mode ≠ .decide →
    let e := s.env (.vchk f)
    let k := vget s.me.vec.m f.m.toNat
    let differs := fun l => k.vals.getLsbD l = true ∧ k.voids.getLsbD l = false ∧ ((e.lane .A l).tag.code ≠ (e.lane .B l).tag.code ∨
      ((e.lane .A l).tag = .valid ∧ (e.lane .B l).tag = .valid ∧ (e.lane .A l).v ≠ (e.lane .B l).v))
    ((∀ l, l < 32 → ¬ differs l) →
      ∃ t, exec (.vchk f) s = .next t ∧ t.me.seg.pendEvents = s.me.seg.pendEvents ∧ t.me.ctx.cycle = s.me.ctx.cycle + 1) ∧
    ((∃ l, l < 32 ∧ differs l) → s.me.priv.active = false →
      ∃ t ev, exec (.vchk f) s = .next t ∧ t.me.seg.pendEvents = s.me.seg.pendEvents ++ [ev] ∧ ev.check = .doubles ∧
        ev.addr = s.me.k.pos.addr ∧ ev.cycle = s.me.k.cycle ∧ ev.takenAfter = s.me.k.cycle + 1 ∧ ev.slot = s.curSlot.idx ∧
        ev.doubles = s.me.seg.doubles ∧ ∀ l, l ∈ ev.locs ↔ l < 32 ∧ differs l)) ∧
  (∀ f : FormVA, majorOf (.vsel f) = 0x02)

/-- R232 (10), R94, R137, R57: vcvt completes for every pair, mode and SAT: it converts each on lane whose tag is VALID and places the code
in its lane, keeps the tag of another, and gives VOID in the lanes that are off; where it is off itself it pushes a VOID vector; a pair of 26
to 31 fails its word check. -/
def Obligations.Conversions : Prop :=
  (∀ (s : State) (f : FormVT), s.unhindered (.vcvt f) → s.steady → s.on (.vcvt f) →
    let e := s.env (.vcvt f)
    let k := vget s.me.vec.m f.m.toNat
    let p := cvtPair f.pair.toNat
    ∃ t x, exec (.vcvt f) s = .next t ∧ s.givesVector t (.vcvt f) 3 x ∧ t.me.ctx.cycle = s.me.ctx.cycle + 1 ∧ ∀ l, l < 32 →
      vget x l =
        if k.vals.getLsbD l = false ∨ k.voids.getLsbD l = true then { v := 0, tag := .void }
        else if (e.lane .A l).tag ≠ .valid then { v := 0, tag := (e.lane .A l).tag }
        else { v := placeElem p.1 (convertElem p.1 p.2 (RMode.ofCode f.r.toNat) (f.sat && !cvtWidens f.pair.toNat)
                 ((e.lane .A l).v.toNat % 2 ^ p.2.width)), tag := .valid }) ∧
  (∀ (s : State) (f : FormVT), s.unhindered (.vcvt f) → s.steady → ¬ s.on (.vcvt f) →
    ∃ t, exec (.vcvt f) s = .next t ∧ t.me.ctx.cycle = s.me.ctx.cycle + 1 ∧
      ∃ e ∈ t.me.ctx.infl, e.slot = s.curSlot ∧ e.last = s.me.ctx.cycle + 2 ∧ e.res = .vector vvoid f.d) ∧
  (∀ (f : FormVT) (ext : Bool), 26 ≤ f.pair.toNat → ∃ n, n ≤ 0xA ∧ (Instr.vcvt f).wordFault ext = some n)

/-- R235 to R237 (10): vitp gives each on lane with a VALID input the value of its entry, and of its slope times the fraction, of the table that
the descriptor at B names, where the descriptor lies below SCRATCH_BYTES and holds no POISON; where it does not lie wholly below
SCRATCH_BYTES every lane is VOID. -/
def Obligations.Interpolation : Prop :=
  ∀ (s : State) (i : Instr) (f : FormVA) (fm : Fmt), (i = .vitpF32 f ∧ fm = .f32) ∨ (i = .vitpBf16 f ∧ fm = .bf16) →
    s.unhindered i → s.steady → s.on i →
    let e := s.env i
    let k := vget s.me.vec.m f.m.toNat
    let b := e.b.v.toNat / 16 * 16
    (e.b.tag = .valid → s.me.img.scratch < b + 16 →
      ∃ t x, exec i s = .next t ∧ s.givesVector t i 6 x ∧ ∀ l, l < 32 → vget x l = { v := 0, tag := .void }) ∧
    (e.b.tag = .valid → b + 16 ≤ s.me.img.scratch → s.me.spad.anyPoison b 16 = false →
    ∃ t x, exec i s = .next t ∧ s.givesVector t i 6 x ∧ ∀ l, l < 32 →
      (k.vals.getLsbD l = false ∨ k.voids.getLsbD l = true → vget x l = { v := 0, tag := .void }) ∧
      (k.vals.getLsbD l = true → k.voids.getLsbD l = false → (e.lane .A l).tag ≠ .valid → vget x l = { v := 0, tag := (e.lane .A l).tag }) ∧
      (k.vals.getLsbD l = true → k.voids.getLsbD l = false → (e.lane .A l).tag = .valid →
        ∀ j fr, vitpIndex (laneValue (.flt fm) (e.lane .A l).v) (decodeFmt .f32 (s.me.spad.readLe b 4)) (sextN (s.me.spad.readLe (b + 4) 4) 8)
            (s.me.spad.readLe (b + 4) 4 / 2 ^ 16 % 4096) ((s.me.spad.readLe (b + 4) 4).testBit 28) ((s.me.spad.readLe (b + 4) 4).testBit 29)
              = some (j, fr) →
          (laneValue (.flt fm) (e.lane .A l).v).isNan = false → (decodeFmt .f32 (s.me.spad.readLe b 4)).isNan = false →
          let a := s.me.spad.readLe (b + 8) 4 / 8 * 8 + 8 * j
          a + 8 ≤ s.me.img.scratch → s.me.spad.anyPoison a 8 = false →
          let y := decodeFmt .f32 (s.me.spad.readLe a 4)
          vget x l = { v := rneLane fm (if fr.isZero then y else y.add ((decodeFmt .f32 (s.me.spad.readLe (a + 4) 4)).mul fr)), tag := .valid }))

/-- R238 to R241 (10): a segmented operation works on the lanes of the segment that its shape and B give: where these hold elements and
their tags are VALID, a reduction gives its one value in every lane, vsscan the running sums, vssmx each element less the greatest. The
variance of one element that is infinite or NaN is +0 or NaN, which stays open (log 81). -/
def Obligations.SegmentedResults : Prop :=
  ∀ (s : State) (i : Instr) (f : FormHDAB) (lat : Nat) (sh : Shape) (g : ElemFmt → List Ext → Nat → Option LaneBits),
    segmentedResult i = some (f, lat, g) → s.unhindered i → s.steady → s.on i → vget s.me.shapes f.h.toNat = some sh →
    let e := s.env i
    let k := e.b.v.toNat % 2 ^ 32
    let off := e.b.v.toNat / 2 ^ 32
    let start := if k = 0 then 0 else sh.ends.getD (k - 1) 0
    let n := min 32 ((sh.ends.getD k 0 - start) * sh.rowLen - off)
    let ef := (elemFmt sh.fmt).getD (.zint 8)
    e.b.tag = .valid → 0 < n → (∀ l, l < n → (e.lane .A l).tag = .valid) →
    ∃ t x, exec i s = .next t ∧ s.givesVector t i lat x ∧ ∀ l, l < 32 →
      vget x l = match g ef ((List.range n).map fun l => laneValue ef (e.lane .A l).v) l with
        | some v => { v := v, tag := .valid }
        | none => { v := 0, tag := .void }

/-! ## Slot X (chapter 11) -/

/-- R161, R245 to R247 (07, 11): a configuration write replaces its field and leaves the rest of the table; xbmp 2 turns the sparse mode
off, xsrc and xsdiag set the source and the segment-diagonal mode. -/
def Obligations.ConfigurationWrites : Prop :=
  ∀ (s : State) (i : Instr) (new : MxCfg), configured i s.me.mx.cfg (s.env i).a.v.toNat = some new →
    s.unhindered i → s.steady → s.on i → ((s.sole i).sources = [] ∨ (s.env i).a.tag = .valid) →
    ∃ t, exec i s = .next t ∧ t.me.mx.cfg = new

/-- R242, R249, R253, R260, R261, R264 (11): with the queue empty, a matrix command becomes its one entry and an engine command within the checker lag
(R170), and a dense command starts 6 sc after its issue, or when the engine's marks allow it. An xwait with
nothing left to wait for issues and records the leg of its station (R262, R315). -/
def Obligations.MatrixCommands : Prop :=
  (∀ (s : State) (f : FormXA), s.unhindered (.xzero f) → s.calm → s.on (.xzero f) → (s.env (.xzero f)).a.tag = .valid →
    let start := max (s.me.k.cycle + 6) s.me.mx.i
    ∃ t x, exec (.xzero f) s = .next t ∧ s.issuesCommand t (.matrix s.me.mx.next) ∧ t.me.mx.queue = [x] ∧ x.op = .zero (s.env (.xzero f)).a.v.toNat ∧ x.issue = s.me.k.cycle ∧
      x.start = start ∧ t.me.mx.fb = start + 1 ∧ t.me.mx.i = start + 1 ∧ t.me.mx.acc = s.me.mx.acc) ∧
  (∀ (s : State) (f : FormGAB), s.unhindered (.xdrain f) → s.calm → s.on (.xdrain f) → (s.env (.xdrain f)).a.tag = .valid →
    (s.env (.xdrain f)).b.tag = .valid →
    let start := max (s.me.k.cycle + 6) s.me.mx.i
    let d := (s.env (.xdrain f)).b.v.toNat
    let rows := d / 2 ^ 10 % 64
    ∃ t x, exec (.xdrain f) s = .next t ∧ s.issuesCommand t (.matrix s.me.mx.next) ∧ t.me.mx.queue = [x] ∧
      x.op = .drain (s.env (.xdrain f)).a.v.toNat (d % 16) (d / 16 % 16) rows (d / 2 ^ 16 % 2 ^ 24) (d.testBit 8) ∧
      x.start = start ∧ t.me.mx.fb = start + rows + 4 ∧ t.me.mx.i = start + rows + 4 ∧ t.me.mx.acc = s.me.mx.acc) ∧
  (∀ (s : State) (f : FormXF), s.unhindered (.xgo f) → s.calm → s.on (.xgo f) → s.me.mx.cfg.steps ≠ 0 →
    let c := s.me.mx.cfg
    let start := max (s.me.k.cycle + 6) s.me.mx.fb
    ∃ t x, exec (.xgo f) s = .next t ∧ s.issuesCommand t (.matrix s.me.mx.next) ∧ t.me.mx.queue = [x] ∧
      x.op = .go c (c.sdiag.bind fun h => vget s.me.shapes h) (if f.f = 1 then some f.sel.toNat else none) (s.me.mx.shadowNext % c.rows) ∧
      x.sparse = c.sparse ∧ t.me.mx.shadowNext = (s.me.mx.shadowNext + 1) % 64 ∧ t.me.mx.acc = s.me.mx.acc ∧
      (c.sparse = false → x.start = start ∧ t.me.mx.fb = start + 64 * c.steps ∧ t.me.mx.i = start + 64 * c.steps + c.rows + 8)) ∧
  (∀ (s : State) (f : FormGZ), s.unhindered (.xwait f) → s.calm → s.on (.xwait f) →
     ∃ t, exec (.xwait f) s = .next t ∧ t.me.k.cycle = s.me.k.cycle + 1 ∧ ∃ g ∈ t.me.seg.legs,
       g.kind = 2 ∧ g.cycle = s.me.k.cycle ∧ g.addr = s.me.k.pos.addr ∧ g.waitClk = s.me.survey.waits.semClk)

/-! ## Slot Q (chapter 12) -/

/-- R272 to R275 (12): sbind binds its register to the pattern at A from the next cycle on, sunbind unbinds it, gpush appends its
index to the queue of its stream; each issues its command. -/
def Obligations.StreamCommands : Prop :=
  (∀ (s : State) (f : FormHA), s.unhindered (.sbind f) → s.calm → s.on (.sbind f) → (s.env (.sbind f)).a.tag = .valid →
    s.me.spad.anyPoison (s.env (.sbind f)).a.v.toNat 64 = false →
    ∃ t st, exec (.sbind f) s = .next t ∧ vget t.me.streams.regs f.h.toNat = some st ∧
      st.pat = patternOf s.me.spad (s.env (.sbind f)).a.v.toNat ∧ st.buf = [] ∧ st.popped = 0 ∧ st.reserved = 0 ∧ st.reg = f.h.toNat ∧
      s.issuesCommand t (.sbind st.serial) ∧ ∀ k, k < 8 → k ≠ f.h.toNat → vget t.me.streams.regs k = vget (s.popped (.sbind f)).streams.regs k) ∧
  (∀ (s : State) (f : FormH0), s.unhindered (.sunbind f) → s.calm → s.on (.sunbind f) →
    ∃ t, exec (.sunbind f) s = .next t ∧ s.issuesCommand t .sunbind ∧
      ∀ k, k < 8 → vget t.me.streams.regs k = if k = f.h.toNat then none else vget s.me.streams.regs k) ∧
  (∀ (s : State) (f : FormHA) (st : Stream), s.unhindered (.gpush f) → s.calm → s.on (.gpush f) → (s.env (.gpush f)).a.tag = .valid →
    vget (s.popped (.gpush f)).streams.regs f.h.toNat = some st → st.pat.kind = 1 →
    ∃ t st1 i, exec (.gpush f) s = .next t ∧ vget t.me.streams.regs f.h.toNat = some st1 ∧ st1.idx = st.idx ++ [i] ∧
      i.val = (s.env (.gpush f)).a ∧ st1.idxTotal = st.idxTotal + 1 ∧ st1.buf = st.buf ∧ s.issuesCommand t (.gpush st.serial))

/-- R277 to R281 (12): copy, send and rsend issue the transfer of their descriptor, with the displacement or rank of B; an rsend counts as
held. -/
def Obligations.TransferCommands : Prop :=
  ∀ (s : State) (i : Instr) (send rsend : Bool),
    (∃ f, i = .copy f ∧ send = false ∧ rsend = false) ∨ (∃ f, i = .send f ∧ send = true ∧ rsend = false) ∨
      (∃ f, i = .rsend f ∧ send = false ∧ rsend = true) →
    s.unhindered i → s.calm → s.on i → (s.env i).joined = .valid →
    let a := (s.env i).a.v.toNat
    s.me.spad.anyPoison a (0x38 + 16 * (s.me.spad.readLe a 4 % 16)) = false →
    ∃ t, exec i s = .next t ∧ s.issuesCommand t (.xfer (xferOf s.me.spad send rsend a (s.env i).optB)) ∧
      t.me.seg.heldCount = s.me.seg.heldCount + (if rsend then 1 else 0) ∧ t.me.spad = s.me.spad

/-- R284, R285 (12), R338 (17): ssig, ssig.r and sinit of a kernel issue commands that are held to commit and change no semaphore yet; in a handler
ssig and sinit change the semaphore at the end of their clock period. -/
def Obligations.SemaphoreCommands : Prop :=
  (∀ (s : State) (i : Instr) (b : CmdBody),
    (∃ f, i = .ssig f ∧ b = .ssig none ((s.env i).a.v.toNat % 64) (s.env i).b.v.toNat) ∨
      (∃ f, i = .ssigR f ∧ b = .ssig (some ((s.env i).a.v.toNat / 2 ^ 16 % 2 ^ 16)) ((s.env i).a.v.toNat % 64) (s.env i).b.v.toNat) ∨
      (∃ f, i = .sinit f ∧ b = .sinit ((s.env i).a.v.toNat % 64) (s.env i).b.v.toNat) →
    s.me.priv.active = false → s.unhindered i → s.calm → s.on i → (s.env i).joined = .valid →
    ∃ t, exec i s = .next t ∧ s.issuesCommand t b ∧ b.isHeld = true ∧ t.me.seg.heldCount = s.me.seg.heldCount + 1 ∧
      t.me.sems.cnt = s.me.sems.cnt) ∧
  (∀ (s : State) (i : Instr) (init : Bool), (∃ f, i = .ssig f ∧ init = false) ∨ (∃ f, i = .sinit f ∧ init = true) →
    s.me.priv.active = true → s.unhindered i → s.steady → s.on i → (s.env i).joined = .valid →
    let k := (s.env i).a.v.toNat % 64
    let n := (s.env i).b.v.toNat
    ∃ t, exec i s = .next t ∧ ∀ j, j < 64 → vget t.me.sems.cnt j =
      if j ≠ k then vget s.me.sems.cnt j
      else if init then BitVec.ofNat 32 n
      else if (vget s.me.sems.cnt k).toNat + n < 2 ^ 32 then vget s.me.sems.cnt k + BitVec.ofNat 32 n else BitVec.allOnes 32)

/-- R276, R288 (12): a global atomic issues its command with its operation, address, operands and class; naming a return stream, it takes
a place there and closes its segment. -/
def Obligations.AtomicCommands : Prop :=
  ∀ (s : State) (i : Instr) (op : AtomicOp) (ret : Option Nat), atomicOf i = some (op, ret) →
    s.unhindered i → s.calm → s.on i → (s.env i).joined = .valid →
    ∃ t, exec i s = .next t ∧
      s.issuesCommand t (.atomic op ((s.env i).a.v.toNat % 2 ^ 57) (s.env i).b.v (s.env i).d.v
        (BitVec.ofNat 4 ((s.env i).a.v.toNat / 2 ^ 57)) (ret.bind fun k => (vget s.me.streams.regs k).map Stream.serial)) ∧
      (ret.isSome = true → t.me.k.pos.closes = true) ∧
      ∀ k st, ret = some k → vget (s.popped i).streams.regs k = some st →
        ∃ st1, vget t.me.streams.regs k = some st1 ∧ st1.rets = st.rets ++ [{ cmd := s.me.eng.next, released := false, val := none }]

/-- R290 to R292 (12): fence, launch and pref issue their commands; the record of a launch is read at the issue; pref changes no value. -/
def Obligations.OtherCommands : Prop :=
  (∀ (s : State) (f : FormXA), s.me.priv.active = false → s.unhindered (.fence f) → s.calm → s.on (.fence f) →
    (s.env (.fence f)).joined = .valid →
    ∃ t, exec (.fence f) s = .next t ∧ s.issuesCommand t (.fence ((s.env (.fence f)).a.v.setWidth 16))) ∧
  (∀ (s : State) (f : FormXA), s.me.priv.active = true → s.unhindered (.fence f) → s.steady → s.on (.fence f) →
    (s.env (.fence f)).joined = .valid →
    ∃ t a, exec (.fence f) s = .next t ∧ t.me.eng.queue = s.me.eng.queue ++ [a] ∧ a.cmd.body = .fence ((s.env (.fence f)).a.v.setWidth 16) ∧
      a.cmd.id = s.me.eng.next) ∧
  (∀ (s : State) (f : FormXA), s.unhindered (.launch f) → s.calm → s.on (.launch f) → (s.env (.launch f)).joined = .valid →
    s.me.spad.anyPoison (s.env (.launch f)).a.v.toNat 0x140 = false →
    ∃ t, exec (.launch f) s = .next t ∧ s.issuesCommand t (.launch (s.me.spad.read (s.env (.launch f)).a.v.toNat 0x140))) ∧
  (∀ (s : State) (f : FormXA), s.unhindered (.pref f) → s.calm → s.on (.pref f) → (s.env (.pref f)).joined = .valid →
    ∃ t, exec (.pref f) s = .next t ∧ s.issuesCommand t (.pref ((s.env (.pref f)).a.v.toNat % 2 ^ 57)) ∧ t.me.k.n = s.me.k.n ∧
      t.me.spad = s.me.spad ∧ t.mem = s.mem ∧ t.me.sems.cnt = s.me.sems.cnt)

/-! ## Cycles of a tile (chapters 05 and 07) -/

/-- R50, R51, R63, R66, R69, R71, R107, R165, R204, R231 (02, 04, 05, 07, 09, 10): a wait cycle and a bubble cycle advance the schedule cycle and issue
nothing; a result whose latency has ended arrives: a scalar, a vector and a guard pair, a mask pair whose odd mask is the complement (off and VOID lanes
VOID in both), the entry of a bind, and the place of a write stream; the freeze of a waitw changes nothing but time; an empty slot does nothing. -/
def Obligations.EmptyCycles : Prop :=
  (∀ s : State, s.kernelReady ∨ s.handlerReady → s.me.transfersOnly → s.steady → s.me.inp.upsets = [] → s.me.ctx.pos.waiting = true →
    ∃ t, exec .waitCycle s = .next t ∧ t.me.ctx.cycle = s.me.ctx.cycle + 1 ∧ t.me.ctx.pos.waits = s.me.ctx.pos.waits - 1 ∧
      t.me.ctx.pos.issues = s.me.ctx.pos.issues ∧ t.me.ctx.n = s.me.ctx.n ∧ t.me.ctx.g = s.me.ctx.g ∧ t.me.ctx.infl = s.me.ctx.infl) ∧
  (∀ s : State, s.kernelReady ∨ s.handlerReady → s.me.transfersOnly → s.steady → s.me.inp.upsets = [] → s.me.ctx.pos.bubbling = true →
    ∃ t, exec .bubbleCycle s = .next t ∧ t.me.ctx.cycle = s.me.ctx.cycle + 1 ∧ t.me.ctx.pos.bubbles = s.me.ctx.pos.bubbles - 1 ∧
      t.me.ctx.n = s.me.ctx.n ∧ t.me.ctx.g = s.me.ctx.g ∧ t.me.ctx.infl = s.me.ctx.infl) ∧
  (∀ (s : State) (e : InFlight) (rest : List InFlight), s.me.ctx.infl = e :: rest → e.last < s.me.ctx.cycle →
    (∀ x ∈ rest, s.me.ctx.cycle ≤ x.last) → s.me.checker = none →
    ∃ t, exec .resultArrival s = .next t ∧ t.me.ctx.cycle = s.me.ctx.cycle ∧
      (∀ x d, e.res = .scalar x d → t.me.ctx.infl = rest ∧ t.me.ctx.sq = pushWindow s.me.ctx.sq x ∧ t.me.ctx.g = s.me.ctx.g ∧
        t.me.ctx.n = (if d.toNat < 32 then vset s.me.ctx.n d.toNat x else s.me.ctx.n)) ∧
      (∀ j even odd, e.res = .guards j even odd → t.me.ctx.infl = rest ∧ t.me.ctx.n = s.me.ctx.n ∧ s.guardsAre t j even odd) ∧
      (∀ x d, s.me.priv.active = false → e.res = .vector x d → t.me.k.infl = rest ∧ t.me.vec.vq = pushWindow s.me.vec.vq x ∧
        t.me.vec.v = (if d.toNat < 16 then vset s.me.vec.v d.toNat x else s.me.vec.v) ∧ t.me.k.n = s.me.k.n) ∧
      (∀ x d, s.me.priv.active = false → e.res = .vectorPush x d → t.me.k.infl = rest ∧ t.me.vec.vq = pushWindow s.me.vec.vq x ∧
        t.me.vec.v = s.me.vec.v ∧ t.me.vec.m = s.me.vec.m) ∧
      (∀ j vals voids, s.me.priv.active = false → e.res = .masks j vals voids → t.me.k.infl = rest ∧ t.me.vec.v = s.me.vec.v ∧
        ∀ k, k < 8 → vget t.me.vec.m k = if k = 0 then vget s.me.vec.m 0
          else if k = 2 * j then { vals := vals &&& ~~~voids, voids := voids }
          else if k = 2 * j + 1 then { vals := ~~~vals &&& ~~~voids, voids := voids } else vget s.me.vec.m k) ∧
      (∀ h sh, s.me.priv.active = false → e.res = .bind h sh → t.me.k.infl = rest ∧ t.me.vec = s.me.vec ∧ t.me.k.n = s.me.k.n ∧
        ∀ k, k < 8 → vget t.me.shapes k = if k = h then some sh else vget s.me.shapes k) ∧
      (∀ serial pos x, s.me.priv.active = false → e.place = some (serial, pos) → e.res.elem = some x →
        t.me.streams = s.me.streams.mapSerial serial fun st => st.fill pos x)) ∧
  (∀ s : State, s.waitsWall = true →
    ∃ t, exec .waitwDeadline s = .next t ∧ t.me.k.cycle = s.me.k.cycle ∧ t.me.k.n = s.me.k.n ∧ t.me.spad = s.me.spad ∧
      vget s.me.counters.freeze 6 < vget t.me.counters.freeze 6 ∧
      (t.waitsWall = true → vget t.me.counters.freeze 6 = vget s.me.counters.freeze 6 + 15000000)) ∧
  (∀ s : State, s.unhindered .nop → s.steady →
    ∃ t, exec .nop s = .next t ∧ t.me.ctx.cycle = s.me.ctx.cycle + 1 ∧ t.me.ctx.n = s.me.ctx.n ∧ t.me.ctx.sq = s.me.ctx.sq ∧
      t.me.ctx.g = s.me.ctx.g ∧ t.me.ctx.infl = s.me.ctx.infl)

/-! ## The matrix engine and the presentation of commands (chapters 07 and 11) -/

/-- R170, R253, R260, R261, R255 (07, 11): a command whose lag has passed is presented, a held one to the commit buffer, a transfer to the
queue; the engine goes on after the item's last cycle; an xzero clears its block; a drain writes a row; a sparse operation starts and, after as many clock
periods as its candidate triples give, completes. That its products are formed at its completion, on the operands as they then stand, is the model's
reading (log 14). -/
def Obligations.MatrixCycles : Prop :=
  (∀ (s : State) (c : Cmd), s.me.winding = false → s.me.eng.lag = [c] → c.cycle + 5 ≤ s.me.mx.cyc → (c.late = 0 ∨ s.me.img.coverage = 0) →
    c.ckCopy = none → s.me.seg.number ≤ c.segNo → s.me.eng.queue = [] → s.me.eng.released = [] →
    ∃ t, exec .engineCommandPresentation s = .next t ∧
      (∀ x, c.body = .xfer x → x.isRsend = false → t.me.eng.lag = [] ∧ t.me.eng.held = s.me.eng.held ∧ t.me.eng.queue = [Active.start c]) ∧
      (c.body.isHeld = true → t.me.eng.lag = [] ∧ t.me.eng.held = s.me.eng.held ++ [c] ∧ t.me.eng.queue = [])) ∧
  (∀ s : State, s.me.winding = true → s.me.mx.over_ = false → s.me.eng.lag = [] → s.me.inp.upsets = [] → s.me.transfersOnly →
    ∃ t, exec .denseMatrixCycle s = .next t ∧ t.me.mx.cyc = s.me.mx.cyc + 1 ∧ t.me.k = s.me.k ∧ t.me.vec = s.me.vec) ∧
  (∀ (s : State) (x : MxCmd) (blk : Nat), s.me.mx.queue = [x] → x.op = .zero blk → x.start < s.me.mx.cyc → x.fixed = true → x.done = false →
    ∃ t, exec .matrixBlockZero s = .next t ∧ t.me.mx.queue = [{ x with done := true }] ∧
      ∀ k, t.me.mx.acc.get k = if k / 4096 = blk then { v := 0, tag := .valid } else s.me.mx.acc.get k) ∧
  (∀ (s : State) (x : MxCmd) (addr blk fmt rowsM1 pitch : Nat) (sat : Bool) (c : Nat) (row : List Lane), s.me.mx.queue = [x] →
    x.op = .drain addr blk fmt rowsM1 pitch sat → x.sparse = false → x.fixed = true → x.done = false → x.wait = [(c, row)] → c < s.me.mx.cyc → s.me.spad.wf = true →
    s.me.inp.stuck = [] →
    let a := addr + (c - x.start - 3) * pitch
    let bs := packElems (fmtWidth fmt) (row.map fun l => drainElem fmt sat l.v)
    ∃ t, exec .drainRowWrite s = .next t ∧ t.me.mx.acc = s.me.mx.acc ∧
      ∀ y, readCell t.me.spad.bytes y = if a ≤ y ∧ y < a + bs.length then bs.getD (y - a) 0 else readCell s.me.spad.bytes y) ∧
  (∀ (s : State) (x : MxCmd) (c : MxCfg) (snap : Option Shape) (sem : Option Nat) (rho : Nat), s.me.mx.queue = [x] → x.op = .go c snap sem rho →
    x.sparse = true → x.presented = true → x.done = false → x.clkLeft = none → c.steps ≠ 0 →
    let triples := fun j =>
      let p := c.at_ j
      let ab := c.stepRows s.me.spad s.me.mx.acc j
      ((List.range c.rows).map fun m => ((List.range 64).map fun n =>
        if sameSeg snap (p.r + m) (p.c + n) then ((List.range c.kc).filter fun k =>
          (ab.1.getD m default).bits.getD k true && (ab.2.getD k default).bits.getD n true).length else 0).sum).sum
    ∃ t n, exec .sparseMatrixStart s = .next t ∧ t.me.mx.queue = [{ x with clkLeft := some n }] ∧
      n = 16 + ((List.range c.steps).map fun j => max 16 ((triples j + c.perSc - 1) / c.perSc)).sum + 8 ∧
      t.me.mx.acc = s.me.mx.acc) ∧
  (∀ (s : State) (x : MxCmd) (c : MxCfg) (snap : Option Shape) (sem : Option Nat) (rho : Nat), s.me.mx.queue = [x] → x.op = .go c snap sem rho →
    x.sparse = true → x.done = false → x.clkLeft = some 0 → x.signalled = false → s.me.transfersOnly →
    ∃ t, exec .sparseMatrixComplete s = .next t ∧ t.me.mx.queue = [{ x with done := true }] ∧
      t.me.mx.acc = (List.range c.steps).foldl (fun a j => c.sparseStep snap s.me.spad a j) s.me.mx.acc ∧
      t.me.mx.fb = s.me.mx.cyc ∧ t.me.mx.i = s.me.mx.cyc ∧
      (∀ k, sem = some k → x.segNo = s.me.seg.number → ∃ h, t.me.eng.held = s.me.eng.held ++ [h] ∧ h.body = .mxsig k ∧ h.segNo = x.segNo) ∧
      (∀ k, sem = some k → x.segNo ≠ s.me.seg.number → ∃ g, t.me.sems.pend = s.me.sems.pend ++ [g] ∧ g.sem = k ∧ g.op = .raise 1))

/-! ## Engines (chapters 12 and 13) -/

/-- R65, R66, R273, R275, R299, R416 (02, 12, 13, 20): a fill gives a read stream's buffer the element that memory holds, a 64-byte unit of global
memory at a time, or a VOID one for a VOID index; a drain writes the words of the oldest element that are not VOID, unit by unit, and one that
holds POISON is consumed against the sbind's bundle. That the units go one after another in rising address order, where an access stands in the order of
its class, and the word that a POISON value is charged to, are the model's (logs 35, 83 and 22). -/
def Obligations.StreamElements : Prop :=
  ∀ (s : State) (t : TileNo) (k : Nat) (st : Stream), k < 8 → vget (s.tile t).streams.regs k = some st →
    (s.tile t).streams.find st.serial = some st → st.pat.kind ≠ 2 → (s.tile t).streamTurn st = true →
    let x := s.tile t
    let filled := fun (u : State) (bs : List (Byte × Option BadWord)) => ∃ st1 e, vget (u.tile t).streams.regs k = some st1 ∧
      isElement st.pat.isVector bs e ∧ st1.buf = st.buf ++ [e] ∧ st1.filled = st.filled + 1 ∧ st1.popped = st.popped
    let drained := fun (u : State) => ∃ st1, vget (u.tile t).streams.regs k = some st1 ∧ st1.queue = st.queue.tail
    (∀ a, st.nextElem = some (.fill (some a)) → st.pat.isLocal = true →
      ∃ u, exec (.streamElementFill t st.serial) s = .next u ∧ filled u (bytesFrom x.spad 4 a st.pat.size) ∧ (u.tile t).spad = x.spad) ∧
    (∀ a q l, st.nextElem = some (.fill (some a)) → st.pat.isLocal = false → x.askedOf (streamId st.serial) = some q →
      s.cleared q = some l → x.inp.transit = [] →
      let bs := st.got ++ bytesFrom (s.storeAt l) 6 l.pa q.req.n
      ∃ u, exec (.streamElementFill t st.serial) s = .next u ∧ u.mem = s.mem ∧ (st.pat.size ≤ bs.length → filled u bs) ∧
        (bs.length < st.pat.size → ∃ st1, vget (u.tile t).streams.regs k = some st1 ∧ st1.got = bs ∧ st1.buf = st.buf ∧
          st1.filled = st.filled)) ∧
    (st.nextElem = some (.fill none) →
      ∃ u st1, exec (.streamElementFill t st.serial) s = .next u ∧ vget (u.tile t).streams.regs k = some st1 ∧
        st1.buf = st.buf ++ [if st.pat.isVector then .vector vvoid else .scalar zeroVoid]) ∧
    (∀ addr e, st.nextElem = some (.drain addr e) → x.transfersOnly → (∀ w ∈ e.words, w.2.2.isPoison = false) →
      (addr = none → ∃ u, exec (.streamElementDrain t st.serial) s = .next u ∧ drained u ∧ (u.tile t).spad = x.spad ∧ u.mem = s.mem) ∧
      (∀ a, addr = some a → st.pat.isLocal = true → x.spad.wf = true → x.inp.stuck = [] → s.drainHeld t st a = false →
        ∃ u, exec (.streamElementDrain t st.serial) s = .next u ∧ drained u ∧
          ∀ y, readCell (u.tile t).spad.bytes y = (elementByte e a y).getD (readCell x.spad.bytes y)) ∧
      (∀ a q l, addr = some a → st.pat.isLocal = false → x.askedOf (streamId st.serial) = some q → s.cleared q = some l →
        x.inp.transit = [] → (s.storeAt l).wf = true →
        ∃ u, exec (.streamElementDrain t st.serial) s = .next u ∧ (st.pat.size ≤ st.gone + q.req.n → drained u) ∧
          (st.gone + q.req.n < st.pat.size → ∃ st1, vget (u.tile t).streams.regs k = some st1 ∧ st1.queue = st.queue ∧
            st1.gone = st.gone + q.req.n) ∧
          ∀ y, readCell (u.storeAt l).bytes y =
            if l.pa ≤ y ∧ y < l.pa + q.req.n then (elementByte e a (y - l.pa + q.req.addr)).getD (readCell (s.storeAt l).bytes y)
            else readCell (s.storeAt l).bytes y)) ∧
    (∀ addr e o, st.nextElem = some (.drain addr e) → (e.words.findSome? fun w => match w.2.2 with | .poison o => some o | _ => none) = some o →
      x.openElem st = true →
      ∃ u ev, exec (.streamElementDrain t st.serial) s = .next u ∧ drained u ∧ (u.tile t).spad = x.spad ∧
        (u.tile t).seg.pendEvents = x.seg.pendEvents ++ [ev] ∧ ev.check = .poison ∧ ev.addr = st.bindAddr ∧ ev.cycle = st.bindCycle ∧
        ev.unit = o.unit ∧ ev.detail = o.place)

/-- R75, R278 to R283, R287 to R289, R299, R342, R390 (02, 12, 13, 17, 19): a transfer reads its source and writes its destination unit by unit,
an rsend translating the pages of its result; its completion writes the tag word and sends the signal; a signal is counted or logged; an atomic replaces
its word and returns the old one. The order of the units and the translation of an rsend's pages are the model's readings (logs 35 and 45). -/
def Obligations.EngineRequests : Prop :=
  (∀ (s : State) (t : TileNo) (a : Active) (d : Transfer) (r : Req), (s.tile t).eng.queue = [a] → (s.tile t).eng.released = [] →
    a.cmd.body = .xfer d → a.done = false → a.fault = none → cellsWf 0 a.got = true → (s.tile t).turn a = true → a.nextReq d = some r →
    (s.tile t).inp.transit = [] →
    let x := s.tile t
    let ev : Instr := .globalRequestPerform t a.cmd.id
    let src := fun k => (d.byteAt k).1.toNat
    let dst := fun k => (d.byteAt k).2.toNat
    let took := fun (u : State) (m : Store) (base : Nat) => ∃ b, (u.tile t).eng.queue = [b] ∧ b.cmd = a.cmd ∧ b.rd = a.rd + 1 ∧ b.wr = a.wr ∧
      ∀ k, readCell b.got k = if k ∈ r.ks then readCell m.bytes (src k - r.addr + base) else readCell a.got k
    let wrote := fun (u : State) => ∃ b, (u.tile t).eng.queue = [b] ∧ b.cmd = a.cmd ∧ b.rd = a.rd ∧ b.wr = a.wr + 1 ∧
      b.done = decide ((unitsOf dst d.total).length ≤ a.wr + 1)
    let stored := fun (m m' : Store) (base : Nat) =>
      (∀ k ∈ r.ks, (∀ j ∈ r.ks, k < j → dst j ≠ dst k) → readCell m'.bytes (dst k - r.addr + base) = readCell a.got k) ∧
      ∀ y, (∀ k ∈ r.ks, dst k - r.addr + base ≠ y) → readCell m'.bytes y = readCell m.bytes y
    (r.access = .read → r.isGlobal = false → (∀ k ∈ r.ks, x.spad.poison.contains (src k / 8) = false) →
      ∃ u, exec ev s = .next u ∧ took u x.spad r.addr) ∧
    (∀ q l, r.access = .read → r.isGlobal = true → d.leaves = false → d.isRsend = false → x.askedOf a.cmd.id = some q → s.cleared q = some l →
      q.req = r → ∃ u, exec ev s = .next u ∧ took u (s.storeAt l) l.pa) ∧
    (∀ v, r.access = .write → r.isGlobal = false → s.targetTile t (if d.isSend then d.target else none) = some v → (s.tile v).spad.wf = true →
      (s.tile v).inp.stuck = [] → ∃ u, exec ev s = .next u ∧ wrote u ∧ stored (s.tile v).spad (u.tile v).spad r.addr) ∧
    (∀ q l, r.access = .write → r.isGlobal = true → d.isRsend = false → x.askedOf a.cmd.id = some q → s.cleared q = some l →
      (s.storeAt l).wf = true → ∃ u, exec ev s = .next u ∧ wrote u ∧ stored (s.storeAt l) (u.storeAt l) l.pa) ∧
    (∀ q l, r.isGlobal = true → d.isRsend = true → x.askedOf a.cmd.id = some q → q.fault = none → x.denied q = none → x.locOf q = some l →
      ∃ u b, exec ev s = .next u ∧ (u.tile t).eng.queue = [b] ∧ b.wr = a.wr + 1 ∧ b.locs = a.locs ++ [(l, r.addr, r.n)] ∧ u.mem = s.mem)) ∧
  (∀ (s : State) (t v : TileNo) (a : Active) (d : Transfer) (r : Run), (s.tile t).eng.queue = [a] → (s.tile t).eng.released = [] →
    a.cmd.body = .xfer d → s.completes t a d = true → s.targetTile t d.target = some v → (s.tile t).run = some r →
    (s.tile v).spad.wf = true → (s.tile v).inp.stuck = [] →
    ∃ u, exec (.transferCompletion t a.cmd.id) s = .next u ∧ (u.tile t).eng.queue = [] ∧
      (d.tagw = true → storedAt (s.tile v).spad (u.tile v).spad (d.tagOff / 8 * 8) (leBytes 8 d.tag.toNat)) ∧
      (d.tagw = false → (u.tile v).spad = (s.tile v).spad) ∧ (d.sig = false → u.signals = s.signals) ∧
      (d.sig = true → ∃ g, u.signals = s.signals ++ [g] ∧ g.target = v ∧ g.change.sem = d.sem ∧ g.change.op = .raise d.count)) ∧
  (∀ (s : State) (g : Signal) (rest : List Signal), s.signals = g :: rest →
    let x := s.tile g.target
    ∃ u, exec (.semaphoreSignalArrival 0) s = .next u ∧ u.signals = rest ∧ (u.tile g.target).sems.cnt = x.sems.cnt ∧
      (∀ r, x.run = some r → r.launch = g.launch → r.gang = g.gang → g.change.sem < r.img.nsems → x.priv.ctxState.toNat < 2 →
        (u.tile g.target).sems.pend = x.sems.pend ++ [g.change] ∧ (u.tile g.target).priv.sigLog = x.priv.sigLog) ∧
      (2 ≤ x.priv.ctxState.toNat → x.priv.sigLog.length < 8 → ∃ e, (u.tile g.target).priv.sigLog = x.priv.sigLog ++ [e] ∧ e.st = true ∧
        e.sem = g.change.sem ∧ e.count = BitVec.ofNat 32 g.change.op.count ∧ (u.tile g.target).sems = x.sems) ∧
      (2 ≤ x.priv.ctxState.toNat → 8 ≤ x.priv.sigLog.length →
        (u.tile g.target).priv.sigLog = x.priv.sigLog ∧ (u.tile g.target).priv.sigLost = true)) ∧
  (∀ (s : State) (t : TileNo) (a : Active) (q : Asked) (op : AtomicOp) (va : Nat) (b d : Word) (cls : BitVec 4) (ret : Option Nat) (l : Loc),
    (s.tile t).eng.queue = [a] → (s.tile t).eng.released = [] → a.cmd.body = .atomic op va b d cls ret →
    (s.tile t).askedOf a.cmd.id = some q → s.cleared q = some l → q.req.n = op.width →
    (l.host = true ∨ s.atomicServes (homeDie l.pa) (homeCluster l.pa) t = true) → (s.storeAt l).wf = true →
    (∀ j, j < op.width → (s.storeAt l).poison.contains ((l.pa + j) / 8) = false) →
    let old := BitVec.ofNat 64 (leNat ((List.range op.width).map fun j => readCell (s.storeAt l).bytes (l.pa + j)))
    ∃ u, exec (.globalAtomicPerform t a.cmd.id) s = .next u ∧ (u.tile t).eng.queue = [] ∧
      storedAt (s.storeAt l) (u.storeAt l) l.pa (leBytes op.width (atomicWord op old b d)) ∧
      ∀ k st, k < 8 → ret = some st.serial → vget (s.tile t).streams.regs k = some st →
        st.rets = [{ cmd := a.cmd.id, released := false, val := none }] →
        ∃ st1, vget (u.tile t).streams.regs k = some st1 ∧ st1.rets = [{ cmd := a.cmd.id, released := false, val := some (validWord old) }])

/-! ## Translation, homes and migration (chapter 19) -/

/-- R388, R391 to R395 (19): a walk goes down the levels to a leaf of 1 GiB, 2 MiB or 64 KiB; a miss stands with the mode and root in force; a walk or a
WALK_FILL ends it in a cache entry or in a fault of the request; XL_SHOOT drops the entries that it names, at every tile of the partition, and no
other. The detail of a walk that meets an entry outside populated memory, and the refusal of a WALK_FILL leaf outside it, are the model's readings (logs
31 and 33). -/
def Obligations.TranslationEvents : Prop :=
  (∀ (m : Store) (va n : Nat) (tbl : Nat → Nat) (shift : Nat → Nat), 2 ≤ n → n ≤ 4 → (∀ l, l < 5 → shift l = if l < 4 then 48 - 9 * l else 16) →
    let a := fun l => tbl l + 8 * (va / 2 ^ shift l % (if l < 4 then 512 else 32))
    let e := fun l => BitVec.ofNat 64 (m.readLe (a l) 8)
    (∀ l, l ≤ n → populated (a l) = true ∧ m.anyPoison (a l) 8 = false ∧ (e l).getLsbD 0 = true ∧ (e l).getLsbD 1 = decide (l = n) ∧
      entryBad l (e l) = false) →
    (∀ l, l < n → tbl (l + 1) = (e l).toNat / 2 ^ 8 % 2 ^ 40 * 2 ^ 8) → leafOutside (e n) = false →
    (walk m (tbl 0) va).leaf = some (e n, shift n, a n)) ∧
  (∀ (s : State) (t : TileNo) (copy : Bool) (a : Asked) (va : Nat), (s.tile t).xlat.miss copy = none → (s.tile t).firstMiss copy = some (a, va) →
    let x := (s.part (s.partOf t)).xl
    let room := x.walkMode = 2 ∧ x.missStanding < x.missSlotsM1 + 1
    ∃ u m, exec (.translationMiss t copy) s = .next u ∧ (u.tile t).xlat.miss copy = some m ∧ m.va = va ∧ m.root = x.root ∧
      m.mode = x.walkMode.toNat ∧ m.write = decide (a.req.access ≠ .read) ∧ m.atomic = decide (a.req.access = .atomic) ∧
      (u.tile t).xlat.miss (!copy) = (s.tile t).xlat.miss (!copy) ∧ (u.tile t).xlat.cache copy = (s.tile t).xlat.cache copy ∧
      (room → m.raised = true ∧ (u.part (s.partOf t)).xl.missHead = x.missHead + 1 ∧
        (u.part (s.partOf t)).xl.missStanding = x.missStanding + 1) ∧
      (¬ room → m.raised = false ∧ (u.part (s.partOf t)).xl = x)) ∧
  (∀ (s : State) (t : TileNo) (copy : Bool) (m : Miss), (s.tile t).xlat.miss copy = some m →
    let got := fun (u : State) (e : Word) (bits : Nat) => (u.tile t).xlat.miss copy = none ∧
      ({ va := m.va / 2 ^ bits * 2 ^ bits, bits := bits, entry := e } : Leaf) ∈ (u.tile t).xlat.cache copy ∧
      (u.tile t).xlat.cache (!copy) = (s.tile t).xlat.cache (!copy)
    let failed := fun (u : State) (d : Nat) => (u.tile t).xlat.miss copy = none ∧
      ∀ a b, (s.tile t).awaits copy m = some a → (s.tile t).eng.queue = [b] → b.cmd.id = a.id → a.id < 2 ^ 32 →
        (u.tile t).eng.queue = [{ b with loc := none, fault := some (1, d), reported := false }]
    (m.mode = 0 → (s.die (dieOf t)).walker = [] →
      ∃ u, exec (.translationWalkComplete t copy) s = .next u ∧
        (∀ e bits at_, (walk s.mem m.root m.va).leaf = some (e, bits, at_) → got u e bits) ∧
        ((walk s.mem m.root m.va).leaf = none → failed u (walk s.mem m.root m.va).detail)) ∧
    (∀ (o : Origin) (v : Word), s.fillTarget o = some (t, copy, m.mode) → (m.mode = 1 ∨ m.raised = true) →
      ∃ u, exec (.walkFill o v) s = .next u ∧ (∀ e bits, fillLeaf v = .ok (e, bits) → got u e bits) ∧
        (∀ d, fillLeaf v = .error d → d = 5 ∧ failed u 5))) ∧
  (∀ (s : State) (o : Origin) (v : Word) (p : PartNo), s.originPart o = some p → invalidation v ≠ .bad →
    ∃ u, exec (.xlShoot o v) s = .next u ∧ (u.part p).xl.xlBusy = true ∧
      ∀ t : TileNo, (u.tile t).xlat =
        (if (s.part p).tiles.getLsbD t.val then (s.tile t).xlat.invalidate (invalidation v) else (s.tile t).xlat) ∧
        ∀ copy l, l ∈ (u.tile t).xlat.cache copy ↔
          l ∈ (s.tile t).xlat.cache copy ∧ ((s.part p).tiles.getLsbD t.val = true → staysCached v l)) ∧
  (∀ (s : State) (p : PartNo), (s.part p).xl.xlBusy = true → s.oldWalk p = false →
    ∃ u, exec (.xlShootDone p) s = .next u ∧ (u.part p).xl.xlBusy = false ∧
      ∀ t : TileNo, (s.part p).tiles.getLsbD t.val = true → (u.tile t).xlat.streamTlb = [] ∧ (u.tile t).xlat.copyTlb = []) ∧
  (∀ s : State, s.me.xlat.walkPending = true →
    ∃ u, exec .walkData s = .next u ∧ u.me.xlat.walkPending = false ∧ u.me.xlat.walkData = BitVec.ofNat 64 (s.mem.readLe s.me.xlat.walkPaddr 8))

/-- R396 to R399, R404 (19): a fault is held and reported once; EF_RESUME lifts it; a home die lets a request through or refuses and logs it;
a read of REFUSE_LOG pops the oldest entry. -/
def Obligations.FaultEvents : Prop :=
  (∀ (s : State) (t : TileNo) (id : Nat) (f : Nat × Nat), (s.tile t).faultOf id = some f → (s.tile t).faultReported id = false →
    ∃ u, exec (.engineFault t id) s = .next u ∧
      ((s.tile t).priv.ef.standing = true → (u.tile t).priv = (s.tile t).priv) ∧
      ((s.tile t).priv.ef.standing = false →
        let w := (s.tile t).issuer id
        (u.tile t).priv.ef = { kind := f.1, handler := false, va := (s.tile t).faultVa id, addr := w.1, cycle := w.2, detail := f.2,
                               reqTag := (u.tile t).priv.ef.reqTag, standing := true } ∧
        ({ cause := 0x20, value := 0, addr := w.1, cycle := w.2, sub := 0 } : Async) ∈ (u.tile t).priv.async)) ∧
  (∀ (s : State) (o : Origin) (v : Word) (t : TileNo), v.getLsbD 0 = true →
    (o = .handler t ∧ (s.tile t).priv.active = true) ∨
      (∃ p, o = .window p ∧ s.window p = true ∧ (s.part p).tiles.getLsbD t.val = true ∧ t.val = v.toNat / 2 ^ 16 % 2 ^ 11) →
    ∃ u, exec (.efResume o v) s = .next u ∧ (u.tile t).priv.ef.standing = false ∧ (u.tile t).xlat.streamTlb = [] ∧
      (u.tile t).xlat.copyTlb = [] ∧ (∀ b ∈ (u.tile t).eng.queue, b.fault = none ∧ b.reported = false) ∧
      (u.tile t).eng.queue.map Active.cmd = (s.tile t).eng.queue.map Active.cmd) ∧
  (∀ (s : State) (t : TileNo) (a : Asked) (b : Active) (l : Loc), (s.tile t).askedOf b.cmd.id = some a → (s.tile t).eng.queue = [b] →
    b.cmd.id < 2 ^ 32 → (s.tile t).locOf a = some l → l.host = false → a.loc = none → a.fault = none →
    (s.tile t).denied a = none → s.migrating l = false → (s.die (homeDie l.pa)).down = false →
    let w := decide (a.req.access ≠ .read)
    ∃ u, exec (.homeDieRequest t b.cmd.id) s = .next u ∧
      (s.homeCheck (s.partOf t) l w = none → (u.tile t).eng.queue = [{ b with loc := some l, fault := none, reported := false }]) ∧
      (∀ d, s.homeCheck (s.partOf t) l w = some d →
        (u.tile t).eng.queue = [{ b with loc := none, fault := some (3, d), reported := false }] ∧
        (homeDie l.pa < 12 → (s.die (homeDie l.pa)).refusals.length < 8 → ∃ tag, (u.die (homeDie l.pa)).refusals =
          (s.die (homeDie l.pa)).refusals ++ [(s.place t, tag, d, l.pa)]))) ∧
  (∀ (s : State) (r : BitVec 16 × Nat × Nat × Nat) (rest : List (BitVec 16 × Nat × Nat × Nat)), s.hostUp = true →
    (s.die s.myDie).refusals = r :: rest →
    ∃ u, exec .refuseLog s = .next u ∧ (u.die s.myDie).refusals = rest ∧ (u.die s.myDie).refuseLost = false ∧
      (u.die s.myDie).refusePa = r.2.2.2 ∧
      u.hostData = leBytes 8 (BitVec.ofNat 64 (2 ^ 63 + b2n (s.die s.myDie).refuseLost * 2 ^ 62 + r.1.toNat * 2 ^ 32 +
        r.2.1 % 4096 * 2 ^ 16 + r.2.2.1 % 16)).toNat)

/-- R397, R399 to R404, R437 (19, 21): MIG_CMD starts a migration; one that completes moves the frame's bytes and exchanges the leaf; one whose frame the
host has written, or whose leaf has changed, ends with result 0x3, and the held write goes to the frame; the counters of a die halve; FRAME_SET and FREE_PUSH write the home directory and the free ring in device memory. The place of the ring's entries in memory is
the model's reading (log 32). -/
def Obligations.FrameEvents : Prop :=
  (∀ (s : State) (o : Origin) (v : Word) (p : PartNo) (e : Word) (at_ : Nat), s.originPart o = some p →
    (s.part p).xl.migMode = 2 → s.migBusy p = false →
    let va := v.toNat / 2 ^ 16 % 2 ^ 41 * 2 ^ 16
    let dest := v.toNat / 2 ^ 60
    let pa := e.toNat / 2 ^ 16 % 2 ^ 32 * 2 ^ 16
    (walk s.mem (s.part p).xl.root va).leaf = some (e, 16, at_) → leafHost e = false → e.getLsbD 6 = false → dest < 12 →
    (s.part p).hasDie dest = true → homeDie pa < 12 → (s.die (homeDie pa)).mig = none →
    let r := s.die dest
    let new := s.mem.readLe (r.freeBase + 8 * (r.freeHead % r.freeSlots)) 8 / 2 ^ 16 * 2 ^ 16
    r.freeCount ≠ 0 → populated new = true →
    ∃ u, exec (.migCmd o v) s = .next u ∧ u.migBusy p = true ∧ (u.die dest).freeCount = r.freeCount - 1 ∧
      (u.die dest).freeHead = (r.freeHead + 1) % r.freeSlots ∧
      (u.die (homeDie pa)).mig = some { part := p, va := va, old := pa, new := new, leaf := e, leafAddr := at_, spoiled := false }) ∧
  (∀ (s : State) (p : PartNo) (d : DieNo), (s.part p).xl.migDecay ≠ 0 → framesWf 0 (s.die d.val).frames = true →
    ∃ u, exec (.migDecayHalving p d) s = .next u ∧ ∀ n,
      let f := (s.die d.val).frameOf n
      let g := (u.die d.val).frameOf n
      g.owner = f.owner ∧ g.wp = f.wp ∧ ∀ k, k < 12 → vget g.counts k = vget f.counts k / 2) ∧
  (∀ (s : State) (m : Migration), (s.die s.myDie).mig = some m → m.spoiled = false → BitVec.ofNat 64 (s.mem.readLe m.leafAddr 8) = m.leaf →
    s.mem.wf = true → (m.old + 2 ^ 16 ≤ m.new ∨ m.new + 2 ^ 16 ≤ m.old) → s.heldWrites = [] → (∀ p : PartNo, (s.part p).xl.migCmd = none) →
    let e := m.leaf.toNat - m.leaf.toNat / 2 ^ 16 % 2 ^ 32 * 2 ^ 16 + m.new
    let moved := fun y => if m.new ≤ y ∧ y < m.new + 2 ^ 16 then readCell s.mem.bytes (y - m.new + m.old) else readCell s.mem.bytes y
    let r := s.die s.myDie
    let slot := r.freeBase + 8 * ((r.freeHead + r.freeCount) % r.freeSlots)
    ∃ u, exec .migrationComplete s = .next u ∧ (u.die s.myDie).mig = none ∧
      (u.part m.part).xl.migResult = 0 ∧ (u.part m.part).xl.migCount = (s.part m.part).xl.migCount + 1 ∧
      (u.die s.myDie).freeCount = min (max r.freeCount r.freeSlots) (r.freeCount + 1) ∧
      ∀ y, readCell u.mem.bytes y =
        if r.freeCount < r.freeSlots ∧ slot ≤ y ∧ y < slot + 8 then BitVec.ofNat 8 (m.old / 2 ^ (8 * (y - slot)))
        else if m.leafAddr ≤ y ∧ y < m.leafAddr + 8 then BitVec.ofNat 8 (e / 2 ^ (8 * (y - m.leafAddr))) else moved y) ∧
  (∀ (s : State) (m : Migration), (s.die s.myDie).mig = some m →
    (m.spoiled = true ∨ BitVec.ofNat 64 (s.mem.readLe m.leafAddr 8) ≠ m.leaf) →
    s.mem.wf = true → s.heldWrites = [] → (∀ p : PartNo, (s.part p).xl.migCmd = none) →
    let r := s.die (homeDie m.new)
    let slot := r.freeBase + 8 * ((r.freeHead + r.freeCount) % r.freeSlots)
    ∃ u, exec .migrationComplete s = .next u ∧ (u.die s.myDie).mig = none ∧
      (u.part m.part).xl.migResult = 3 ∧ (u.part m.part).xl.migCount = (s.part m.part).xl.migCount ∧
      ∀ y, readCell u.mem.bytes y =
        if r.freeCount < r.freeSlots ∧ slot ≤ y ∧ y < slot + 8 then BitVec.ofNat 8 (m.new / 2 ^ (8 * (y - slot)))
        else readCell s.mem.bytes y) ∧
  (∀ (s : State) (m : Migration) (w : HeldWrite), (s.die s.myDie).mig = some m → m.spoiled = true → s.mem.wf = true → s.heldWrites = [w] →
    w.part = none → w.waiters = [] → w.loc.host = false → homeDie w.loc.pa = s.myDie → (∀ p : PartNo, (s.part p).xl.migCmd = none) →
    (s.die (homeDie m.new)).freeSlots ≤ (s.die (homeDie m.new)).freeCount →
    ∃ u, exec .migrationComplete s = .next u ∧ (u.part m.part).xl.migResult = 3 ∧ u.heldWrites = [] ∧
      storedAt s.mem u.mem w.loc.pa (w.bytes.map Prod.fst)) ∧
  (∀ (s : State) (d : DieNo) (v : Word), s.hostUp = true →
    let owner := v.toNat / 2 ^ 4 % 2 ^ 5
    let pa := v.toNat / 2 ^ 16 % 2 ^ 32 * 2 ^ 16
    let first := pa % 2 ^ 44 / 2 ^ 16
    owner ≤ 0x10 → homeDie pa = d.val → framesWf 0 (s.die d.val).frames = true →
    ∃ u, exec (.frameSet d v) s = .next u ∧ ∀ n,
      let f := (s.die d.val).frameOf n
      (u.die d.val).frameOf n =
        if first ≤ n ∧ n ≤ first + v.toNat / 2 ^ 48 ∧ populated (pa + (n - first) * 2 ^ 16) = true then
          { f with owner := owner, wp := v.getLsbD 0 } else f) ∧
  (∀ (s : State) (d : DieNo) (v : Word), s.hostUp = true →
    let pa := v.toNat / 2 ^ 16 % 2 ^ 32 * 2 ^ 16
    homeDie pa = d.val → populated pa = true → s.mem.wf = true →
    let r := s.die d.val
    let slot := r.freeBase + 8 * ((r.freeHead + r.freeCount) % r.freeSlots)
    (r.freeCount < r.freeSlots → ∃ u, exec (.freePush d v) s = .next u ∧ (u.die d.val).freeCount = r.freeCount + 1 ∧
      storedAt s.mem u.mem slot (leBytes 8 pa)) ∧
    (r.freeSlots ≤ r.freeCount → exec (.freePush d v) s = .next s))

/-! ## Launches (chapter 18) -/

/-- R363 to R368, R370, R447 (18, 21): QTAIL makes entries available; a pool takes a host entry or a sump entry, checked, eligible at once where no
gate keeps it; a launch whose gates hold becomes eligible and lowers them; gate semaphores are raised and set; a partition begins with its registers at reset and its gates zero. -/
def Obligations.LaunchEvents : Prop :=
  (∀ (s : State) (p : PartNo) (k : Fin 64) (v : Word),
    let q := vget (s.part p).queues k.val
    ∃ u, exec (.qtail p k v) s = .next u ∧
      (s.window p = true → vget (u.part p).queues k.val = { q with tail := v.setWidth 32, err := q.err || decide (q.sizeM1 + 1 < (v.setWidth 32 - q.head).toNat) } ∧
        ∀ j, j < 64 → j ≠ k.val → vget (u.part p).queues j = vget (s.part p).queues j) ∧
      (s.window p = false → u = s)) ∧
  (∀ (s : State) (p : PartNo) (k : Nat), s.takesHost s.myDie = true → s.nextEntry s.myDie = some (p, k) → k < 64 →
    let q := vget (s.part p).queues k
    let bs := s.privBytes p (q.base + 0x140 * (q.head.toNat % (q.sizeM1 + 1))) 0x140
    let r := recordOf bs
    ∃ u l, exec .launchAccept s = .next u ∧ u.launches = s.launches ++ [l] ∧ l.id = s.nextLaunch ∧ u.nextLaunch = s.nextLaunch + 1 ∧ l.part = p ∧
      l.die.val = s.myDie ∧ (l.eligible = true ↔ l.ending = none ∧ ∀ g ∈ l.record.gates, g.2.2 = 0) ∧ l.gangs = [] ∧ vget (u.part p).queues k = { q with head := q.head + 1 } ∧
      (∀ c, recordCode bs false = some c → l.ending.map (fun e => (e.status, e.code)) = some (1, c)) ∧
      (recordCode bs false = none → r.items = 0 → l.ending.map (fun e => (e.status, e.code)) = some (0, 0)) ∧
      (recordCode bs false = none → r.items ≠ 0 →
        let code := s.laterCode p r (s.privBytes p r.image 64)
        (∀ c, code = some c → l.ending.map (fun e => (e.status, e.code)) = some (1, c)) ∧
        (code = none → l.ending = none ∧ l.items = r.items ∧ l.itemsDone = 0))) ∧
  (∀ (s : State) (c : Child) (rest : List Child), (s.die s.myDie).sump = c :: rest → 1 ≤ s.poolFree s.myDie → s.hostSumped s.myDie = false →
    ∃ u l, exec .sumpAdmit s = .next u ∧ (u.die s.myDie).sump = rest ∧ u.launches = s.launches ++ [l] ∧ l.part = c.part ∧ l.sumped = true ∧
      l.id = s.nextLaunch) ∧
  (∀ (s : State) (l : Launch) (tile idx n : Nat), s.launches = [l] → l.eligible = false → l.ending = none → l.record.gates = [(tile, idx, n)] →
    tile < 1152 → idx < 16 →
    ∃ u, exec .launchEligible s = .next u ∧
      (n ≤ (s.gate tile idx).toNat → u.launches = [{ l with eligible := true }] ∧ (u.gate tile idx).toNat = (s.gate tile idx).toNat - n) ∧
      ((s.gate tile idx).toNat < n → u = s)) ∧
  (∀ (s : State) (p : PartNo) (v : Word) (init : Bool) (i : Instr), i = (if init then .gateInit p v else .gateSig p v) →
    let tile := v.toNat / 2 ^ 16 % 2 ^ 11
    let idx := v.toNat % 16
    let n := v.toNat / 2 ^ 32
    ∃ u, exec i s = .next u ∧
      (s.window p = true → s.gateTile p tile = true →
        (u.gate tile idx).toNat = (if init then n else min 0xFFFFFFFF ((s.gate tile idx).toNat + n)) ∧
        ∀ t k, t < 1152 → k < 16 → (t ≠ tile ∨ k ≠ idx) → u.gate t k = s.gate t k) ∧
      ((s.window p = false ∨ s.gateTile p tile = false) → u = s)) ∧
  (∀ (s : State) (p : PartNo) (tiles : BitVec 1152) (lowest : Nat), (s.part p).created = false →
    (∀ q : PartNo, (s.part q).created = true → (s.part q).tiles &&& tiles = 0) → lowest < 1152 → tiles.getLsbD lowest = true →
    (∀ k, k < lowest → tiles.getLsbD k = false) →
    ∃ u, exec (.partitionCreate p tiles) s = .next u ∧
      u.part p = { Part.reset with created := true, tiles := tiles, cursors := vrep 8 lowest } ∧
      (∀ q : PartNo, q ≠ p → u.part q = s.part q) ∧
      ∀ t k, t < 1152 → k < 16 → u.gate t k = if tiles.getLsbD t then 0 else s.gate t k) ∧
  (∀ (s : State) (d : DieNo) (v : Word), s.hostUp = true →
    ∃ u, exec (.hsumpDone d v) s = .next u ∧ (u.die d.val).hostSump = (s.die d.val).hostSump.drop (v.toNat % 2 ^ 24))

/-- R41 to R44, R370 to R376 (01, 18): the placement made is that of the oldest entry of its level with a gang to place; its tiles are the first idle
ones from the level's cursor on, wrapping, and none of the tile set of an entry of a higher level that waits; a gang is placed rank by rank, and the
cursor moves past its last tile; a run becomes resident once its copies are in place, in the state of Table 2.2; its gang starts; an item commits, drains
and gives way to the next, or its run ends; a launch completes with the record of Table 18.5 and its signal. -/
def Obligations.PlacementEvents : Prop :=
  (∀ (s : State) (d : Nat) (p : Placement), s.nextPlacement d = some p →
    let l := p.launch
    let cursor := vget (s.part l.part).cursors l.record.prio
    let order := fun (t : TileNo) => if cursor ≤ t.val then t.val else t.val + 1152
    let usable := fun (t : TileNo) => t ∈ s.tileSet l.part l.record.dieMask ∧ s.takesRun t = true
    let pool := s.launches.filter fun (m : Launch) => m.die.val = d
    l ∈ pool ∧ l.ending = none ∧ l.eligible = true ∧ (p.gang = none → p.tiles.length = l.record.gangTiles ∧ l.nextGang < l.record.gangCount) ∧
    (∀ g, p.gang = some g → g ∈ l.gangs ∧ p.tiles.length = g.savedRanks) ∧
    (∀ t ∈ p.tiles, usable t) ∧ p.tiles.Pairwise (fun a b => order a < order b) ∧
    (∀ m ∈ pool, m.record.prio = l.record.prio → m.order < l.order → m.nextToPlace = none) ∧
    (∀ m ∈ pool, l.record.prio < m.record.prio → m.nextToPlace ≠ none →
      (∀ x ∈ pool, x.record.prio = m.record.prio → x.nextToPlace ≠ none → x = m ∨ m.order < x.order) →
      ∀ t ∈ p.tiles, t ∉ s.tileSet m.part m.record.dieMask) ∧
    ((∀ m ∈ pool, m.record.prio ≤ l.record.prio) → ∀ t, usable t → t ∉ p.tiles → ∀ u ∈ p.tiles, order u < order t)) ∧
  (∀ (s : State) (l : Launch), s.starved s.myDie = some l → s.launch l.id = some l →
    ∃ u l1, exec .gangPlacement s = .next u ∧ u.launch l.id = some l1 ∧ l1.ending.map (fun e => (e.status, e.code)) = some (1, 0x18) ∧
      l1.gangs = l.gangs) ∧
  (∀ (s : State) (p : Placement), s.starved s.myDie = none → s.nextPlacement s.myDie = some p → p.gang = none → p.tiles.Nodup →
    s.launch p.launch.id = some p.launch →
    ∃ u l1 g, exec .gangPlacement s = .next u ∧ u.launch p.launch.id = some l1 ∧ l1.nextGang = p.launch.nextGang + 1 ∧
      l1.gangs = p.launch.gangs ++ [g] ∧ g.index = p.launch.nextGang ∧ g.ranks = p.tiles.map RankPlace.onTile ∧
      (∀ last, p.tiles.getLast? = some last → ∀ k, k < 8 → vget (u.part p.launch.part).cursors k =
        if k = p.launch.record.prio then (last.val + 1) % 1152 else vget (s.part p.launch.part).cursors k) ∧
      ∀ k t, p.tiles[k]? = some t → ∃ r, (u.tile t).run = some r ∧ r.launch = p.launch.id ∧ r.gang = p.launch.nextGang ∧ r.rank = k ∧
        r.item = 0 ∧ r.wid = p.launch.record.wid p.launch.nextGang k 0 ∧ r.mailbox = p.launch.record.mailbox ∧ r.resident = false ∧
        r.started = false ∧ (u.tile t).priv.ctxState = 0b11) ∧
  (∀ (s : State) (r : Run), s.me.run = some r → r.resident = false → s.me.priv.ef.standing = false → s.me.priv.active = false →
    s.me.priv.ctxState = 0b11 →
    let ready := fun (u : State) => ∃ q, u.me.run = some q ∧ q.resident = true ∧ q.img = r.img ∧ q.wid = r.wid ∧ u.me.priv.ctxState = 0b00 ∧
      u.me.k.pos.addr = r.img.entry ∧ u.me.k.cycle = 0 ∧ u.me.k.infl = [] ∧ u.me.mx.acc = { vals := [], poison := [] } ∧
      (∀ j, j < 32 → vget u.me.k.n j = validWord 0) ∧ (∀ j, j < 64 → vget u.me.sems.cnt j = 0) ∧ (∀ j, j < 8 → vget u.me.shapes j = none)
    (r.staged = (s.residencyCopies r).length → ∃ u, exec .runResident s = .next u ∧ ready u ∧ u.me.spad = s.me.spad) ∧
    (∀ va n off l, s.residencyCopies r = [(va, n, off)] → r.staged = 0 → s.fetchPages r.part va n = .ok [(l, n)] →
      s.heldAt .read l = false → s.me.inp.stuck = [] → s.me.spad.wf = true →
      ∃ u, exec .runResident s = .next u ∧ ready u ∧ ∀ y, readCell u.me.spad.bytes y =
        if off ≤ y ∧ y < off + n then readCell (s.storeAt l).bytes (l.pa + (y - off))
        else if y < r.img.scratch then 0 else readCell s.me.spad.bytes y) ∧
    (∀ va n off f rest, s.residencyCopies r = (va, n, off) :: rest → r.staged = 0 → s.fetchPages r.part va n = .error f →
      ∃ u, exec .runResident s = .next u ∧ u.me.run = some r ∧ u.me.priv.ef.standing = true ∧ u.me.priv.ef.kind = f.1 ∧
        u.me.priv.ef.detail = f.2.1 ∧ u.me.priv.ef.va = f.2.2.1 ∧ ∃ a ∈ u.me.priv.async, a.cause = 0x20) ∧
    (∀ va n off l, s.residencyCopies r = [(va, n, off)] → r.staged = 0 → s.fetchPages r.part va n = .ok [(l, n)] → s.heldAt .read l = true →
      exec .runResident s = .next s)) ∧
  (∀ (s : State) (r : Run) (g : Gang), s.me.run = some r → s.gangOf r = some g → r.started = false → s.gangReady g = true →
    ∃ u, exec .gangStart s = .next u ∧ ∀ t : TileNo, (u.tile t).run = if t ∈ g.ranks.filterMap RankPlace.tile then
      (s.tile t).run.map (fun (x : Run) => { x with started := true, sc := 0, gate := some gateProducer }) else (s.tile t).run) ∧
  (∀ (s : State) (r : Run) (l : Launch), s.me.run = some r → s.me.mayCommit = true → s.launch r.launch = some l →
    ∃ u, exec .workItemComplete s = .next u ∧
      (r.drained = false → s.me.seg.mode = .run → u.me.run = some { r with drained := true } ∧ u.me.seg.number = s.me.seg.number + 1 ∧
        u.me.eng.held = [] ∧ u.me.seg.undo = []) ∧
      (r.drained = true → s.me.settled = true → r.item + 1 < r.items → ∃ q l1, u.me.run = some q ∧ q.item = r.item + 1 ∧
        q.wid = l.record.wid r.gang r.rank (r.item + 1) ∧ q.doneItems = r.doneItems + 1 ∧ q.itemEnded = false ∧ q.resident = r.resident ∧
        u.me.k.pos.addr = r.img.entry ∧ u.me.k.cycle = 0 ∧ u.me.mx.acc = s.me.mx.acc ∧ u.me.spad = s.me.spad ∧ u.me.sems = s.me.sems ∧
        u.launch r.launch = some l1 ∧ l1.itemsDone = l.itemsDone + 1) ∧
      (∀ g, r.drained = true → s.me.settled = true → r.items ≤ r.item + 1 → l.gangs = [g] → g.index = r.gang → g.ranks = [.onTile s.cur] →
        r.rank = 0 → u.me.run = none ∧ ∃ l1, u.launch r.launch = some l1 ∧ l1.itemsDone = l.itemsDone + 1 ∧ l1.gangs = [])) ∧
  (∀ (s : State) (id : Nat) (l : Launch) (e : Ending), s.launch id = some l → l.id = id → l.outcome = some e → s.completionHeld l = false →
    l.gangs = [] → (∀ m ∈ s.boot.marches, m.launch ≠ id) →
    ∃ u, exec (.launchCompletion id) s = .next u ∧ u.launches = s.launches.filter (fun (x : Launch) => x.id ≠ id) ∧
      (l.record.recEn = false → u.mem = s.mem) ∧
      (∀ leaf, l.record.recEn = true → l.record.recAddr % 64 = 0 → s.privWalk l.part l.record.recAddr = .ok leaf →
        let at_ := leaf.loc l.record.recAddr
        at_.host = false → s.homeCheck l.part at_ true = none → s.migrating at_ = false → s.mem.wf = true →
        e.status < 2 ^ 8 → e.code < 2 ^ 8 → e.cause < 2 ^ 8 → e.unitKind < 2 ^ 8 → e.unitPlace < 2 ^ 16 → l.preempts < 2 ^ 16 →
        ∃ bs, bs.length = 64 ∧ storedAt s.mem u.mem at_.pa bs ∧ ∀ k, k < 8 → leNat ((bs.drop (8 * k)).take 8) = (match k with
          | 0 => l.record.tag.toNat * 2 ^ 32 + e.status * 2 ^ 24 + e.code * 2 ^ 16 + e.killCode % 2 ^ 16
          | 1 => match l.img with | some i => i.kernelId.toNat | none => 0
          | 2 => l.itemsDone % 2 ^ 64
          | 3 => e.cause * 2 ^ 56 + e.unitKind * 2 ^ 48 + e.unitPlace * 2 ^ 32 + (if l.sumped then 2 ^ 17 else 0) + (if l.raised then 2 ^ 16 else 0) +
            l.preempts
          | 4 => l.accept % 2 ^ 64 | 5 => l.start % 2 ^ 64 | 6 => s.masterNow % 2 ^ 64 | _ => 0)) ∧
      (e.status = 0 → l.record.doneEn = true → l.record.doneSig.1 < 1152 → l.record.doneSig.2.1 < 16 →
        (u.gate l.record.doneSig.1 l.record.doneSig.2.1).toNat =
          min 0xFFFFFFFF ((s.gate l.record.doneSig.1 l.record.doneSig.2.1).toNat + l.record.doneSig.2.2)))

/-- R343, R346, R359, R378 to R384 (17, 18): PREEMPT asks for the pre-emption of a launch's resident gangs and a second one undoes it; KILL ends
a launch, a run whose tile's handler runs at its next boundary, and removes children that wait in a sump; a slice expires or begins again; a gang's rank
is ordered to save itself, and a saved rank enters its handler to load its context. That KILL reaches a sump, when the runs end, and the zero address and
cycle of cause 0x22 are the model's (logs 47, 64 and 109). -/
def Obligations.PreemptEvents : Prop :=
  (∀ (s : State) (p : PartNo) (v : Word) (l : Launch), s.window p = true → s.tagged p v = [l] → s.launch l.id = some l →
    (∃ u l1, exec (.preempt p v) s = .next u ∧ u.launch l.id = some l1 ∧
      (l.heldPreempt = true → l1.heldPreempt = false ∧ ∀ g ∈ l1.gangs, g.asked = false) ∧
      (l.heldPreempt = false → l.gangs.any Gang.isResident = true →
        l1.heldPreempt = true ∧ l1.gangs = l.gangs.map fun (g : Gang) => if g.isResident then { g with asked := true } else g) ∧
      (l.heldPreempt = false → l.gangs.any Gang.isResident = false → l1 = l)) ∧
    (∃ u, exec (.kill p v) s = .next u ∧
      (l.gangs = [] → l.ending = none → ∃ l1, u.launch l.id = some l1 ∧
        l1.ending.map (fun e => (e.status, e.killCode)) = some (2, v.toNat % 65536)) ∧
      (∀ g t r, l.gangs = [g] → g.ranks = [.onTile t] → l.ending = none → (s.tile t).run = some r → r.launch = l.id → r.gang = g.index →
        (s.tile t).priv.active = true → (s.tile t).priv.parked = false →
        (u.tile t).run = some { r with killed := true } ∧ ∃ l1, u.launch l.id = some l1 ∧ l1.gangs = [g] ∧
          l1.ending.map (fun e => (e.status, e.killCode)) = some (2, v.toNat % 65536)) ∧
      (∀ g t r, l.gangs = [g] → g.ranks = [.onTile t] → l.ending = none → (s.tile t).run = some r → r.launch = l.id → r.gang = g.index →
        (s.tile t).priv.active = false →
        (u.tile t).run = none ∧ (u.tile t).priv.ctxState = 0b11 ∧ (u.tile t).eng.queue = [] ∧ (u.tile t).eng.held = [] ∧
        (u.tile t).spad = (s.tile t).spad ∧ ∃ l1, u.launch l.id = some l1 ∧ l1.gangs = [] ∧
          l1.ending.map (fun e => (e.status, e.killCode)) = some (2, v.toNat % 65536)))) ∧
  (∀ (s : State) (p : PartNo) (v : Word),
    (s.window p = false ∨ s.tagged p v = [] → exec (.preempt p v) s = .next s) ∧
    (s.window p = false → exec (.kill p v) s = .next s) ∧
    (s.window p = true → ∃ u, exec (.kill p v) s = .next u ∧ ∀ d, d < 12 → (u.die d).sump = (s.die d).sump.filter fun (c : Child) =>
      decide (¬ (c.part = p ∧ (recordOf c.record).tag.toNat = v.toNat / 2 ^ 32)))) ∧
  (∀ (s : State) (r : Run) (l : Launch) (g : Gang), s.me.run = some r → s.launch r.launch = some l → s.gangOf r = some g →
    g.sliceEnd ≠ 0 → g.sliceEnd ≤ s.ns → s.gangHalted g = false → g.isResident = true →
    ∃ u g1, exec .sliceExpiry s = .next u ∧ u.gangOf r = some g1 ∧ g1.ranks = g.ranks ∧
      (s.sliceWanted l g = true → g1.expired = true ∧ g1.sliceEnd = g.sliceEnd) ∧
      (s.sliceWanted l g = false → g1.expired = false ∧ g1.sliceEnd = if l.record.slice = 0 then 0 else s.ns + 1024 * l.record.slice)) ∧
  (∀ (s : State) (l : Launch) (g : Gang) (t : TileNo) (slot : Nat), s.nextPreempt s.myDie = some (l, g) → g.ranks = [.onTile t] →
    s.launch l.id = some l → l.gangs.find? (fun (x : Gang) => x.index = g.index) = some g → (s.part l.part).freeSlot = some slot →
    ∃ u l1 g1, exec .gangPreemption s = .next u ∧ u.launch l.id = some l1 ∧ l1.gangs.find? (fun (x : Gang) => x.index = g.index) = some g1 ∧
      g1.ranks = [.saving t slot] ∧ g1.ordered = true ∧ slot ∈ (u.part l.part).ctxUsed ∧ l1.preempts = min 0xFFFF (l.preempts + 1) ∧
      ({ cause := 0x22, value := rankValue l.record.tag slot 0, addr := 0, cycle := 0, sub := 0 } : Async) ∈ (u.tile t).priv.async) ∧
  (∀ (s : State) (p : Placement) (g : Gang) (t : TileNo) (slot : Nat), s.nextPlacement s.myDie = some p → p.gang = some g →
    g.ranks = [.saved slot] → p.tiles = [t] → s.launch p.launch.id = some p.launch →
    p.launch.gangs.find? (fun (x : Gang) => x.index = g.index) = some g →
    ∃ u l1 g1, exec .gangRestore s = .next u ∧ u.launch p.launch.id = some l1 ∧
      l1.gangs.find? (fun (x : Gang) => x.index = g.index) = some g1 ∧ g1.ranks = [.restoring t slot] ∧ g1.ordered = false ∧
      (u.tile t).priv.active = true ∧ (u.tile t).priv.ctxState = (s.tile t).priv.ctxState ∧ (u.tile t).priv.trap.cause = 0x24 ∧
      (u.tile t).priv.trap.value = rankValue p.launch.record.tag slot 0 ∧ (u.tile t).priv.shadow.pos.addr = 64 * 0x24 ∧
      ∃ r, (u.tile t).run = some r ∧ r.launch = p.launch.id ∧ r.gang = g.index ∧ r.rank = 0 ∧ r.resident = false)

/-! ## Margins and resets (chapter 20) -/

/-- R405 to R413, R430, R473 (20, 24): MODE_SET, HSET, QUARANTINE and the governor's thresholds take the values that they may; a measurement
gives the rate and moves the voltage by 5 mV, the voltage standing between the floor and VCEIL; a hot junction, a power cap and a thermal trip take
effect. That an idle tile takes the mode at once, and that an HSET out of range changes nothing, are the model's (logs 50 and 51). -/
def Obligations.MarginEvents : Prop :=
  (∀ (s : State) (p : PartNo) (v : Word), s.window p = true →
    let mhz := v.toNat / 2 ^ 16 % 2 ^ 11
    let mode := v.toNat % 4
    ∃ u, exec (.modeSet p v) s = .next u ∧ (u.part p).triage = v.getLsbD 4 ∧
      (u.part p).fixedMhz = (if 800 ≤ mhz ∧ mhz ≤ 1300 then mhz else (s.part p).fixedMhz) ∧
      (u.part p).modeSet.toNat = (if mode = 3 then (s.part p).modeSet.toNat else mode) ∧
      ∀ t : TileNo, (s.part p).tiles.getLsbD t.val = true → s.partOf t = p →
        ((s.tile t).idle = true → (s.die (dieOf t)).nvFallback = false → (u.tile t).margin.mode = (u.part p).modeSet) ∧
        ((s.tile t).idle = false → u.tile t = s.tile t)) ∧
  (∀ (s : State) (p : PartNo) (v : Word) (t : TileNo), s.window p = true → t.val = v.toNat / 2 ^ 48 % 2 ^ 11 →
    (s.part p).tiles.getLsbD t.val = true →
    let mhz := v.toNat % 2 ^ 11
    let ok := (s.tile t).margin.mode = 2 ∧ 400 ≤ mhz ∧ mhz ≤ 1500
    ∃ u, exec (.hset p v) s = .next u ∧
      (ok → (u.tile t).margin.mhz = mhz ∧
        (u.tile t).margin.mv = max (s.tile t).margin.floor (min (Config.ceilMv (t.val / 96)) (v.toNat / 2 ^ 32 % 2 ^ 12))) ∧
      (¬ ok → u = s)) ∧
  (∀ (s : State) (d : DieNo) (v : Word) (t : TileNo), s.hostUp = true → v.toNat % 2 ^ 7 < 96 → t.val = d.val * 96 + v.toNat % 2 ^ 7 →
    ∃ u, exec (.quarantine d v) s = .next u ∧ (u.tile t).margin.state = 3 ∧
      ∀ r l g, (s.tile t).run = some r → s.launch r.launch = some l → l.gangs = [g] → g.index = r.gang → g.ranks = [.onTile t] →
        (u.tile t).run = none ∧ ∃ l1, u.launch r.launch = some l1 ∧ l1.gangs = [] ∧ l1.ending.isSome = true) ∧
  (∀ (s : State) (d : DieNo) (v : Word), s.hostUp = true →
    (∃ u, exec (.governorThresholds d true v) s = .next u ∧
      (u.die d.val).tbudget = if v.toNat % 256 = 0 then (s.die d.val).tbudget else v.toNat % 256) ∧
    (∃ u, exec (.governorThresholds d false v) s = .next u ∧
      let lo := v.toNat % 2 ^ 16
      let hi := v.toNat / 2 ^ 32 % 2 ^ 16
      (lo < hi → (u.die d.val).replayHi = hi ∧ (u.die d.val).replayLo = lo) ∧
      (hi ≤ lo → (u.die d.val).replayHi = (s.die d.val).replayHi ∧ (u.die d.val).replayLo = (s.die d.val).replayLo))) ∧
  (∀ (s : State) (t : TileNo), dieOf t = s.myDie → (s.tile t).margin.mode = 0 →
    let m := (s.tile t).margin
    let rate := m.replays * 10 ^ 9 / m.clks
    let hi := (s.die s.myDie).replayHi
    let lo := (s.die s.myDie).replayLo
    let ceil := Config.ceilMv s.myDie
    (rate ≤ hi ∨ m.mv < ceil) →
    ∃ u, exec .marginMeasurement s = .next u ∧ (u.die s.myDie).measured = s.ns ∧ (u.die s.myDie).budgetNow = (s.die s.myDie).tbudget ∧
      (u.tile t).margin.rate = rate ∧
      (u.tile t).margin.replays = 0 ∧ (u.tile t).margin.clks = 0 ∧
      (hi < rate → (u.tile t).margin.mv = max m.floor (min ceil (m.mv + 5))) ∧
      (rate ≤ hi → rate < lo → (u.tile t).margin.mv = max m.floor (min ceil (m.mv - 5))) ∧
      (rate ≤ hi → lo ≤ rate → (u.tile t).margin.mv = max m.floor (min ceil m.mv))) ∧
  (∀ (s : State) (d : DieNo) (hot : Bool),
    ∃ u, exec (.junctionThrottle d hot) s = .next u ∧ (u.die d.val).throttled = hot ∧ u.tiles = s.tiles ∧ u.mem = s.mem) ∧
  (∀ (s : State) (w : Nat),
    ∃ u, exec (.powerCap w) s = .next u ∧ u.gallery.capWatts = (if 2000 ≤ w ∧ w ≤ 4600 then w else s.gallery.capWatts) ∧ u.tiles = s.tiles) ∧
  (∀ s : State, ∃ u, exec .thermalTrip s = .next u ∧ u.stopped = true ∧ u.mem = s.mem)

/-- R414, R431 to R434, R441 (20, 21): a reset of a tile loses its contexts and keeps its handler store; a link failure, a hard error of an engine,
the failure of a die and the loss of the Gallery die are contained as their classes say. That a RESET_CMD changes nothing while a reset is under way, and
the zeros that a lost memory reads, are the model's choices (logs 52 and 5). -/
def Obligations.ResetEvents : Prop :=
  (∀ (s : State) (v : Word) (t : TileNo), s.hostUp = true → v.getLsbD 0 = true → s.gallery.resetBusy = false → v.toNat / 2 ^ 60 = 1 →
    t.val = v.toNat / 2 ^ 32 % 2 ^ 16 →
    ∃ u, exec (.resetCmd v) s = .next u ∧ u.gallery.resetBusy = true ∧ (u.tile t).run = none ∧ (u.tile t).spad = { bytes := [], poison := [] } ∧
      (u.tile t).mx.acc = { vals := [], poison := [] } ∧ (u.tile t).priv.parked = false ∧ (u.tile t).priv.hfault = 0 ∧
      (u.tile t).priv.handlers = (s.tile t).priv.handlers ∧ (u.tile t).survey.next = (s.tile t).survey.next ∧
      (u.tile t).eng.queue = [] ∧ (u.tile t).eng.held = []) ∧
  (∀ (s : State) (v : Word), s.hostUp = false ∨ v.getLsbD 0 = false ∨ s.gallery.resetBusy = true → exec (.resetCmd v) s = .next s) ∧
  (∀ s : State, ∃ u, exec .resetDone s = .next u ∧ u.gallery.resetBusy = false ∧ u.tiles = s.tiles ∧ ∀ d, d < 12 →
    ((u.die d).down = true → (s.die d).down = true) ∧ ((s.die d).refused = true → (u.die d).down = (s.die d).down) ∧
    (s.gallery.resetBusy = true → s.gallery.resetWord.toNat / 2 ^ 60 = 5 → s.gallery.resetWord.toNat / 2 ^ 32 % 2 ^ 16 = d →
      (s.die d).refused = false → (u.die d).down = false)) ∧
  (∀ (s : State) (l : Fin 28) (width : BitVec 2),
    ∃ u, exec (.linkFailure l width) s = .next u ∧ (vget u.gallery.links l.val).up = decide (width ≠ 3) ∧
      (vget u.gallery.links l.val).width = width ∧
      (vget u.gallery.links l.val).retrains.toNat =
        if width = 3 then (vget s.gallery.links l.val).retrains.toNat else min 0xFFFF ((vget s.gallery.links l.val).retrains.toNat + 1)) ∧
  (∀ (s : State) (t : TileNo),
    ∃ u, exec (.engineHardError (.tileEngines t)) s = .next u ∧ (u.tile t).eng.lag = [] ∧ (u.tile t).eng.held = [] ∧
      (u.tile t).eng.released = [] ∧ (u.tile t).eng.queue = [] ∧ (u.tile t).priv.ectl = [] ∧ (u.tile t).priv.ef.standing = false ∧
      (u.tile t).spad = (s.tile t).spad) ∧
  (∀ (s : State) (d : DieNo) (c : Fin 12) (t : TileNo) (r : Run) (l : Launch) (g : Gang), (∀ p : PartNo, (s.part p).rings.errSlots = 0) →
    s.atomicAt d.val c.val t = true → (s.tile t).run = some r → s.launch r.launch = some l → l.gangs = [g] → g.index = r.gang →
    g.ranks = [.onTile t] → (s.tile t).priv.active = false →
    ∃ u, exec (.engineHardError (.atomicEngine d c)) s = .next u ∧ (u.tile t).run = none ∧ u.mem = s.mem) ∧
  (∀ s : State, ∃ u, exec .dieFailure s = .next u ∧ (u.die s.myDie).down = true ∧ (u.die s.myDie).walker = [] ∧
    ∀ t : TileNo, dieOf t = s.myDie → (u.tile t).run = none ∧ (u.tile t).spad = { bytes := [], poison := [] } ∧
      (u.tile t).priv.handlers = (s.tile t).priv.handlers) ∧
  (∀ s : State, ∃ u, exec .galleryDieLoss s = .next u ∧ u.gallery.lost = true ∧ u.hostUp = false ∧ u.gallery.wtLocked = false ∧
    u.gallery.contributions = [] ∧ (∀ k, k < 16 → (vget u.gallery.ports k).up = false) ∧ u.masterNow = s.masterNow)

/-! ## The host and the Gallery die (chapters 14 and 21) -/

/-- R320 to R323, R432, R434, R436, R437, R440 (14, 20, 21): the host writes and reads device memory, over its link or with the Gallery die
lost through the management interface (log 54), a write to a frame that moves being held and ending the migration with result 0x3 (O37); a window register
reads back what was written in its bits; RING_TAIL and ERR_TAIL move within their rings; a survey report enters its ring behind a pad of zeros where it
would not reach to the ring's end, is dropped where it does not fit, or in overwrite mode passes over reports and pads, oldest first, until it fits, the
pad before it being the last (log 94). -/
def Obligations.HostEvents : Prop :=
  (∀ (s : State) (off : Nat) (data : List Byte),
    let pa := off / 0x1800000000 * 2 ^ 44 + off % 0x1800000000
    ∃ u, exec (.hostMemWrite off data) s = .next u ∧ u.tiles = s.tiles ∧
      (s.hostUp = true ∨ s.boot.booted = true ∧ s.gallery.lost = true → off + data.length ≤ 12 * 0x1800000000 → off % 0x1800000000 + data.length ≤ 0x1800000000 → s.mem.wf = true →
        (∀ k, k < data.length → s.migrating { host := false, pa := pa + k } = false) → storedAt s.mem u.mem pa data ∧ u.heldWrites = s.heldWrites) ∧
      (∀ m, s.hostUp = true ∨ s.boot.booted = true ∧ s.gallery.lost = true → off + data.length ≤ 12 * 0x1800000000 → data ≠ [] →
        off % 2 ^ 16 + data.length ≤ 2 ^ 16 → (s.die (homeDie pa)).mig = some m → m.old = pa / 2 ^ 16 * 2 ^ 16 →
        u.mem = s.mem ∧ (u.die (homeDie pa)).mig = some { m with spoiled := true } ∧ ∃ w : HeldWrite, u.heldWrites = s.heldWrites ++ [w] ∧
          w.part = none ∧ w.waiters = [] ∧ w.loc = { host := false, pa := pa } ∧ w.bytes.map Prod.fst = data) ∧
      ((s.hostUp = false ∧ (s.boot.booted = false ∨ s.gallery.lost = false) ∨ 12 * 0x1800000000 < off + data.length) → u = s)) ∧
  (∀ (s : State) (off n : Nat), (s.hostUp = true ∨ s.boot.booted = true ∧ s.gallery.lost = true) → off + n ≤ 12 * 0x1800000000 → off % 0x1800000000 + n ≤ 0x1800000000 →
    let pa := off / 0x1800000000 * 2 ^ 44 + off % 0x1800000000
    ∃ u, exec (.hostMemRead off n) s = .next u ∧ u.mem = s.mem ∧
      u.hostData = (List.range n).map fun k => readCell s.mem.bytes (pa + k)) ∧
  (∀ (s : State) (w : Window) (off : BitVec 17) (v m : Word), windowBits w off.toNat = some m →
    ∃ u, exec (.windowRegisterWrite w off v) s = .next u ∧
      (s.hostUp = true → (∀ p, w = .partition p → (s.part p).created = true) → u.windowRead w off.toNat = v &&& m ∧ u.tiles = s.tiles) ∧
      (s.hostUp = false → u = s)) ∧
  (∀ (s : State) (t : TileNo) (v : Word), (s.tile t).priv.active = true →
    let r := (s.part (s.partOf t)).rings
    ∃ u, exec (.ringTail t v) s = .next u ∧
      (v = r.ringHead → (u.part (s.partOf t)).rings.ringTail = v) ∧
      ((∃ x ∈ r.starts, x.1 = v) → (u.part (s.partOf t)).rings.ringTail = v) ∧
      (v ≠ r.ringHead → (∀ x ∈ r.starts, x.1 ≠ v) → (u.part (s.partOf t)).rings = r)) ∧
  (∀ (s : State) (p : PartNo) (v : Word), s.window p = true →
    ∃ u, exec (.errTail p v) s = .next u ∧ (u.part p).rings.errTail =
      if v.toNat ≤ (s.part p).rings.errHead.toNat then v else (s.part p).rings.errTail) ∧
  (∀ (s : State) (d : StepMark × Option LegRef × Nat × Nat × Word × Word) (rest : List (StepMark × Option LegRef × Nat × Nat × Word × Word)),
    s.me.survey.due = d :: rest →
    let p := s.partOf s.cur
    let r := (s.part p).rings
    let bytes := s.reportBytes p (s.place s.cur)
      { mark := d.1, ref := d.2.1, start := d.2.2.1, startCycle := d.2.2.2.1, kernelId := d.2.2.2.2.1, wid := d.2.2.2.2.2 } r.ctrsEn
    let n := bytes.length
    let size := r.ringPages * 4096
    let left := size - r.ringHead.toNat % size
    let pad := if left < n then left else 0
    let fits := fun (tail : Word) => (r.ringHead - tail).toNat + pad + n ≤ size
    let oldest := fun j => if j = 0 then r.ringTail else match r.starts[j]? with | some x => x.1 | none => r.ringHead
    let at_ := fun k => r.ringBase + (r.ringHead + BitVec.ofNat 64 k).toNat % size
    let open_ := fun (x : State) (va : Nat) (l : Leaf) => x.privWalk p va = .ok l ∧ (l.loc va).host = false ∧
      x.homeCheck p (l.loc va) true = none ∧ x.migrating (l.loc va) = false
    ∃ u, exec .surveyReportWrite s = .next u ∧ u.me.survey.due = rest ∧
      (r.ringPages = 0 → u.mem = s.mem ∧ (u.part p).rings = r) ∧
      (r.ringPages ≠ 0 → r.ringOverwrite = false → ¬ fits r.ringTail →
        (u.part p).rings.ringHead = r.ringHead ∧ (u.part p).rings.ringTail = r.ringTail ∧ (u.part p).rings.ringDrops = r.ringDrops + 1 ∧
        u.mem = s.mem) ∧
      (r.ringPages ≠ 0 → r.ringOverwrite = true ∨ fits r.ringTail → ∃ k, k ≤ r.starts.length ∧
        (u.part p).rings.ringHead = r.ringHead + BitVec.ofNat 64 (pad + n) ∧
        (u.part p).rings.ringDrops = r.ringDrops + BitVec.ofNat 64 ((r.starts.take k).filter Prod.snd).length ∧
        (∀ j, j < k → ¬ fits (oldest j)) ∧
        ((fits (oldest k) ∧ (u.part p).rings.ringTail = oldest k) ∨
          (¬ fits (oldest k) ∧ k = r.starts.length ∧ (u.part p).rings.ringTail = r.ringHead + BitVec.ofNat 64 pad))) ∧
      (∀ leaf, r.ringPages ≠ 0 → r.ringOverwrite = true ∨ fits r.ringTail → s.mem.wf = true →
        (pad = 0 → at_ 0 % 2 ^ 16 + n ≤ 2 ^ 16 → open_ s (at_ 0) leaf → storedAt s.mem u.mem (leaf.loc (at_ 0)).pa bytes) ∧
        (pad ≠ 0 → at_ 0 % 2 ^ 16 + 64 ≤ 2 ^ 16 → at_ pad % 2 ^ 16 + n ≤ 2 ^ 16 → open_ s (at_ 0) leaf →
          ∃ mid : State, storedAt s.mem mid.mem (leaf.loc (at_ 0)).pa (List.replicate 64 0) ∧
            ∀ leaf1, open_ mid (at_ pad) leaf1 → storedAt mid.mem u.mem (leaf1.loc (at_ pad)).pa bytes)))

/-- R442 to R445 (21): wall time never steps and is slewed by at most 200 ppm; a port comes up with its peer; GROUP_CFG configures a group and
discards its round; a contribution is refused, counted, or closes the round, whose result is written at DST. That DST is translated as by the first
contributor of the package, and that a peer makes one contribution, are the model's readings (logs 45 and 19). -/
def Obligations.FabricEvents : Prop :=
  (∀ (s : State) (m : TimingMessage), s.gallery.lost = false →
    ∃ u, exec (.wallTimeDiscipline m) s = .next u ∧ u.masterNow = s.masterNow ∧ -200 ≤ u.gallery.wtPpm ∧ u.gallery.wtPpm ≤ 200 ∧
      u.gallery.wtLocked = decide (m ≠ .lost) ∧ u.tiles = s.tiles ∧
      (∀ ns, m = .grandmaster ns → u.gallery.wtOffset = (s.masterNow : Int) - ns)) ∧
  (∀ (s : State) (k : Fin 16) (up : Bool) (peer : BitVec 5), s.gallery.lost = false →
    ∃ u, exec (.ualinkPortState k up peer) s = .next u ∧ (vget u.gallery.ports k.val).up = up ∧ (vget u.gallery.ports k.val).peer = peer ∧
      ∀ j, j < 16 → j ≠ k.val → vget u.gallery.ports j = vget s.gallery.ports j) ∧
  (∀ (s : State) (v : Word), s.hostUp = true →
    let g := s.gallery.group s.gallery.groupSel
    g.held = [] →
    ∃ u, exec (.groupCfg v) s = .next u ∧
      u.gallery.group s.gallery.groupSel = { g with
        valid := v.getLsbD 63, part := v.toNat / 2 ^ 56 % 2 ^ 4, members := v.toNat / 2 ^ 32 % 2 ^ 16, peers := v.setWidth 32, open_ := [], held := [] } ∧
      ∀ c t id a x, g.open_ = [c] → c.tile = some (t, id) → id < 2 ^ 32 → (s.tile t).eng.queue = [a] → a.cmd.id = id → a.cmd.body = .xfer x →
        (u.tile t).eng.queue = [{ a with
          done := true, rewound := true, cmd := { a.cmd with body := .xfer { x with sig := false, tagw := false } },
          loc := none, fault := some (3, 4), reported := false }]) ∧
  (∀ (s : State) (c : Contribution) (rest : List Contribution), s.gallery.lost = false → s.gallery.contributions = c :: rest →
    s.contributionStands c = true →
    let g := s.gallery.group c.group
    let c1 := { c with clk := s.wall / 500 }
    g.held = [] →
    ∃ u, exec (.rsendContribution (.flight 0)) s = .next u ∧ u.gallery.contributions = rest ∧
      (∀ t id a, s.gallery.refuses g c = true → c.tile = some (t, id) → id < 2 ^ 32 → (s.tile t).eng.queue = [a] → a.cmd.id = id →
        (u.tile t).eng.queue = [{ a with sent := false, wr := 0, locs := [], loc := none, fault := some (3, 4), reported := false }] ∧
        u.gallery.group c.group = g) ∧
      (s.gallery.refuses g c = false → (∀ o ∈ g.open_, o.place ≠ c.place) → g.open_.length + 1 < g.members →
        u.gallery.group c.group = { g with open_ := g.open_ ++ [c1] } ∧ u.mem = s.mem) ∧
      (s.gallery.refuses g c = false → (∃ o ∈ g.open_, o.place = c.place) →
        u.gallery.group c.group = { g with held := [c1] } ∧ u.mem = s.mem) ∧
      (∀ c0 l va, s.gallery.refuses g c = false → (∀ o ∈ g.open_, o.place ≠ c.place) → g.members ≤ g.open_.length + 1 →
        (g.open_ ++ [c1]).head? = some c0 →
        let p : PartNo := Fin.ofNat 16 g.part
        let data := reduceRound c0.rfmt c0.redop (g.open_ ++ [c1])
        (match (g.open_ ++ [c1]).find? fun (x : Contribution) => x.tile.isSome with
          | some x => x.at_
          | none => s.peerPages p c0.dst data.length) = [(l, va, data.length)] →
        s.homeCheck p l true = none → s.migrating l = false → (s.storeAt l).wf = true →
        u.gallery.group c.group = { g with open_ := [], held := [], rounds := g.rounds + 1 } ∧ storedAt (s.storeAt l) (u.storeAt l) l.pa data))

/-! ## Debugging (chapter 22) -/

/-- R449, R451 to R453, R456 to R459 (22): the commands of the debug command register stop, release and halt; a dump writes the image of a
stopped tile and a patch reads it back; the hashing engine writes a launch entry and an entry for each dirty page, of the bytes of Table 22.4, and in
compare mode compares them with the reference, reporting the first difference at DIV_RPT, or counting it where DIVERGED is set; DIVERGED is cleared. How
entries of unlike kinds compare, that a POISON flag which differs is a hash that does, and where the next launch entry stands are the model's readings
(log 56). -/
def Obligations.DebugEvents : Prop :=
  (∀ (s : State) (p : PartNo) (t : TileNo), s.window p = true → (s.part p).tiles.getLsbD t.val = true →
    let d := (s.tile t).dbg
    (∃ u, exec (.dbgStopTile p t) s = .next u ∧ (u.tile t).dbg =
      if d.stopKind = 0 ∨ d.stopKind = 4 then { d with askStop := true, single := false } else d) ∧
    (∃ u, exec (.dbgReleaseTile p t) s = .next u ∧ (u.tile t).dbg =
      if d.stopKind = 0 then d else { d with stopKind := 0, askStop := false, single := false, skip := true }) ∧
    (∃ u, exec (.dbgSingleIssue p t) s = .next u ∧ (u.tile t).dbg =
      if d.stopKind = 0 then d else { d with stopKind := 0, askStop := false, single := true, skip := true })) ∧
  (∀ (s : State) (p : PartNo) (t : TileNo), (s.window p = false ∨ (s.part p).tiles.getLsbD t.val = false) →
    exec (.dbgStopTile p t) s = .next s ∧ exec (.dbgReleaseTile p t) s = .next s ∧ exec (.dbgSingleIssue p t) s = .next s ∧
    exec (.dbgDump p t) s = .next s ∧ exec (.dbgPatch p t) s = .next s) ∧
  (∀ (s : State) (p : PartNo) (d : DieNo), s.window p = true →
    (∃ u, exec (.dbgHaltDie p d) s = .next u ∧ (u.die d.val).halted = true ∧ ∀ t : TileNo,
      (u.tile t).dbg.askHalt = if dieOf t = d.val ∧ (s.tile t).run.isSome = true then true else (s.tile t).dbg.askHalt) ∧
    (∃ u, exec (.dbgReleaseDie p d) s = .next u ∧ (u.die d.val).halted = false ∧ ∀ t : TileNo,
      (u.tile t).dbg.stopKind = if dieOf t = d.val ∧ (s.tile t).dbg.stopKind = 4 then 0 else (s.tile t).dbg.stopKind)) ∧
  (∀ (s : State) (p : PartNo) (t : TileNo) (l : Leaf), s.window p = true → (s.part p).tiles.getLsbD t.val = true →
    (s.tile t).dbg.stopKind ≠ 0 →
    let va := (s.tile t).dbg.dump
    va % 2 ^ 16 + 0xF000 ≤ 2 ^ 16 → s.privWalk p va = .ok l → (l.loc va).host = false → s.homeCheck p (l.loc va) true = none →
    s.migrating (l.loc va) = false → s.mem.wf = true →
    ∃ u bs, exec (.dbgDump p t) s = .next u ∧ bs.length = 0xF000 ∧ storedAt s.mem u.mem (l.loc va).pa bs ∧
      leNat (bs.take 4) = 0x43544B44 ∧ leNat ((bs.drop 0x18).take 8) = (s.tile t).k.cycle % 2 ^ 64 ∧
      ((s.tile t).k.infl = [] → ∀ j, j < 32 → leNat ((bs.drop (0x40 + 8 * j)).take 8) = (vget (s.tile t).k.n j).v.toNat)) ∧
  (∀ (s : State) (p : PartNo) (t : TileNo), s.window p = true → (s.part p).tiles.getLsbD t.val = true →
    let m := s.privBytes p (s.tile t).dbg.dump 0xF000
    (∀ (_ : (s.tile t).dbg.stopKind ≠ 0) (_ : leNat (m.take 4) = 0x43544B44),
      ∃ u, exec (.dbgPatch p t) s = .next u ∧ u.mem = s.mem ∧ (u.tile t).k.cycle = (s.tile t).k.cycle ∧
        (u.tile t).k.pos = (s.tile t).k.pos ∧ (u.tile t).spad = (s.tile t).spad ∧
        (∀ j, j < 32 → (vget (u.tile t).k.n j).v.toNat = leNat ((m.drop (0x40 + 8 * j)).take 8)) ∧
        vget (u.tile t).k.g 0 = vget (s.tile t).k.g 0) ∧
    ((s.tile t).dbg.stopKind = 0 ∨ leNat (m.take 4) ≠ 0x43544B44 → exec (.dbgPatch p t) s = .next s)) ∧
  (∀ (s : State) (id : Nat) (l : Launch), s.launch id = some l → l.outcome.isSome = true → l.hashed = false →
    ((s.part l.part).rings.divMode = 1 ∨ (s.part l.part).rings.divMode = 3 →
      ∃ u l1, exec (.divergenceHash id) s = .next u ∧ u.launch id = some l1 ∧ l1.hashed = true ∧
        (u.part l.part).rings.divWritten = (s.part l.part).rings.divWritten + BitVec.ofNat 32 (1 + l.dirty.length)) ∧
    ((s.part l.part).rings.divMode = 0 → exec (.divergenceHash id) s = .next s) ∧
    (∀ leaf, ((s.part l.part).rings.divMode = 1 ∨ (s.part l.part).rings.divMode = 3) → l.dirty = [] →
      let va := (s.part l.part).rings.divLog + 32 * (s.part l.part).rings.divWritten.toNat
      va % 2 ^ 16 + 32 ≤ 2 ^ 16 → s.privWalk l.part va = .ok leaf → (leaf.loc va).host = false → s.homeCheck l.part (leaf.loc va) true = none →
      s.migrating (leaf.loc va) = false → s.mem.wf = true →
      ∃ u, exec (.divergenceHash id) s = .next u ∧ storedAt s.mem u.mem (leaf.loc va).pa l.divEntry.bytes)) ∧
  (∀ (s : State) (l : Launch),
    let kernelId := match l.img with | some i => i.kernelId.toNat | none => 0
    let entry := fun (bs : List Byte) (w0 id hash : Nat) => bs.length = 32 ∧ leNat (bs.take 8) = w0 ∧ leNat ((bs.drop 8).take 8) = id ∧
      leNat (bs.drop 16) = hash
    ∃ es : List DivEntry, s.divEntries l = l.divEntry :: es ∧ es.length = l.dirty.length ∧
      entry l.divEntry.bytes (2 ^ 56 + l.dirty.length % 2 ^ 32) kernelId (l.record.tag.toNat * 2 ^ 96) ∧
      ∀ j page, l.dirty[j]? = some page → page < 2 ^ 48 →
        let cells := s.privRead l.part (page * 2 ^ 16) (2 ^ 16)
        let hash := leNat ((sha384 (cells.map fun b => if b.2 then 0xFF else b.1)).take 16)
        entry (es.getD j default).bytes (2 * 2 ^ 56 + (if cells.any Prod.snd then 2 ^ 8 else 0)) (page * 2 ^ 16)
          (if (s.part l.part).rings.divMode = 3 then 0 else hash)) ∧
  (∀ (s : State) (id : Nat) (l : Launch), s.launch id = some l → l.id = id → l.outcome.isSome = true → l.hashed = false →
    let p := s.part l.part
    p.rings.divMode = 2 →
    let es := s.divEntries l
    let ref := fun j => divEntryOf (s.privBytes l.part (p.rings.divRef + 32 * (p.divNext + j)) 32)
    let next := if (ref 0).kind = 1 then p.divNext + 1 + (ref 0).pages else p.divNext
    let reason := fun (e r : DivEntry) =>
      if r.kind ≠ 1 ∧ r.kind ≠ 2 then 4
      else if e.kind = 1 then (if r.kind = 1 ∧ r.id = e.id ∧ r.hash = e.hash then (if r.pages = e.pages then 0 else 3) else 2)
      else if r.kind = 2 ∧ r.id = e.id then (if r.hash = e.hash ∧ r.poison = e.poison then 0 else 1) else 3
    ∃ u l1, exec (.divergenceHash id) s = .next u ∧ u.launch id = some l1 ∧ l1.hashed = true ∧ (u.part l.part).divNext = next ∧
      (u.part l.part).rings.divWritten = p.rings.divWritten ∧
      ((∀ j e, es[j]? = some e → reason e (ref j) = 0) → l1.divHeld = l.divHeld ∧ (u.part l.part).diverged = p.diverged ∧
        (u.part l.part).rings.divMissed = p.rings.divMissed ∧ u.mem = s.mem) ∧
      ∀ j e, es[j]? = some e → reason e (ref j) ≠ 0 → (∀ i x, i < j → es[i]? = some x → reason x (ref i) = 0) →
        l1.divHeld = p.rings.divStop ∧ (u.part l.part).diverged = true ∧
        (p.diverged = true → (u.part l.part).rings.divMissed = p.rings.divMissed + 1 ∧ u.mem = s.mem) ∧
        (p.diverged = false → (u.part l.part).rings.divMissed = p.rings.divMissed) ∧
        ∀ leaf, p.diverged = false →
          let va := p.rings.divRpt
          va % 2 ^ 16 + 64 ≤ 2 ^ 16 → s.privWalk l.part va = .ok leaf → (leaf.loc va).host = false →
          s.homeCheck l.part (leaf.loc va) true = none → s.migrating (leaf.loc va) = false → s.mem.wf = true →
          e.id < 2 ^ 64 → e.hash.length = 16 → (ref j).hash.length = 16 →
          ∃ bs, bs.length = 64 ∧ storedAt s.mem u.mem (leaf.loc va).pa bs ∧ leNat (bs.take 8) = reason e (ref j) ∧
            leNat ((bs.drop 8).take 8) = (match l.img with | some i => i.kernelId.toNat | none => 0) ∧
            leNat ((bs.drop 16).take 8) = l.record.tag.toNat * 2 ^ 32 ∧ leNat ((bs.drop 24).take 8) = (if e.kind = 2 then e.id else 0) ∧
            (bs.drop 32).take 16 = e.hash ∧ bs.drop 48 = (ref j).hash) ∧
  (∀ (s : State) (o : Origin) (p : PartNo), s.originPart o = some p →
    ∃ u, exec (.divergedClear o) s = .next u ∧ (u.part p).diverged = false ∧ u.mem = s.mem ∧ u.tiles = s.tiles)

/-! ## Bring-up (chapter 24) -/

/-- R469 to R472, R475, R476, R480 (24): power-up leaves nothing resident, boots only accepted firmware, keeps a die whose firmware is not accepted in
reset, and launches the march on every die that has a tile to test, boot being over at once where none has; a march ends a repair or
the tile's service; an attestation report begins with the nonce and the wall time; a service command takes effect only where it is signed,
names this device and has a greater counter. Where the boot firmware places the march, the bytes of its image, WT_LOCKED and host memory after boot, the
tiles with STATE 5 and the memories that read zero are the model's choices (logs 89, 82, 57, 86 and 5). -/
def Obligations.BootEvents : Prop :=
  (∀ s : State, ∃ u, exec .powerOn s = .next u ∧ u.hostMem = s.hostMem ∧
    (∀ t : TileNo, (u.tile t).run = none ∧ (u.tile t).spad = { bytes := [], poison := [] }) ∧
    (s.boot.accepts 0 = false → u.launches = [] ∧ u.mem = { bytes := [], poison := [] } ∧ u.boot.booted = false) ∧
    (s.boot.accepts 0 = true →
      let ds := (List.range 12).filter fun d => !(u.marchTiles d).isEmpty
      u.gallery.wtLocked = true ∧ u.boot.booted = ds.isEmpty ∧ u.launches.map (fun (l : Launch) => l.die.val) = ds ∧
      u.boot.marches.map (fun (m : March) => (m.die, m.tiles, m.again)) = ds.map (fun d => (d, u.marchTiles d, [])) ∧
      (∀ d ∈ ds, ∀ k, k < marchImage.length → readCell u.mem.bytes (d * 2 ^ 44 + 0x40000 + k) = marchImage.getD k 0) ∧
      ∀ t : TileNo,
        (s.boot.accepts 13 = true ∧ s.boot.accepts (dieOf t + 1) = true → (u.tile t).margin.mode = 1 ∧ (u.tile t).margin.mhz = 1300 ∧
          (u.tile t).margin.mv = Config.curveMv (u.tile t).margin.curve 1300 + Config.guardBand) ∧
        (s.boot.accepts 13 = false ∨ s.boot.accepts (dieOf t + 1) = false →
          u.boot.excluded.getLsbD t.val = true ∧ (u.tile t).priv.handlers = [] ∧ (u.die (dieOf t)).down = true))) ∧
  (∀ (m : Margin) (status : Nat) (again : Bool) (nfail : Nat) (rows : List Nat),
    let r := m.marched status again (nfail, rows)
    (status = 0 → nfail = 0 → r.1.state = (if m.state = 5 then 0 else m.state) ∧ r.1.repair = m.repair) ∧
    (status ≠ 0 → r.1.state = (if m.state = 5 then m.before else 2) ∧ r.1.repair = m.repair ∧ r.2 = false) ∧
    (status = 0 → 16 < nfail ∨ (nfail ≠ 0 ∧ again = true) → r.1.state = (if m.state = 5 then m.before else 2) ∧ r.2 = false) ∧
    (status = 0 → nfail ≠ 0 → (∀ k, k < 16 → (vget m.repair k).getLsbD 15 = true → vget r.1.repair k = vget m.repair k) ∧
      ∀ row ∈ rows, row < 2 ^ 12 → repaired r.1.repair row = true ∨ ∀ k, k < 16 → (vget r.1.repair k).getLsbD 15 = true) ∧
    (∀ row k, status = 0 → nfail = 1 → again = false → rows = [row] → repaired m.repair row = false → k < 16 →
      (vget m.repair k).getLsbD 15 = false → (∀ j, j < k → (vget m.repair j).getLsbD 15 = true) →
      r.2 = true ∧ r.1.state = m.state ∧ r.1.repair = vset m.repair k (BitVec.ofNat 16 (0x8000 + row % 4096)))) ∧
  (∀ (b : Boot) (k : Nat),
    let m := b.images.getD k []
    let kind := if k = 0 then 1 else if k ≤ 12 then 2 else 3
    let n := leNat ((m.drop 0x10).take 8)
    (b.accepts k = true ↔ 0x108 ≤ m.length ∧ leNat (m.take 4) = 0x46574B31 ∧ leNat ((m.drop 4).take 4) = kind ∧
      sha384 ((m.drop 0x48).take 96) = b.rootHash ∧ ecdsaVerifies ((m.drop 0x48).take 96) ((m.drop 0xA8).take 96) (m.take 0xA8) = true ∧
      ((m.drop 0x108).take n).length = n ∧ (m.drop 0x18).take 48 = sha384 ((m.drop 0x108).take n) ∧
      (vget b.svnMin (kind - 1)).toNat ≤ leNat ((m.drop 8).take 8))) ∧
  (∀ (s : State) (nonce : BitVec 256),
    (s.boot.firmwareOk = true → s.gallery.lost = false → ∃ u, exec (.attestationRequest nonce) s = .next u ∧
      u.boot.report.take 40 = leBytes 32 nonce.toNat ++ leBytes 8 s.masterNow ∧ u.tiles = s.tiles ∧ u.mem = s.mem) ∧
    (s.boot.firmwareOk = false ∨ s.gallery.lost = true → exec (.attestationRequest nonce) s = .next s)) ∧
  (∀ (s : State) (c : ServiceCommand),
    let ok := s.boot.firmwareOk = true ∧ Config.serviceSigned c = true ∧ c.serial = Config.serial ∧ s.boot.svcCounter < c.counter
    (ok → ∃ u, exec (.serviceCommand c) s = .next u ∧ u.boot.svcCounter = c.counter ∧
      (∀ k v, c.action = .raiseSvn k v → u.tiles = s.tiles ∧
        (vget u.boot.svnMin k.val).toNat = max (vget s.boot.svnMin k.val).toNat v.toNat) ∧
      (∀ t, c.action = .returnTile t → u.boot.svnMin = s.boot.svnMin ∧ (u.tile t).margin.state =
        if (s.tile t).margin.state = 1 ∨ (s.tile t).margin.state = 2 ∨ (s.tile t).margin.state = 3 then 5 else (s.tile t).margin.state)) ∧
    (¬ ok → exec (.serviceCommand c) s = .next s))

/-! ## Segments, causes and contexts (chapters 17, 20 and 22) -/

/-- R418, R419, R423, R426 to R430 (20): a segment entry closes the open segment, releases what it held and takes the checkpoint; a rewind
restores the checkpoint and the lines of the undo log; a transient verdict lets the tile go on, a fatal one quarantines and ends the launch, by way of the
handler with ERR_TRAP_EN 1. That the freeze takes exactly 4 clk at C1 to C3, and a rewind exactly 8 clk and one for each line, is the model's choice (log
75). -/
def Obligations.SegmentEvents : Prop :=
  (∀ s : State, s.me.priv.active = false → s.me.clear = true → s.me.entryNeeded = true → s.me.seg.pendEvents = [] → s.me.seg.verdict = none →
    s.me.mx.queue = [] → s.me.eng.lag = [] → s.me.eng.queue = [] → s.me.eng.released = [] →
    (s.me.seg.mode = .run ∨ (s.me.seg.mode = .decide ∧ ∃ r, s.me.seg.recorded = some r ∧ (r.check ≠ .poison ∨ s.me.seg.reached = false))) →
    (s.me.eng.held = [] ∨ ∃ c x, s.me.eng.held = [c] ∧ c.body = .xfer x) →
    ∃ u, exec .segmentEntry s = .next u ∧ u.me.seg.mode = .run ∧ u.me.seg.number = s.me.seg.number + 1 ∧
      u.me.seg.entryAddr = s.me.resolve.1.k.pos.addr ∧ u.me.seg.entryCycle = s.me.k.cycle ∧ u.me.seg.pendingEntry = false ∧
      u.me.seg.undo = [] ∧ u.me.seg.overflow = false ∧ u.me.seg.legs = [] ∧ u.me.seg.marks = [] ∧ u.me.seg.recorded = none ∧
      (s.me.seg.mode = .decide → u.me.seg.lastVerdict = 4) ∧
      u.me.eng.held = [] ∧ u.me.eng.queue = s.me.eng.held.map Active.start ∧
      u.me.k = { s.me.resolve.1.k with pos := { s.me.resolve.1.k.pos with boundary := false } } ∧
      (∃ c, u.me.seg.chk = some c ∧ c.k = u.me.k ∧ c.vec = u.me.vec ∧ c.shapes = u.me.shapes ∧ c.mx = u.me.mx) ∧
      vget u.me.counters.freeze 3 = vget s.me.counters.freeze 3 + (if s.me.img.coverage = 0 then 0 else 4 - s.me.seg.freezeLeft)) ∧
  (∀ (s : State) (e : Event) (c : Saved), s.me.live = true → s.me.seg.pendEvents = [e] → e.takenAfter < s.me.mx.cyc →
    s.me.seg.mode = .run → s.me.seg.events < 2 → s.me.seg.chk = some c →
    ∃ u, exec .segmentRewind s = .next u ∧ u.me.k = c.k ∧ u.me.vec = c.vec ∧ u.me.shapes = c.shapes ∧ u.me.mx.acc = c.mx.acc ∧
      u.me.seg.mode = .decide ∧ u.me.seg.recorded = some e ∧ u.me.seg.rewinds = s.me.seg.rewinds + 1 ∧
      u.me.seg.events = s.me.seg.events + 1 ∧ u.me.seg.undo = [] ∧ u.me.seg.pendEvents = [] ∧
      (∀ x ∈ u.me.eng.held, x ∈ s.me.eng.held ∧ x.segNo < s.me.seg.number) ∧
      u.me.margin.clks = s.me.margin.clks + 8 + s.me.seg.undo.length ∧
      (s.me.seg.undo = [] → u.me.spad = s.me.spad) ∧
      (∀ x, s.me.seg.undo = [x] → x.bytes.length = 64 → s.me.spad.wf = true → storedAt s.me.spad u.me.spad (64 * x.line) x.bytes)) ∧
  (∀ (s : State) (e : Event), s.me.live = true → s.me.seg.pendEvents = [e] → e.takenAfter < s.me.mx.cyc → s.me.seg.mode = .unprot →
    ∃ u, exec .segmentRewind s = .next u ∧ u.me.seg.lastVerdict = 0xC ∧ u.me.seg.lastCause = 5) ∧
  (∀ (s : State) (code : Nat) (e : Event), s.me.live = true → s.me.seg.mode = .decide → s.me.seg.verdict = some (code, e) →
    e.takenAfter < s.me.mx.cyc → s.me.stopDue = none →
    ∃ u, exec .deciderVerdict s = .next u ∧ u.me.seg.lastVerdict = code ∧
      (code < 8 → u.me.k = s.me.k ∧ u.me.seg.recorded = none ∧ u.me.seg.verdict = none ∧ u.me.run = s.me.run ∧
        u.me.seg.mode = if s.me.seg.overflow then .unprot else .run) ∧
      (8 ≤ code → s.me.priv.errTrapEn = true → u.me.seg.fatal = some (code, e) ∧ u.me.run = s.me.run ∧
        (code ≠ 0xC → e.check = .checker → (s.part (s.partOf s.cur)).triage = false → u.me.margin.state = 3) ∧
        ∃ a ∈ u.me.priv.async, a.cause = 0x23 ∧ a.addr = e.addr ∧ a.cycle = e.cycle) ∧
      ∀ r l g, 8 ≤ code → code ≠ 0xC → s.me.priv.errTrapEn = false → e.check = .checker → (s.part (s.partOf s.cur)).triage = false →
        s.me.run = some r → s.launch r.launch = some l → l.gangs = [g] → g.index = r.gang → g.ranks = [.onTile s.cur] → l.ending = none →
        u.me.run = none ∧ u.me.margin.state = 3 ∧
        ∃ l1 x, u.launch r.launch = some l1 ∧ l1.gangs = [] ∧ l1.ending = some x ∧ x.status = 3)

/-- R343, R344, R346, R348, R352, R394 (17, 19), R449, R450 (22): a cause taken at a boundary of the kernel writes the trap registers, keeps the
kernel context and enters the handler at 64 × CAUSE after 6 clk; the watchdog raises cause 0x21; a debug stop stands. That an after-issue cause comes before
a fall-through at the same boundary, and the order of debug stops that coincide (brk, single issue, stop, halt, the lowest comparator), are the model's
choices (logs 77 and 110). -/
def Obligations.BoundaryTraps : Prop :=
  (∀ (s : State) (a : After) (rest : List After), s.me.trapDue = true → s.me.priv.after = a :: rest → a.cause < 0x20 →
    ∃ u, exec .trapTaken s = .next u ∧ s.entersHandler u a.cause ∧ u.me.k = s.me.k ∧ u.me.vec = s.me.vec ∧ u.me.spad = s.me.spad ∧
      u.me.priv.after = [] ∧ vget u.me.counters.freeze 0 = vget s.me.counters.freeze 0 + 6 ∧
      u.me.priv.trap = { cause := a.cause, sub := a.sub, slot := a.slot, async := false, value := a.value, addr := a.addr, cycle := a.cycle }) ∧
  (∀ (s : State) (p : Passed), s.me.trapDue = true → s.me.running = true → s.me.priv.after = [] → s.me.resolve.2 = some p →
    ∃ u, exec .trapTaken s = .next u ∧ s.entersHandler u 1 ∧ u.me.k = s.me.k ∧
      u.me.priv.trap =
        { cause := 1, sub := 0xB, slot := 15, async := false, value := BitVec.ofNat 64 p.last, addr := p.addr, cycle := p.cycle }) ∧
  (∀ (s : State) (a : Async), s.me.trapDue = true → s.me.priv.after = [] → (s.me.running = true → s.me.resolve.2 = none ∧ s.me.stopDue = none) →
    s.me.asyncDue = some a → 0x20 ≤ a.cause → a.cause < 0x24 →
    ∃ u, exec .trapTaken s = .next u ∧ s.entersHandler u a.cause ∧ a ∉ u.me.priv.async ∧ u.me.spad = s.me.spad ∧
      u.me.k = (if a.cause = 0x21 then { s.me.k with pos := Position.fresh s.me.k.pos.addr } else s.me.k) ∧
      u.me.priv.trap = { cause := a.cause, sub := a.sub, slot := 15, async := true, value := a.value, addr := a.addr, cycle := a.cycle }) ∧
  (∀ (s : State) (m : Miss) (copy : Bool), s.me.trapDue = true → s.me.priv.after = [] →
    (s.me.running = true → s.me.resolve.2 = none ∧ s.me.stopDue = none) → s.me.asyncDue = none → s.me.xlat.firmware = some (m, copy) →
    ∃ u, exec .trapTaken s = .next u ∧ s.entersHandler u 0x30 ∧ u.me.priv.walkEntry = true ∧ u.me.priv.trap = s.me.priv.trap ∧ u.me.k = s.me.k ∧
      u.me.xlat.walkVa = m.va ∧ vget u.me.counters.freeze 4 = vget s.me.counters.freeze 4 + 6) ∧
  (∀ (s : State) (k : Nat), s.me.running = true → s.me.priv.wdogEn = true → s.me.priv.wdogLimit ≠ 0 →
    s.me.priv.wdogLimit.toNat * 1024 ≤ s.me.priv.wdogNs → s.me.priv.waitSem = some k →
    ∃ u, exec .semaphoreWaitWatchdog s = .next u ∧ u.me.k = s.me.k ∧
      ({ cause := 0x21, value := BitVec.ofNat 64 k, addr := s.me.k.pos.addr, cycle := s.me.k.cycle, sub := 0 } : Async) ∈ u.me.priv.async) ∧
  (∀ s : State, (s.me.priv.wdogEn = false ∨ s.me.priv.wdogLimit = 0 ∨ s.me.priv.waitSem = none ∨
      s.me.priv.wdogNs < s.me.priv.wdogLimit.toNat * 1024) → exec .semaphoreWaitWatchdog s = .next s) ∧
  (∀ s : State, s.me.dbg.stopKind = 0 → s.me.running = true → s.me.earlierItem = false →
    let d := s.me.dbg
    let next : Tile := { s.me with k := { s.me.k with pos := { s.me.k.pos with waits := 0 } } }
    let stops := fun (kind value : Nat) => ∃ u, exec .debugStop s = .next u ∧ u.me.dbg.stopKind = kind ∧
      u.me.dbg.stopValue = BitVec.ofNat 32 value ∧ u.me.k = s.me.k ∧ u.me.priv = s.me.priv ∧ u.me.spad = s.me.spad ∧
      (kind ≠ 1 → u.me.dbg.stopAddr = next.resolve.1.k.pos.addr ∧ u.me.dbg.stopCycle = s.me.k.cycle)
    (∀ c, d.brkCode = some c → stops 1 c) ∧
    (d.brkCode = none → d.single = true → d.skip = false → stops 5 0) ∧
    (d.brkCode = none → d.single = false ∨ d.skip = true → d.askStop = true → stops 3 0) ∧
    (d.brkCode = none → d.single = false ∨ d.skip = true → d.askStop = false → d.askHalt = true → stops 4 0) ∧
    (∀ a k, d.brkCode = none → d.single = false → d.askStop = false → d.askHalt = false → d.skip = false → s.me.aboutToIssue = some a → k < 4 →
      let hit := fun j => (vget d.comps j).en = true ∧ (vget d.comps j).addr.toNat = a ∧
        ((vget d.comps j).cyc = true → (vget d.comps j).cycle.toNat = s.me.k.cycle)
      hit k → (∀ j, j < k → ¬ hit j) → stops 2 k)) ∧
  (∀ s : State, s.me.dbg.stopKind ≠ 0 → s.me.resident = true →
    ∃ u, exec .debugStop s = .next u ∧ u.me.k = s.me.k ∧ u.me.dbg = s.me.dbg ∧
      vget u.me.counters.freeze 1 = vget s.me.counters.freeze 1 + 1)

/-- R342, R349, R357, R359, R381 (17, 18): a ctxsave leaves the context image in the save bay; an ectl transfer moves its bytes page by page, the image of
the save bay (bayout, bayin), scratchpad bytes from 0 on (spout, spin) or the accumulator store by number (accout, accin), or reports its fault; a kill ends the run; a write of RESUME moves the kernel; the signal log is read in order. -/
def Obligations.ContextEvents : Prop :=
  (∀ (s : State) (a : Word), s.me.priv.saving = some a → s.gangDrained s.cur = true → s.me.spad.wf = true →
    ∃ u bs, exec .contextSaveDone s = .next u ∧ u.me.priv.ctxState = 0b10 ∧ u.me.priv.saving = none ∧ bs.length = 0xF000 ∧
      storedAt s.me.spad u.me.spad Config.saveBay bs ∧ leNat (bs.take 4) = 0x43544B31 ∧ leNat ((bs.drop 0x30).take 8) = a.toNat ∧
      leNat ((bs.drop 0x18).take 8) = s.me.k.cycle % 2 ^ 64 ∧
      ∀ j, j < 32 → leNat ((bs.drop (0x40 + 8 * j)).take 8) = (vget s.me.k.n j).v.toNat) ∧
  (∀ s : State, (s.me.priv.saving = none ∨ s.gangDrained s.cur = false) → exec .contextSaveDone s = .next s) ∧
  (∀ (s : State) (e : Ectl) (rest : List Ectl) (ls : List (Loc × Nat)) (f : Nat → Nat), s.me.priv.ectl = e :: rest → e.fault = none →
    s.ectlPages (s.partOf s.cur) e = .ok ls →
    (∀ l ∈ ls, l.1.host = false ∧ s.heldAt (if e.outward then .write else .read) l.1 = false) →
    (∀ j, pageByte ls j = if j < e.len then some (f j) else none) → (∀ i j, i < e.len → j < e.len → f i = f j → i = j) →
    s.me.inp.stuck = [] →
    let acc := fun (x : State) k => x.me.mx.acc.get k
    let out := fun (u : State) (byte : Nat → Byte) => u.me.spad = s.me.spad ∧ u.me.mx.acc = s.me.mx.acc ∧
      (∀ j, j < e.len → readCell u.mem.bytes (f j) = byte j) ∧
      ∀ y, (∀ j, j < e.len → f j ≠ y) → readCell u.mem.bytes y = readCell s.mem.bytes y
    let moved := (List.range e.len).map fun j => readCell s.mem.bytes (f j)
    ∃ u, exec .ectlTransferComplete s = .next u ∧ u.me.priv.ectl = rest ∧
      (e.minor = 0 → e.len = 0xF000 → s.mem.wf = true → out u fun j => readCell s.me.spad.bytes (Config.saveBay + j)) ∧
      (e.minor = 2 → s.mem.wf = true → out u fun j => readCell s.me.spad.bytes j) ∧
      (e.minor = 4 → e.len = 0x40000 → s.mem.wf = true →
        out u fun j => BitVec.ofNat 8 ((acc s (j / 4)).v.toNat / 2 ^ (8 * (j % 4)))) ∧
      (e.minor = 1 → e.len = 0xF000 → s.me.spad.wf = true → u.mem = s.mem ∧ u.me.mx.acc = s.me.mx.acc ∧
        storedAt s.me.spad u.me.spad Config.saveBay moved) ∧
      (e.minor = 3 → s.me.spad.wf = true → u.mem = s.mem ∧ u.me.mx.acc = s.me.mx.acc ∧ storedAt s.me.spad u.me.spad 0 moved) ∧
      (e.minor = 5 → e.len = 0x40000 → u.mem = s.mem ∧ u.me.spad = s.me.spad ∧ ∀ k, k < 0x10000 →
        (if (List.range 4).any fun i => s.mem.poison.contains (f (4 * k + i) / 8) then (acc u k).tag.isPoison = true
         else acc u k = { v := BitVec.ofNat 32 (leNat ((List.range 4).map fun i => readCell s.mem.bytes (f (4 * k + i)))), tag := .valid }))) ∧
  (∀ (s : State) (e : Ectl) (rest : List Ectl) (k d va pa : Nat), s.me.priv.ectl = e :: rest → e.fault = none →
    s.ectlPages (s.partOf s.cur) e = .error (k, d, va, pa) → s.me.priv.ef.standing = false →
    ∃ u, exec .ectlTransferComplete s = .next u ∧ u.me.priv.ectl = { e with fault := some (k, d) } :: rest ∧ u.mem = s.mem ∧
      u.me.spad = s.me.spad ∧ u.me.priv.ef.standing = true ∧ u.me.priv.ef.kind = k ∧ u.me.priv.ef.detail = d ∧ u.me.priv.ef.va = va ∧
      u.me.priv.ef.handler = true) ∧
  (∀ (s : State) (f : FormGAB) (r : Run) (l : Launch) (g : Gang), s.me.priv.active = true → s.unhindered (.ectlKill f) → s.steady →
    s.on (.ectlKill f) → (s.env (.ectlKill f)).joined = .valid → s.me.seg.fatal = none → s.me.run = some r → s.launch r.launch = some l →
    l.gangs = [g] → g.index = r.gang → g.ranks = [.onTile s.cur] → l.ending = none →
    ∃ u l1, exec (.ectlKill f) s = .next u ∧ u.me.run = none ∧ u.me.priv.ctxState = 0b11 ∧ u.launch r.launch = some l1 ∧ l1.gangs = [] ∧
      l1.ending = some { status := 2, code := 0, killCode := (s.env (.ectlKill f)).b.v.toNat % 2 ^ 16, cause := 0, unitKind := 0, unitPlace := 0 }) ∧
  (∀ (s : State) (t : TileNo) (v : Word),
    ((s.tile t).priv.active = true → v.toNat / 2 ^ 43 % 4 = 0 → ∃ u, exec (.resumeWrite t v) s = .next u ∧
      (u.tile t).k = { (s.tile t).k with pos := Position.fresh (v.toNat % 2 ^ 32) } ∧
      (u.tile t).priv = { (s.tile t).priv with waitSem := none, wdogNs := 0 }) ∧
    ((s.tile t).priv.active = false ∨ v.toNat / 2 ^ 43 % 4 ≠ 0 → ∃ u, exec (.resumeWrite t v) s = .next u ∧ (u.tile t).k = (s.tile t).k)) ∧
  (∀ (s : State), ∃ u, exec .signalLog s = .next u ∧ u.me.priv.sigLog = s.me.priv.sigLog.tail ∧ u.me.priv.sigLost = false ∧
    (s.me.priv.sigLog = [] → u.me.priv.sigCount = s.me.priv.sigCount ∧
      u.hostData = leBytes 8 (if s.me.priv.sigLost then 2 ^ 62 else 0)) ∧
    ∀ e rest, s.me.priv.sigLog = e :: rest → u.me.priv.sigCount = e.count ∧
      u.hostData = leBytes 8 (2 ^ 63 + (if s.me.priv.sigLost then 2 ^ 62 else 0) + e.src.toNat * 2 ^ 32 + (if e.st then 2 ^ 6 else 0) + e.sem % 64))

/-! ## What an issue leaves as it was -/

/-- R50, R52, R61, R109, R159, R162 (02, 04, 07): a slot operation that issues writes no named register but its destination, no guard but those of its
pair, no vector register and no mask before its latency ends, and leaves the results in flight and the context that does not issue; but end discards
what is in flight, and hunbind the binds of its register that were issued before it or with it. -/
def Obligations.RegisterFrame : Prop :=
  ∀ (s : State) (i : Instr), i.isSlot = true → s.unhindered i → s.calm →
    (∀ f, i ≠ .rft f) → (∀ f, i ≠ .ctxload f) → (∀ f, i ≠ .ectlKill f) →
    ∃ t, exec i s = .next t ∧
      (∀ k, k < 32 → k ≠ (destSpec i.dest).toNat → vget t.me.ctx.n k = vget s.me.ctx.n k) ∧
      (∀ k, k < 16 → writesPair i ≠ some (k / 2) → vget t.me.ctx.g k = vget s.me.ctx.g k) ∧ vget t.me.ctx.g 0 = vget s.me.ctx.g 0 ∧
      t.me.vec.v = s.me.vec.v ∧ t.me.vec.m = s.me.vec.m ∧ t.me.vec.vq = s.me.vec.vq ∧
      ((∀ f, i ≠ .endItem f) → ∀ e ∈ s.me.ctx.infl, (∀ f, i = .hunbind f → ∀ sh, e.res ≠ .bind f.h.toNat sh) → e ∈ t.me.ctx.infl) ∧
      (∀ f, i = .hunbind f → s.me.priv.active = false → s.on i → ∀ e ∈ t.me.ctx.infl, ∀ sh, e.res = .bind f.h.toNat sh →
        s.me.ctx.cycle < e.issued) ∧
      (∀ e ∈ t.me.ctx.infl, e ∈ s.me.ctx.infl ∨ (e.slot = s.curSlot ∧ e.issued = s.me.ctx.cycle)) ∧
      (pushes i = none → t.me.ctx.sq = s.me.ctx.sq) ∧
      (i.kind ≠ some .C → t.me.ctx.seq = s.me.ctx.seq) ∧
      ((s.me.priv.active = true ∧ t.me.k.n = s.me.k.n ∧ t.me.k.g = s.me.k.g ∧ t.me.k.infl = s.me.k.infl ∧ t.me.k.cycle = s.me.k.cycle) ∨
        (s.me.priv.active = false ∧ t.me.priv.shadow = s.me.priv.shadow))

/-- R160, R213, R219, R220, R223, R267 (07, 10, 12): an operation other than a store and a local atomic writes no byte of the scratchpad,
and no slot operation writes global memory, another tile or anything of the package outside its tile as it issues. -/
def Obligations.MemoryFrame : Prop :=
  ∀ (s : State) (i : Instr), i.isSlot = true → s.unhindered i → s.calm →
    (∀ f, i ≠ .rft f) → (∀ f, i ≠ .ectlKill f) → (∀ f, i ≠ .wrctl f) → (∀ f, i ≠ .setctl f) → (∀ f, i ≠ .clrctl f) →
    ∃ t, exec i s = .next t ∧ s.onlyTile t ∧
      (storeShape i = none → vectorStoreShape s i = none → localAtomic i = none → t.me.spad = s.me.spad)

/-- R52, R161, R203, R242, R267, R340 (02, 07, 09, 11, 12, 17): a slot operation leaves the accumulator store, the semaphores, the shape and
stream registers that it does not name, the configuration table, the commands already issued and the privileged registers as they were,
unless it is an operation of theirs. -/
def Obligations.SystemFrame : Prop :=
  ∀ (s : State) (i : Instr), i.isSlot = true → s.unhindered i → s.calm →
    (∀ f, i ≠ .rft f) → (∀ f, i ≠ .ctxload f) → (∀ f, i ≠ .ectlKill f) →
    ∃ t, exec i s = .next t ∧
      t.me.mx.acc = s.me.mx.acc ∧ (s.me.priv.active = false ∨ (∀ f, i ≠ .fence f) → t.me.eng.queue = s.me.eng.queue) ∧ t.me.eng.held = s.me.eng.held ∧
      (∀ c ∈ s.me.eng.lag, c ∈ t.me.eng.lag) ∧
      ((∀ k f, configured i k f = none) → t.me.mx.cfg = s.me.mx.cfg) ∧
      ((∀ f, i ≠ .hunbind f) → t.me.shapes = s.me.shapes) ∧
      ((∀ f, i ≠ .semwImmediate f) → (∀ f, i ≠ .semwRegister f) → (∀ f, i ≠ .ssig f) → (∀ f, i ≠ .sinit f) → t.me.sems.cnt = s.me.sems.cnt) ∧
      (∀ k, k < 8 → i.streamReg ≠ some k → specStream (destSpec i.dest) ≠ some k →
        (∀ x ∈ (s.sole i).sources, specStream x.spec ≠ some k) → vget t.me.streams.regs k = vget s.me.streams.regs k) ∧
      ((∀ f, i ≠ .wrctl f) → (∀ f, i ≠ .setctl f) → (∀ f, i ≠ .clrctl f) →
        t.me.priv.ctxState = s.me.priv.ctxState ∧ t.me.priv.trap = s.me.priv.trap ∧ t.me.priv.handlers = s.me.priv.handlers ∧
        t.me.priv.wdogEn = s.me.priv.wdogEn ∧ t.me.priv.wdogLimit = s.me.priv.wdogLimit ∧ t.me.priv.debugArmed = s.me.priv.debugArmed ∧
        t.me.priv.earlyTrap = s.me.priv.earlyTrap ∧ t.me.priv.errTrapEn = s.me.priv.errTrapEn ∧ t.me.priv.async = s.me.priv.async ∧
        t.me.priv.ef = s.me.priv.ef ∧ t.me.margin.mode = s.me.margin.mode ∧ t.me.margin.state = s.me.margin.state ∧
        ((∀ f, i ≠ .xlinv f) → t.me.xlat = s.me.xlat) ∧ ((∀ f, i ≠ .rdctl f) → t.me.priv.sigLog = s.me.priv.sigLog))

/-- R57, R58, R62, R63, R165, R177, R194, R224 (02, 08 to 10): an operation that is off reads nothing, pushes VOID with its latency, leaves its guard
pair VOID, and has no other effect: no store, no command, no change of a semaphore or of the configuration. -/
def Obligations.OffOperations : Prop :=
  ∀ (s : State) (i : Instr), i.isSlot = true → s.unhindered i → s.calm → ¬ s.on i → (∀ f, i ≠ .rft f) →
    ∃ t, exec i s = .next t ∧ t.me.ctx.cycle = s.me.ctx.cycle + 1 ∧ s.onlyTile t ∧ t.me.spad = s.me.spad ∧ t.me.sems.cnt = s.me.sems.cnt ∧
      t.me.mx = { s.me.mx with cyc := t.me.mx.cyc } ∧ t.me.shapes = s.me.shapes ∧ t.me.ctx.seq = s.me.ctx.seq ∧
      (∀ l, pushes i = some (false, l) →
        let d := destSpec i.dest
        if l = 1 then t.me.ctx.sq = pushWindow s.me.ctx.sq zeroVoid ∧
          t.me.ctx.n = if d.toNat < 32 then vset s.me.ctx.n d.toNat zeroVoid else s.me.ctx.n
        else ∃ e ∈ t.me.ctx.infl, e.slot = s.curSlot ∧ e.last = s.me.ctx.cycle + l - 1 ∧ e.res = .scalar zeroVoid d) ∧
      (∀ l, pushes i = some (true, l) → ∃ e ∈ t.me.ctx.infl, e.slot = s.curSlot ∧ e.last = s.me.ctx.cycle + l - 1 ∧
        e.res = .vector (vrep 32 { v := 0, tag := .void }) (destSpec i.dest)) ∧
      (∀ j, writesPair i = some j → s.guardsAre t j { val := false, void := true } { val := false, void := true }) ∧
      ((∀ op k, atomicOf i ≠ some (op, some k)) → t.me.eng.lag = s.me.eng.lag ∧ t.me.eng.next = s.me.eng.next)

/-- R59, R143, R214, R343, R345, R348, R353, R360 (02, 05, 10, 17): an issue that fails a check takes effect in nothing: in a kernel it writes the trap
registers and enters the handler at 64 × CAUSE; in a handler it parks the tile. A system operation in a kernel is privileged. An operation that consumes
POISON takes no effect: in a kernel it leaves a POISON event of its address, cycle and slot; in a handler it parks the tile with HF_CODE 5. The unit and
place of the event, those of the word from which the value arose, and the tags that are joined, are the model's (logs 22 and 80). -/
def Obligations.IssueTraps : Prop :=
  let traps := fun (s u : State) (cause sub : Nat) (v : Word) (shape : Option Nat) => s.entersHandler u cause ∧
    u.me.priv.trap = { cause := cause, sub := sub, slot := s.curSlot.idx, async := false, value := v, addr := s.me.k.pos.addr, cycle := s.me.k.cycle,
                        shape := shape } ∧
    u.me.k.n = s.me.k.n ∧ u.me.k.sq = s.me.k.sq ∧ u.me.k.g = s.me.k.g ∧ u.me.k.infl = s.me.k.infl ∧ u.me.k.cycle = s.me.k.cycle ∧
    u.me.vec = s.me.vec ∧ u.me.spad = s.me.spad ∧ u.me.streams = s.me.streams ∧ u.me.eng.queue = s.me.eng.queue
  (∀ (s : State) (i : Instr) (n : Nat), i.isSlot = true → (∀ f, i ≠ .rft f) → s.me.priv.active = false → i.wordFault s.curExt.isSome = some n →
    ∃ u, exec i s = .next u ∧ traps s u 1 n ((encode i).setWidth 64) none) ∧
  (∀ (s : State) (i : Instr) (c : Cand), i.isSlot = true → (∀ f, i ≠ .rft f) → s.me.priv.active = false → i.wordFault s.curExt.isSome = none →
    boundCands s.me s.curHdr = [] → (checkAll (aloneBatch i (slotSem i) s) s).cands = [c] →
    (checkAll (aloneBatch i (slotSem i) s) s).short = [] → c.slot = s.curSlot.idx → c.cause < 0x20 →
    ∃ u, exec i s = .next u ∧ traps s u c.cause c.sub c.value c.shape) ∧
  (∀ (s : State) (f : FormCX) (i : Instr), i = .wrctl f ∨ i = .setctl f ∨ i = .clrctl f → s.me.priv.active = false →
    i.wordFault s.curExt.isSome = none → boundCands s.me s.curHdr = [] → 32 ≤ f.a.toNat → f.a.toNat < 48 →
    ∃ u, exec i s = .next u ∧ traps s u 3 0 (f.cr.setWidth 64) none) ∧
  (∀ (s : State) (f : FormSR), s.me.priv.active = false → (Instr.rdctl f).wordFault s.curExt.isSome = none →
    boundCands s.me s.curHdr = [] → 0x100 ≤ f.cr.toNat → f.d = 63 →
    ∃ u, exec (.rdctl f) s = .next u ∧ traps s u 3 0 (f.cr.setWidth 64) none) ∧
  (∀ (s : State) (f : FormMA), s.me.priv.active = false → s.on (.ldZ64 f) → f.bm = 0 → f.b = 62 → 32 ≤ f.a.toNat → f.a.toNat < 48 → f.d = 63 →
    (Instr.ldZ64 f).wordFault s.curExt.isSome = none → boundCands s.me s.curHdr = [] → (s.env (.ldZ64 f)).a.tag = .valid →
    let a := (s.env (.ldZ64 f)).a.v.toNat / 8 * 8
    s.me.img.scratch < a + 8 →
    ∃ u, exec (.ldZ64 f) s = .next u ∧ traps s u 2 6 (BitVec.ofNat 64 (max a s.me.img.scratch)) none) ∧
  (∀ (s : State) (f : FormCI) (i : Instr), i = .trap f ∨ i = .sys f ∨ i = .brk f → s.curSlot = .c → s.me.priv.active = true →
    i.wordFault s.curExt.isSome = none →
    ∃ u, exec i s = .next u ∧ u.me.priv.parked = true ∧ u.me.priv.hfault = 1 ∧ u.me.k = s.me.k ∧ u.me.spad = s.me.spad ∧
      u.me.priv.after = s.me.priv.after) ∧
  (∀ (s : State) (i : Instr) (o : BadWord), s.unhindered i → s.steady → s.on i → s.usesPoison i o →
    (s.me.priv.active = false → ∃ t, exec i s = .next t ∧ t.me.seg.pendEvents = s.me.seg.pendEvents ++
        [{ check := .poison, takenAfter := s.me.ctx.cycle, addr := s.me.ctx.pos.addr, cycle := s.me.ctx.cycle, slot := s.curSlot.idx,
           locs := [], copyA := [], copyB := [], unit := o.unit, detail := o.place, doubles := 0 }] ∧
      t.me.ctx.cycle = s.me.ctx.cycle + 1 ∧ (i.postInc = false → t.me.ctx.n = s.me.ctx.n) ∧ t.me.ctx.sq = s.me.ctx.sq ∧ t.me.ctx.g = s.me.ctx.g ∧
      t.me.ctx.infl = s.me.ctx.infl ∧ t.me.vec.m = s.me.vec.m ∧ t.me.spad = s.me.spad ∧ t.me.sems.cnt = s.me.sems.cnt ∧
      t.me.eng.next = s.me.eng.next ∧ t.me.mx.cfg = s.me.mx.cfg) ∧
    (s.me.priv.active = true → s.me.priv.parked = false → ∃ t, exec i s = .next t ∧ t.me.priv.parked = true ∧ t.me.priv.hfault = 5 ∧
      t.me.k = s.me.k ∧ t.me.priv.shadow = s.me.priv.shadow ∧ t.me.spad = s.me.spad))

/-! ## Encoding, the step, reset, and invariants of the whole package -/

/-- R130, R135 to R140 (05): words written out from Tables 5.4 to 5.9, one or more of each slot kind, and the operations that they stand for; an
unassigned major opcode and a bit that a format fixes are refused. -/
def Obligations.EncodedWords : Prop :=
  decodeSlot .S 0x04003042 = .ok (.add { g := 0, k := false, d := 3, a := 1, b := 2 }) ∧
  decodeSlot .S 0x4C112045 = .ok (.cmpS64 { g := 0, k := true, cond := 2, pair := 2, a := 1, b := 5 }) ∧
  decodeSlot .C 0x04680000 = .ok (.br { g := 3, e := 1 }) ∧
  decodeSlot .C 0x0A005010 = .ok (.loop { g := 0, k := false, cnt := 5, last := 0x10 }) ∧
  decodeSlot .C 0x30004404 = .ok (.wrctl { g := 0, cr := 0x110, a := 4 }) ∧
  decodeSlot .M 0x0A0C2103 = .ok (.ldS32 { g := 0, bm := 1, p := true, d := 2, a := 4, b := 3 }) ∧
  decodeSlot .M 0x260BF07F = .ok (.hbind { g := 0, h := 2, a := 1 }) ∧
  decodeSlot .V 0x9A043042 = .ok (.vfma { t := 1, g := 0, m := 1, d := 3, a := 1, b := 2 }) ∧
  decodeSlot .V 0x0A004145 = .ok (.vcvt { r := 1, g := 0, m := 0, d := 4, a := 5, pair := 2, sat := true }) ∧
  decodeSlot .V 0xC00420C4 = .ok (.vssum { g := 0, h := 1, d := 2, a := 3, b := 4 }) ∧
  decodeSlot .X 0x10047FFF = .ok (.xgo { g := 0, f := 1, sel := 7 }) ∧
  decodeSlot .X 0x020840FF = .ok (.xnest { g := 0, f := 2, sel := 4, a := 3 }) ∧
  decodeSlot .Q 0x26141083 = .ok (.acas { g := 0, h := 5, d := 1, a := 2, b := 3 }) ∧
  decodeSlot .Q 0x0E07F083 = .ok (.ssigR { g := 0, hi := 0, a := 2, b := 3 }) ∧
  decodeSlot .S 0x64000000 = .error 6 ∧ decodeSlot .S 0x00000001 = .error 7

/-- R117, R119, R130 (05): every well-formed slot operation, with every operand at every value that its encoding admits, is what its word
decodes to in each slot of its kind; and a header word gives back the header's fields. -/
def Obligations.EncodeDecode : Prop :=
  (∀ (k : SlotKind) (ext : Bool) (i : Instr), i.wellFormedIn k ext = true → decodeSlot k (encode i) = .ok i) ∧
  (∀ h : Header, Header.ofWord h.word = h) ∧
  (∀ (h : Header) (sl : Slot) (i : Instr), presentsOne h sl → i.wellFormedIn sl.kind false = true →
    decodeBundle h.word [encode i] = .ok { hdr := h, ops := [{ slot := sl, word := encode i, op := i, ext := none }] })

/-- R69, R118, R120, R143 (02, 05) and log entries 2 and 3: with a bundle of one word at the address of the next issue and nothing before it, a step issues
the operation that the word decodes to, as `exec` of that operation does, and everything of the tile that may act at once then does. A step
ends in a next state always, but for a stopped package, whose one fault it is. -/
def Obligations.StepRunsDecodedBundle : Prop :=
  (∀ (s : State) (t : TileNo) (rest : List (TileNo × Instr)) (a : Nat) (i : Instr), s.stopped = false → s.agenda = (t, .bundleIssue) :: rest →
    (∀ p ∈ s.phys, s.ns < p.1) → a % 4 = 0 →
    let s1 := { s with cur := t, agenda := rest }
    s1.kernelReady → s1.me.entryNeeded = false → s1.me.k.pos = Position.fresh a → s1.oneWord a i → s1.me.spad.anyPoison a 8 = false →
    boundCands s1.me s.curHdr = [] → s1.me.inp.upsets = [] → s1.me.priv.parked = false →
    ∃ u, exec i s1 = .next u ∧ exec .bundleIssue s1 = .next (u.settleEngines t) ∧ step s = .next (u.settleEngines t)) ∧
  (∀ (s : State) (t : TileNo) (rest : List (TileNo × Instr)) (a : Nat) (i : Instr), s.stopped = false → s.agenda = (t, .bundleIssue) :: rest →
    (∀ p ∈ s.phys, s.ns < p.1) → a % 4 = 0 →
    let s1 := { s with cur := t, agenda := rest }
    s1.handlerReady → s1.me.inp.upsets = [] → s1.me.priv.shadow.pos = Position.fresh a → s1.oneWord a i →
    ∃ u, exec i s1 = .next u ∧ ((∀ f, i ≠ .rft f) → step s = .next u.handlerEnd.containFault) ∧
      (∀ f, i = .rft f → step s = .next u.containFault)) ∧
  (∀ s : State, (∃ u, step s = .next u) ∨ (s.stopped = true ∧ step s = .fault .packageStopped))

/-- Tables 17.1 (17), 18.3 (18), 19.5 (19), 20.2 and 20.9 (20) and 22.1 (22): the values that the tables give for reset; and the reset state satisfies the
invariants of this file. -/
def Obligations.ResetValues : Prop :=
  (∀ t : TileNo, (State.reset.tile t).run = none ∧ (State.reset.tile t).priv.active = false ∧
    ({ State.reset with cur := t } : State).readCtl 0x118 = 3 ∧
    ∀ n ∈ [0x100, 0x101, 0x102, 0x103, 0x108, 0x110, 0x112, 0x119, 0x120, 0x121, 0x122, 0x123, 0x124, 0x130, 0x131, 0x138, 0x139, 0x13A, 0x13B,
      0x140, 0x148, 0x150, 0x151, 0x153, 0x154, 0x155, 0x157, 0x159, 0x15A, 0x15B, 0x15C, 0x15F, 0x160, 0x161, 0x163, 0x171, 0x172, 0x173, 0x174,
      0x175, 0x178, 0x179, 0x17A, 0x17B, 0x17C, 0x17D, 0x17E, 0x17F, 0x180, 0x181, 0x182, 0x183, 0x188, 0x189, 0x18A, 0x18B, 0x18C],
      ({ State.reset with cur := t } : State).readCtl n = 0) ∧
  (∀ p : PartNo, (State.reset.part p).fixedMhz = 1300 ∧ (State.reset.part p).modeSet = 0 ∧ (State.reset.part p).triage = false ∧
    (State.reset.part p).enable = false ∧ (State.reset.part p).minCoverage = 0) ∧
  (∀ d : DieNo, State.reset.windowRead .package (0x018 + 0x20 * d.val) = 512 ∧ State.reset.windowRead .package (0x000 + 0x20 * d.val) = 0 ∧
    State.reset.windowRead .package (0x008 + 0x20 * d.val) = 0 ∧ State.reset.windowRead .package (0x010 + 0x20 * d.val) = 0 ∧
    ∀ n ∈ [0x800, 0x808, 0x810], State.reset.windowRead .package (n + 0x40 * d.val) = 0) ∧
  State.reset.memoryForm ∧ State.reset.constantsFixed

/-- Log entry 5, the form that the model gives memories (no rule of the spec): every step keeps every memory of the package in its canonical
form, so that equal memories are equal data. -/
def Obligations.StepKeepsMemoryForm : Prop :=
  ∀ s t : State, s.memoryForm → step s = .next t → t.memoryForm

/-- R61, R63 (02): g0 stays true and VALID and m0 all lanes true and VALID at every tile, whatever the step: an issue, a handler entry, a rewind, a
restored image, a patch, a new work item or power-up. -/
def Obligations.StepKeepsConstants : Prop :=
  ∀ s t : State, s.constantsFixed → step s = .next t → t.constantsFixed

end
end

