-- ==== Sys2Proof/Laws/State.lean ====
section
/-! SUPPORT. What the updates of the state leave: one lemma for each field and update, so that no proof unfolds a record; reading and
writing of tables, tiles, partitions and dies. -/
namespace Sys2Proof

/-! ## Tables -/

theorem vget_vset {α : Type} [Inhabited α] {n : Nat} (v : Vector α n) (i j : Nat) (x : α) :
    vget (vset v i x) j = if i = j ∧ i < n then x else vget v j := by
  have hn : v.toArray.toList.length = n := by simp
  simp only [vget, vset, List.getD_eq_getElem?_getD, List.getElem?_set, hn]
  by_cases h : i = j
  · subst h
    by_cases hi : i < n
    · simp [hi]
    · have : n ≤ i := Nat.le_of_not_lt hi
      simp [hi]
  · simp [h]

theorem vget_vset_same {α : Type} [Inhabited α] {n : Nat} (v : Vector α n) (i : Nat) (x : α) (h : i < n) :
    vget (vset v i x) i = x := by simp [vget_vset, h]

theorem vget_vset_other {α : Type} [Inhabited α] {n : Nat} (v : Vector α n) (i j : Nat) (x : α) (h : i ≠ j) :
    vget (vset v i x) j = vget v j := by simp [vget_vset, h]

theorem vset_vset {α : Type} {n : Nat} (v : Vector α n) (i : Nat) (x y : α) : vset (vset v i x) i y = vset v i y := by
  simp [vset]

theorem vset_vget {α : Type} [Inhabited α] {n : Nat} (v : Vector α n) (i : Nat) : vset v i (vget v i) = v := by
  have hn : v.toArray.toList.length = n := by simp
  apply Vector.toArray_inj.mp
  apply Array.toList_inj.mp
  simp only [vset, vget]
  apply List.ext_getElem?
  intro k
  simp only [List.getElem?_set, hn]
  by_cases h : i = k
  · subst h
    by_cases hi : i < n
    · simp [hi, List.getD_eq_getElem?_getD]
    · simp [hi]
  · simp [h]

theorem vget_vmk {α : Type} [Inhabited α] (n : Nat) (f : Nat → α) (i : Nat) (h : i < n) : vget (vmk n f) i = f i := by
  simp [vget, vmk, h, List.getD_eq_getElem?_getD]

theorem vget_vrep {α : Type} [Inhabited α] (n : Nat) (x : α) (i : Nat) (h : i < n) : vget (vrep n x) i = x := by
  simp [vget, vrep, h, List.getD_eq_getElem?_getD]

namespace Machine

/-! ## Tiles, partitions and dies -/

@[simp] theorem State.tile_setTile (s : State) (t u : TileNo) (x : Tile) :
    (s.setTile t x).tile u = if t = u then x else s.tile u := by
  simp only [State.tile, State.setTile, vget_vset]
  by_cases h : t = u
  · subst h; simp [t.isLt]
  · simp [h, Fin.val_inj]

@[simp] theorem State.me_setMe (s : State) (x : Tile) : (s.setMe x).me = x := by
  simp only [State.setMe, State.me]
  show ((s.setTile s.cur x).tile s.cur) = x
  simp

@[simp] theorem State.me_mapMe (s : State) (f : Tile → Tile) : (s.mapMe f).me = f s.me := by simp [State.mapMe]

@[simp] theorem State.tile_setMe (s : State) (u : TileNo) (x : Tile) :
    (s.setMe x).tile u = if s.cur = u then x else s.tile u := by simp [State.setMe]

@[simp] theorem State.setMe_setMe (s : State) (x y : Tile) : (s.setMe x).setMe y = s.setMe y := by
  simp [State.setMe, State.setTile, vset_vset]

@[simp] theorem State.setMe_me (s : State) : s.setMe s.me = s := by
  simp [State.setMe, State.setTile, State.me, State.tile, vset_vget]

@[simp] theorem State.mapMe_mapMe (s : State) (f g : Tile → Tile) : (s.mapMe f).mapMe g = s.mapMe (fun t => g (f t)) := by
  simp [State.mapMe]

@[simp] theorem State.part_setPart (s : State) (p q : PartNo) (x : Part) :
    (s.setPart p x).part q = if p = q then x else s.part q := by
  simp only [State.part, State.setPart, vget_vset]
  by_cases h : p = q
  · subst h; simp [p.isLt]
  · simp [h, Fin.val_inj]

theorem State.die_setDie (s : State) (d e : Nat) (x : Die) (h : d < 12) :
    (s.setDie d x).die e = if d = e then x else s.die e := by simp [State.die, State.setDie, vget_vset, h]

/-! ## Fields of the package -/

@[simp] theorem State.setTile_wall (s : State) (t : TileNo) (x : Tile) : (s.setTile t x).wall = s.wall := rfl
@[simp] theorem State.setTile_parts (s : State) (t : TileNo) (x : Tile) : (s.setTile t x).parts = s.parts := rfl
@[simp] theorem State.setTile_dies (s : State) (t : TileNo) (x : Tile) : (s.setTile t x).dies = s.dies := rfl
@[simp] theorem State.setTile_gallery (s : State) (t : TileNo) (x : Tile) : (s.setTile t x).gallery = s.gallery := rfl
@[simp] theorem State.setTile_mem (s : State) (t : TileNo) (x : Tile) : (s.setTile t x).mem = s.mem := rfl
@[simp] theorem State.setTile_hostMem (s : State) (t : TileNo) (x : Tile) : (s.setTile t x).hostMem = s.hostMem := rfl
@[simp] theorem State.setTile_launches (s : State) (t : TileNo) (x : Tile) : (s.setTile t x).launches = s.launches := rfl
@[simp] theorem State.setTile_signals (s : State) (t : TileNo) (x : Tile) : (s.setTile t x).signals = s.signals := rfl
@[simp] theorem State.setTile_heldWrites (s : State) (t : TileNo) (x : Tile) : (s.setTile t x).heldWrites = s.heldWrites := rfl
@[simp] theorem State.setTile_nextLaunch (s : State) (t : TileNo) (x : Tile) : (s.setTile t x).nextLaunch = s.nextLaunch := rfl
@[simp] theorem State.setTile_order (s : State) (t : TileNo) (x : Tile) : (s.setTile t x).order = s.order := rfl
@[simp] theorem State.setTile_turnPart (s : State) (t : TileNo) (x : Tile) : (s.setTile t x).turnPart = s.turnPart := rfl
@[simp] theorem State.setTile_boot (s : State) (t : TileNo) (x : Tile) : (s.setTile t x).boot = s.boot := rfl
@[simp] theorem State.setTile_stopped (s : State) (t : TileNo) (x : Tile) : (s.setTile t x).stopped = s.stopped := rfl
@[simp] theorem State.setTile_opaques (s : State) (t : TileNo) (x : Tile) : (s.setTile t x).opaques = s.opaques := rfl
@[simp] theorem State.setTile_hostData (s : State) (t : TileNo) (x : Tile) : (s.setTile t x).hostData = s.hostData := rfl
@[simp] theorem State.setTile_cur (s : State) (t : TileNo) (x : Tile) : (s.setTile t x).cur = s.cur := rfl
@[simp] theorem State.setTile_curSlot (s : State) (t : TileNo) (x : Tile) : (s.setTile t x).curSlot = s.curSlot := rfl
@[simp] theorem State.setTile_curExt (s : State) (t : TileNo) (x : Tile) : (s.setTile t x).curExt = s.curExt := rfl
@[simp] theorem State.setTile_curHdr (s : State) (t : TileNo) (x : Tile) : (s.setTile t x).curHdr = s.curHdr := rfl
@[simp] theorem State.setTile_agenda (s : State) (t : TileNo) (x : Tile) : (s.setTile t x).agenda = s.agenda := rfl
@[simp] theorem State.setTile_free (s : State) (t : TileNo) (x : Tile) : (s.setTile t x).free = s.free := rfl
@[simp] theorem State.setTile_phys (s : State) (t : TileNo) (x : Tile) : (s.setTile t x).phys = s.phys := rfl

@[simp] theorem State.setMe_wall (s : State) (x : Tile) : (s.setMe x).wall = s.wall := rfl
@[simp] theorem State.setMe_parts (s : State) (x : Tile) : (s.setMe x).parts = s.parts := rfl
@[simp] theorem State.setMe_dies (s : State) (x : Tile) : (s.setMe x).dies = s.dies := rfl
@[simp] theorem State.setMe_gallery (s : State) (x : Tile) : (s.setMe x).gallery = s.gallery := rfl
@[simp] theorem State.setMe_mem (s : State) (x : Tile) : (s.setMe x).mem = s.mem := rfl
@[simp] theorem State.setMe_hostMem (s : State) (x : Tile) : (s.setMe x).hostMem = s.hostMem := rfl
@[simp] theorem State.setMe_launches (s : State) (x : Tile) : (s.setMe x).launches = s.launches := rfl
@[simp] theorem State.setMe_signals (s : State) (x : Tile) : (s.setMe x).signals = s.signals := rfl
@[simp] theorem State.setMe_heldWrites (s : State) (x : Tile) : (s.setMe x).heldWrites = s.heldWrites := rfl
@[simp] theorem State.setMe_nextLaunch (s : State) (x : Tile) : (s.setMe x).nextLaunch = s.nextLaunch := rfl
@[simp] theorem State.setMe_order (s : State) (x : Tile) : (s.setMe x).order = s.order := rfl
@[simp] theorem State.setMe_turnPart (s : State) (x : Tile) : (s.setMe x).turnPart = s.turnPart := rfl
@[simp] theorem State.setMe_boot (s : State) (x : Tile) : (s.setMe x).boot = s.boot := rfl
@[simp] theorem State.setMe_stopped (s : State) (x : Tile) : (s.setMe x).stopped = s.stopped := rfl
@[simp] theorem State.setMe_opaques (s : State) (x : Tile) : (s.setMe x).opaques = s.opaques := rfl
@[simp] theorem State.setMe_hostData (s : State) (x : Tile) : (s.setMe x).hostData = s.hostData := rfl
@[simp] theorem State.setMe_cur (s : State) (x : Tile) : (s.setMe x).cur = s.cur := rfl
@[simp] theorem State.setMe_curSlot (s : State) (x : Tile) : (s.setMe x).curSlot = s.curSlot := rfl
@[simp] theorem State.setMe_curExt (s : State) (x : Tile) : (s.setMe x).curExt = s.curExt := rfl
@[simp] theorem State.setMe_curHdr (s : State) (x : Tile) : (s.setMe x).curHdr = s.curHdr := rfl
@[simp] theorem State.setMe_agenda (s : State) (x : Tile) : (s.setMe x).agenda = s.agenda := rfl
@[simp] theorem State.setMe_free (s : State) (x : Tile) : (s.setMe x).free = s.free := rfl
@[simp] theorem State.setMe_phys (s : State) (x : Tile) : (s.setMe x).phys = s.phys := rfl

@[simp] theorem State.mapMe_wall (s : State) (f : Tile → Tile) : (s.mapMe f).wall = s.wall := rfl
@[simp] theorem State.mapMe_parts (s : State) (f : Tile → Tile) : (s.mapMe f).parts = s.parts := rfl
@[simp] theorem State.mapMe_dies (s : State) (f : Tile → Tile) : (s.mapMe f).dies = s.dies := rfl
@[simp] theorem State.mapMe_gallery (s : State) (f : Tile → Tile) : (s.mapMe f).gallery = s.gallery := rfl
@[simp] theorem State.mapMe_mem (s : State) (f : Tile → Tile) : (s.mapMe f).mem = s.mem := rfl
@[simp] theorem State.mapMe_hostMem (s : State) (f : Tile → Tile) : (s.mapMe f).hostMem = s.hostMem := rfl
@[simp] theorem State.mapMe_launches (s : State) (f : Tile → Tile) : (s.mapMe f).launches = s.launches := rfl
@[simp] theorem State.mapMe_signals (s : State) (f : Tile → Tile) : (s.mapMe f).signals = s.signals := rfl
@[simp] theorem State.mapMe_heldWrites (s : State) (f : Tile → Tile) : (s.mapMe f).heldWrites = s.heldWrites := rfl
@[simp] theorem State.mapMe_nextLaunch (s : State) (f : Tile → Tile) : (s.mapMe f).nextLaunch = s.nextLaunch := rfl
@[simp] theorem State.mapMe_order (s : State) (f : Tile → Tile) : (s.mapMe f).order = s.order := rfl
@[simp] theorem State.mapMe_turnPart (s : State) (f : Tile → Tile) : (s.mapMe f).turnPart = s.turnPart := rfl
@[simp] theorem State.mapMe_boot (s : State) (f : Tile → Tile) : (s.mapMe f).boot = s.boot := rfl
@[simp] theorem State.mapMe_stopped (s : State) (f : Tile → Tile) : (s.mapMe f).stopped = s.stopped := rfl
@[simp] theorem State.mapMe_opaques (s : State) (f : Tile → Tile) : (s.mapMe f).opaques = s.opaques := rfl
@[simp] theorem State.mapMe_hostData (s : State) (f : Tile → Tile) : (s.mapMe f).hostData = s.hostData := rfl
@[simp] theorem State.mapMe_cur (s : State) (f : Tile → Tile) : (s.mapMe f).cur = s.cur := rfl
@[simp] theorem State.mapMe_curSlot (s : State) (f : Tile → Tile) : (s.mapMe f).curSlot = s.curSlot := rfl
@[simp] theorem State.mapMe_curExt (s : State) (f : Tile → Tile) : (s.mapMe f).curExt = s.curExt := rfl
@[simp] theorem State.mapMe_curHdr (s : State) (f : Tile → Tile) : (s.mapMe f).curHdr = s.curHdr := rfl
@[simp] theorem State.mapMe_agenda (s : State) (f : Tile → Tile) : (s.mapMe f).agenda = s.agenda := rfl
@[simp] theorem State.mapMe_free (s : State) (f : Tile → Tile) : (s.mapMe f).free = s.free := rfl
@[simp] theorem State.mapMe_phys (s : State) (f : Tile → Tile) : (s.mapMe f).phys = s.phys := rfl

@[simp] theorem State.setPart_wall (s : State) (p : PartNo) (x : Part) : (s.setPart p x).wall = s.wall := rfl
@[simp] theorem State.setPart_tiles (s : State) (p : PartNo) (x : Part) : (s.setPart p x).tiles = s.tiles := rfl
@[simp] theorem State.setPart_dies (s : State) (p : PartNo) (x : Part) : (s.setPart p x).dies = s.dies := rfl
@[simp] theorem State.setPart_gallery (s : State) (p : PartNo) (x : Part) : (s.setPart p x).gallery = s.gallery := rfl
@[simp] theorem State.setPart_mem (s : State) (p : PartNo) (x : Part) : (s.setPart p x).mem = s.mem := rfl
@[simp] theorem State.setPart_hostMem (s : State) (p : PartNo) (x : Part) : (s.setPart p x).hostMem = s.hostMem := rfl
@[simp] theorem State.setPart_launches (s : State) (p : PartNo) (x : Part) : (s.setPart p x).launches = s.launches := rfl
@[simp] theorem State.setPart_signals (s : State) (p : PartNo) (x : Part) : (s.setPart p x).signals = s.signals := rfl
@[simp] theorem State.setPart_heldWrites (s : State) (p : PartNo) (x : Part) : (s.setPart p x).heldWrites = s.heldWrites := rfl
@[simp] theorem State.setPart_nextLaunch (s : State) (p : PartNo) (x : Part) : (s.setPart p x).nextLaunch = s.nextLaunch := rfl
@[simp] theorem State.setPart_order (s : State) (p : PartNo) (x : Part) : (s.setPart p x).order = s.order := rfl
@[simp] theorem State.setPart_turnPart (s : State) (p : PartNo) (x : Part) : (s.setPart p x).turnPart = s.turnPart := rfl
@[simp] theorem State.setPart_boot (s : State) (p : PartNo) (x : Part) : (s.setPart p x).boot = s.boot := rfl
@[simp] theorem State.setPart_stopped (s : State) (p : PartNo) (x : Part) : (s.setPart p x).stopped = s.stopped := rfl
@[simp] theorem State.setPart_opaques (s : State) (p : PartNo) (x : Part) : (s.setPart p x).opaques = s.opaques := rfl
@[simp] theorem State.setPart_hostData (s : State) (p : PartNo) (x : Part) : (s.setPart p x).hostData = s.hostData := rfl
@[simp] theorem State.setPart_cur (s : State) (p : PartNo) (x : Part) : (s.setPart p x).cur = s.cur := rfl
@[simp] theorem State.setPart_curSlot (s : State) (p : PartNo) (x : Part) : (s.setPart p x).curSlot = s.curSlot := rfl
@[simp] theorem State.setPart_curExt (s : State) (p : PartNo) (x : Part) : (s.setPart p x).curExt = s.curExt := rfl
@[simp] theorem State.setPart_curHdr (s : State) (p : PartNo) (x : Part) : (s.setPart p x).curHdr = s.curHdr := rfl
@[simp] theorem State.setPart_agenda (s : State) (p : PartNo) (x : Part) : (s.setPart p x).agenda = s.agenda := rfl
@[simp] theorem State.setPart_free (s : State) (p : PartNo) (x : Part) : (s.setPart p x).free = s.free := rfl
@[simp] theorem State.setPart_phys (s : State) (p : PartNo) (x : Part) : (s.setPart p x).phys = s.phys := rfl

@[simp] theorem State.setDie_wall (s : State) (d : Nat) (x : Die) : (s.setDie d x).wall = s.wall := rfl
@[simp] theorem State.setDie_tiles (s : State) (d : Nat) (x : Die) : (s.setDie d x).tiles = s.tiles := rfl
@[simp] theorem State.setDie_parts (s : State) (d : Nat) (x : Die) : (s.setDie d x).parts = s.parts := rfl
@[simp] theorem State.setDie_gallery (s : State) (d : Nat) (x : Die) : (s.setDie d x).gallery = s.gallery := rfl
@[simp] theorem State.setDie_mem (s : State) (d : Nat) (x : Die) : (s.setDie d x).mem = s.mem := rfl
@[simp] theorem State.setDie_hostMem (s : State) (d : Nat) (x : Die) : (s.setDie d x).hostMem = s.hostMem := rfl
@[simp] theorem State.setDie_launches (s : State) (d : Nat) (x : Die) : (s.setDie d x).launches = s.launches := rfl
@[simp] theorem State.setDie_signals (s : State) (d : Nat) (x : Die) : (s.setDie d x).signals = s.signals := rfl
@[simp] theorem State.setDie_heldWrites (s : State) (d : Nat) (x : Die) : (s.setDie d x).heldWrites = s.heldWrites := rfl
@[simp] theorem State.setDie_nextLaunch (s : State) (d : Nat) (x : Die) : (s.setDie d x).nextLaunch = s.nextLaunch := rfl
@[simp] theorem State.setDie_order (s : State) (d : Nat) (x : Die) : (s.setDie d x).order = s.order := rfl
@[simp] theorem State.setDie_turnPart (s : State) (d : Nat) (x : Die) : (s.setDie d x).turnPart = s.turnPart := rfl
@[simp] theorem State.setDie_boot (s : State) (d : Nat) (x : Die) : (s.setDie d x).boot = s.boot := rfl
@[simp] theorem State.setDie_stopped (s : State) (d : Nat) (x : Die) : (s.setDie d x).stopped = s.stopped := rfl
@[simp] theorem State.setDie_opaques (s : State) (d : Nat) (x : Die) : (s.setDie d x).opaques = s.opaques := rfl
@[simp] theorem State.setDie_hostData (s : State) (d : Nat) (x : Die) : (s.setDie d x).hostData = s.hostData := rfl
@[simp] theorem State.setDie_cur (s : State) (d : Nat) (x : Die) : (s.setDie d x).cur = s.cur := rfl
@[simp] theorem State.setDie_curSlot (s : State) (d : Nat) (x : Die) : (s.setDie d x).curSlot = s.curSlot := rfl
@[simp] theorem State.setDie_curExt (s : State) (d : Nat) (x : Die) : (s.setDie d x).curExt = s.curExt := rfl
@[simp] theorem State.setDie_curHdr (s : State) (d : Nat) (x : Die) : (s.setDie d x).curHdr = s.curHdr := rfl
@[simp] theorem State.setDie_agenda (s : State) (d : Nat) (x : Die) : (s.setDie d x).agenda = s.agenda := rfl
@[simp] theorem State.setDie_free (s : State) (d : Nat) (x : Die) : (s.setDie d x).free = s.free := rfl
@[simp] theorem State.setDie_phys (s : State) (d : Nat) (x : Die) : (s.setDie d x).phys = s.phys := rfl

@[simp] theorem State.tickMe_parts (s : State) : (s.tickMe).parts = s.parts := rfl
@[simp] theorem State.tickMe_dies (s : State) : (s.tickMe).dies = s.dies := rfl
@[simp] theorem State.tickMe_gallery (s : State) : (s.tickMe).gallery = s.gallery := rfl
@[simp] theorem State.tickMe_mem (s : State) : (s.tickMe).mem = s.mem := rfl
@[simp] theorem State.tickMe_hostMem (s : State) : (s.tickMe).hostMem = s.hostMem := rfl
@[simp] theorem State.tickMe_launches (s : State) : (s.tickMe).launches = s.launches := rfl
@[simp] theorem State.tickMe_signals (s : State) : (s.tickMe).signals = s.signals := rfl
@[simp] theorem State.tickMe_heldWrites (s : State) : (s.tickMe).heldWrites = s.heldWrites := rfl
@[simp] theorem State.tickMe_nextLaunch (s : State) : (s.tickMe).nextLaunch = s.nextLaunch := rfl
@[simp] theorem State.tickMe_order (s : State) : (s.tickMe).order = s.order := rfl
@[simp] theorem State.tickMe_turnPart (s : State) : (s.tickMe).turnPart = s.turnPart := rfl
@[simp] theorem State.tickMe_boot (s : State) : (s.tickMe).boot = s.boot := rfl
@[simp] theorem State.tickMe_stopped (s : State) : (s.tickMe).stopped = s.stopped := rfl
@[simp] theorem State.tickMe_opaques (s : State) : (s.tickMe).opaques = s.opaques := rfl
@[simp] theorem State.tickMe_hostData (s : State) : (s.tickMe).hostData = s.hostData := rfl
@[simp] theorem State.tickMe_cur (s : State) : (s.tickMe).cur = s.cur := rfl
@[simp] theorem State.tickMe_curSlot (s : State) : (s.tickMe).curSlot = s.curSlot := rfl
@[simp] theorem State.tickMe_curExt (s : State) : (s.tickMe).curExt = s.curExt := rfl
@[simp] theorem State.tickMe_curHdr (s : State) : (s.tickMe).curHdr = s.curHdr := rfl
@[simp] theorem State.tickMe_agenda (s : State) : (s.tickMe).agenda = s.agenda := rfl
@[simp] theorem State.tickMe_free (s : State) : (s.tickMe).free = s.free := rfl
@[simp] theorem State.tickMe_phys (s : State) : (s.tickMe).phys = s.phys := rfl

@[simp] theorem State.freezeMe_parts (s : State) (c : Nat) : (s.freezeMe c).parts = s.parts := rfl
@[simp] theorem State.freezeMe_dies (s : State) (c : Nat) : (s.freezeMe c).dies = s.dies := rfl
@[simp] theorem State.freezeMe_gallery (s : State) (c : Nat) : (s.freezeMe c).gallery = s.gallery := rfl
@[simp] theorem State.freezeMe_mem (s : State) (c : Nat) : (s.freezeMe c).mem = s.mem := rfl
@[simp] theorem State.freezeMe_hostMem (s : State) (c : Nat) : (s.freezeMe c).hostMem = s.hostMem := rfl
@[simp] theorem State.freezeMe_launches (s : State) (c : Nat) : (s.freezeMe c).launches = s.launches := rfl
@[simp] theorem State.freezeMe_signals (s : State) (c : Nat) : (s.freezeMe c).signals = s.signals := rfl
@[simp] theorem State.freezeMe_heldWrites (s : State) (c : Nat) : (s.freezeMe c).heldWrites = s.heldWrites := rfl
@[simp] theorem State.freezeMe_nextLaunch (s : State) (c : Nat) : (s.freezeMe c).nextLaunch = s.nextLaunch := rfl
@[simp] theorem State.freezeMe_order (s : State) (c : Nat) : (s.freezeMe c).order = s.order := rfl
@[simp] theorem State.freezeMe_turnPart (s : State) (c : Nat) : (s.freezeMe c).turnPart = s.turnPart := rfl
@[simp] theorem State.freezeMe_boot (s : State) (c : Nat) : (s.freezeMe c).boot = s.boot := rfl
@[simp] theorem State.freezeMe_stopped (s : State) (c : Nat) : (s.freezeMe c).stopped = s.stopped := rfl
@[simp] theorem State.freezeMe_opaques (s : State) (c : Nat) : (s.freezeMe c).opaques = s.opaques := rfl
@[simp] theorem State.freezeMe_hostData (s : State) (c : Nat) : (s.freezeMe c).hostData = s.hostData := rfl
@[simp] theorem State.freezeMe_cur (s : State) (c : Nat) : (s.freezeMe c).cur = s.cur := rfl
@[simp] theorem State.freezeMe_curSlot (s : State) (c : Nat) : (s.freezeMe c).curSlot = s.curSlot := rfl
@[simp] theorem State.freezeMe_curExt (s : State) (c : Nat) : (s.freezeMe c).curExt = s.curExt := rfl
@[simp] theorem State.freezeMe_curHdr (s : State) (c : Nat) : (s.freezeMe c).curHdr = s.curHdr := rfl
@[simp] theorem State.freezeMe_agenda (s : State) (c : Nat) : (s.freezeMe c).agenda = s.agenda := rfl
@[simp] theorem State.freezeMe_free (s : State) (c : Nat) : (s.freezeMe c).free = s.free := rfl
@[simp] theorem State.freezeMe_phys (s : State) (c : Nat) : (s.freezeMe c).phys = s.phys := rfl

@[simp] theorem State.mapLaunch_wall (s : State) (id : Nat) (f : Launch → Launch) : (s.mapLaunch id f).wall = s.wall := rfl
@[simp] theorem State.mapLaunch_tiles (s : State) (id : Nat) (f : Launch → Launch) : (s.mapLaunch id f).tiles = s.tiles := rfl
@[simp] theorem State.mapLaunch_parts (s : State) (id : Nat) (f : Launch → Launch) : (s.mapLaunch id f).parts = s.parts := rfl
@[simp] theorem State.mapLaunch_dies (s : State) (id : Nat) (f : Launch → Launch) : (s.mapLaunch id f).dies = s.dies := rfl
@[simp] theorem State.mapLaunch_gallery (s : State) (id : Nat) (f : Launch → Launch) : (s.mapLaunch id f).gallery = s.gallery := rfl
@[simp] theorem State.mapLaunch_mem (s : State) (id : Nat) (f : Launch → Launch) : (s.mapLaunch id f).mem = s.mem := rfl
@[simp] theorem State.mapLaunch_hostMem (s : State) (id : Nat) (f : Launch → Launch) : (s.mapLaunch id f).hostMem = s.hostMem := rfl
@[simp] theorem State.mapLaunch_signals (s : State) (id : Nat) (f : Launch → Launch) : (s.mapLaunch id f).signals = s.signals := rfl
@[simp] theorem State.mapLaunch_heldWrites (s : State) (id : Nat) (f : Launch → Launch) : (s.mapLaunch id f).heldWrites = s.heldWrites := rfl
@[simp] theorem State.mapLaunch_nextLaunch (s : State) (id : Nat) (f : Launch → Launch) : (s.mapLaunch id f).nextLaunch = s.nextLaunch := rfl
@[simp] theorem State.mapLaunch_order (s : State) (id : Nat) (f : Launch → Launch) : (s.mapLaunch id f).order = s.order := rfl
@[simp] theorem State.mapLaunch_turnPart (s : State) (id : Nat) (f : Launch → Launch) : (s.mapLaunch id f).turnPart = s.turnPart := rfl
@[simp] theorem State.mapLaunch_boot (s : State) (id : Nat) (f : Launch → Launch) : (s.mapLaunch id f).boot = s.boot := rfl
@[simp] theorem State.mapLaunch_stopped (s : State) (id : Nat) (f : Launch → Launch) : (s.mapLaunch id f).stopped = s.stopped := rfl
@[simp] theorem State.mapLaunch_opaques (s : State) (id : Nat) (f : Launch → Launch) : (s.mapLaunch id f).opaques = s.opaques := rfl
@[simp] theorem State.mapLaunch_hostData (s : State) (id : Nat) (f : Launch → Launch) : (s.mapLaunch id f).hostData = s.hostData := rfl
@[simp] theorem State.mapLaunch_cur (s : State) (id : Nat) (f : Launch → Launch) : (s.mapLaunch id f).cur = s.cur := rfl
@[simp] theorem State.mapLaunch_curSlot (s : State) (id : Nat) (f : Launch → Launch) : (s.mapLaunch id f).curSlot = s.curSlot := rfl
@[simp] theorem State.mapLaunch_curExt (s : State) (id : Nat) (f : Launch → Launch) : (s.mapLaunch id f).curExt = s.curExt := rfl
@[simp] theorem State.mapLaunch_curHdr (s : State) (id : Nat) (f : Launch → Launch) : (s.mapLaunch id f).curHdr = s.curHdr := rfl
@[simp] theorem State.mapLaunch_agenda (s : State) (id : Nat) (f : Launch → Launch) : (s.mapLaunch id f).agenda = s.agenda := rfl
@[simp] theorem State.mapLaunch_free (s : State) (id : Nat) (f : Launch → Launch) : (s.mapLaunch id f).free = s.free := rfl
@[simp] theorem State.mapLaunch_phys (s : State) (id : Nat) (f : Launch → Launch) : (s.mapLaunch id f).phys = s.phys := rfl

@[simp] theorem State.me_setPart (s : State) (p : PartNo) (x : Part) : (s.setPart p x).me = s.me := rfl
@[simp] theorem State.tile_setPart (s : State) (p : PartNo) (x : Part) (u : TileNo) : (s.setPart p x).tile u = s.tile u := rfl
@[simp] theorem State.me_setDie (s : State) (d : Nat) (x : Die) : (s.setDie d x).me = s.me := rfl
@[simp] theorem State.tile_setDie (s : State) (d : Nat) (x : Die) (u : TileNo) : (s.setDie d x).tile u = s.tile u := rfl
@[simp] theorem State.me_mapLaunch (s : State) (id : Nat) (f : Launch → Launch) : (s.mapLaunch id f).me = s.me := rfl
@[simp] theorem State.tile_mapLaunch (s : State) (id : Nat) (f : Launch → Launch) (u : TileNo) : (s.mapLaunch id f).tile u = s.tile u := rfl

/-! ## Fields of a tile -/

@[simp] theorem Tile.traceAdd_k (t : Tile) (a b c d e f : Nat) : (t.traceAdd a b c d e f).k = t.k := rfl
@[simp] theorem Tile.traceAdd_vec (t : Tile) (a b c d e f : Nat) : (t.traceAdd a b c d e f).vec = t.vec := rfl
@[simp] theorem Tile.traceAdd_streams (t : Tile) (a b c d e f : Nat) : (t.traceAdd a b c d e f).streams = t.streams := rfl
@[simp] theorem Tile.traceAdd_shapes (t : Tile) (a b c d e f : Nat) : (t.traceAdd a b c d e f).shapes = t.shapes := rfl
@[simp] theorem Tile.traceAdd_sems (t : Tile) (a b c d e f : Nat) : (t.traceAdd a b c d e f).sems = t.sems := rfl
@[simp] theorem Tile.traceAdd_eng (t : Tile) (a b c d e f : Nat) : (t.traceAdd a b c d e f).eng = t.eng := rfl
@[simp] theorem Tile.traceAdd_mx (t : Tile) (a b c d e f : Nat) : (t.traceAdd a b c d e f).mx = t.mx := rfl
@[simp] theorem Tile.traceAdd_spad (t : Tile) (a b c d e f : Nat) : (t.traceAdd a b c d e f).spad = t.spad := rfl
@[simp] theorem Tile.traceAdd_counters (t : Tile) (a b c d e f : Nat) : (t.traceAdd a b c d e f).counters = t.counters := rfl
@[simp] theorem Tile.traceAdd_run (t : Tile) (a b c d e f : Nat) : (t.traceAdd a b c d e f).run = t.run := rfl
@[simp] theorem Tile.traceAdd_survey (t : Tile) (a b c d e f : Nat) : (t.traceAdd a b c d e f).survey = t.survey := rfl
@[simp] theorem Tile.traceAdd_priv (t : Tile) (a b c d e f : Nat) : (t.traceAdd a b c d e f).priv = t.priv := rfl
@[simp] theorem Tile.traceAdd_xlat (t : Tile) (a b c d e f : Nat) : (t.traceAdd a b c d e f).xlat = t.xlat := rfl
@[simp] theorem Tile.traceAdd_dbg (t : Tile) (a b c d e f : Nat) : (t.traceAdd a b c d e f).dbg = t.dbg := rfl
@[simp] theorem Tile.traceAdd_margin (t : Tile) (a b c d e f : Nat) : (t.traceAdd a b c d e f).margin = t.margin := rfl
@[simp] theorem Tile.traceAdd_inp (t : Tile) (a b c d e f : Nat) : (t.traceAdd a b c d e f).inp = t.inp := rfl
@[simp] theorem Tile.traceAdd_dfr (t : Tile) (a b c d e f : Nat) : (t.traceAdd a b c d e f).dfr = t.dfr := rfl
@[simp] theorem Tile.traceAdd_checker (t : Tile) (a b c d e f : Nat) : (t.traceAdd a b c d e f).checker = t.checker := rfl
@[simp] theorem Tile.traceAdd_shadowCheck (t : Tile) (a b c d e f : Nat) : (t.traceAdd a b c d e f).shadowCheck = t.shadowCheck := rfl
@[simp] theorem Tile.traceAdd_clock (t : Tile) (a b c d e f : Nat) : (t.traceAdd a b c d e f).clock = t.clock := rfl
@[simp] theorem Tile.traceAdd_clockRem (t : Tile) (a b c d e f : Nat) : (t.traceAdd a b c d e f).clockRem = t.clockRem := rfl

@[simp] theorem Tile.addCmd_k (t : Tile) (p : BitVec 16) (e : Env) (ws : List Nat) (b : CmdBody) : (t.addCmd p e ws b).k = t.k := rfl
@[simp] theorem Tile.addCmd_vec (t : Tile) (p : BitVec 16) (e : Env) (ws : List Nat) (b : CmdBody) : (t.addCmd p e ws b).vec = t.vec := rfl
@[simp] theorem Tile.addCmd_streams (t : Tile) (p : BitVec 16) (e : Env) (ws : List Nat) (b : CmdBody) : (t.addCmd p e ws b).streams = t.streams := rfl
@[simp] theorem Tile.addCmd_shapes (t : Tile) (p : BitVec 16) (e : Env) (ws : List Nat) (b : CmdBody) : (t.addCmd p e ws b).shapes = t.shapes := rfl
@[simp] theorem Tile.addCmd_sems (t : Tile) (p : BitVec 16) (e : Env) (ws : List Nat) (b : CmdBody) : (t.addCmd p e ws b).sems = t.sems := rfl
@[simp] theorem Tile.addCmd_mx (t : Tile) (p : BitVec 16) (e : Env) (ws : List Nat) (b : CmdBody) : (t.addCmd p e ws b).mx = t.mx := rfl
@[simp] theorem Tile.addCmd_spad (t : Tile) (p : BitVec 16) (e : Env) (ws : List Nat) (b : CmdBody) : (t.addCmd p e ws b).spad = t.spad := rfl
@[simp] theorem Tile.addCmd_counters (t : Tile) (p : BitVec 16) (e : Env) (ws : List Nat) (b : CmdBody) : (t.addCmd p e ws b).counters = t.counters := rfl
@[simp] theorem Tile.addCmd_run (t : Tile) (p : BitVec 16) (e : Env) (ws : List Nat) (b : CmdBody) : (t.addCmd p e ws b).run = t.run := rfl
@[simp] theorem Tile.addCmd_seg (t : Tile) (p : BitVec 16) (e : Env) (ws : List Nat) (b : CmdBody) : (t.addCmd p e ws b).seg = t.seg := rfl
@[simp] theorem Tile.addCmd_survey (t : Tile) (p : BitVec 16) (e : Env) (ws : List Nat) (b : CmdBody) : (t.addCmd p e ws b).survey = t.survey := rfl
@[simp] theorem Tile.addCmd_priv (t : Tile) (p : BitVec 16) (e : Env) (ws : List Nat) (b : CmdBody) : (t.addCmd p e ws b).priv = t.priv := rfl
@[simp] theorem Tile.addCmd_xlat (t : Tile) (p : BitVec 16) (e : Env) (ws : List Nat) (b : CmdBody) : (t.addCmd p e ws b).xlat = t.xlat := rfl
@[simp] theorem Tile.addCmd_dbg (t : Tile) (p : BitVec 16) (e : Env) (ws : List Nat) (b : CmdBody) : (t.addCmd p e ws b).dbg = t.dbg := rfl
@[simp] theorem Tile.addCmd_margin (t : Tile) (p : BitVec 16) (e : Env) (ws : List Nat) (b : CmdBody) : (t.addCmd p e ws b).margin = t.margin := rfl
@[simp] theorem Tile.addCmd_dfr (t : Tile) (p : BitVec 16) (e : Env) (ws : List Nat) (b : CmdBody) : (t.addCmd p e ws b).dfr = t.dfr := rfl
@[simp] theorem Tile.addCmd_checker (t : Tile) (p : BitVec 16) (e : Env) (ws : List Nat) (b : CmdBody) : (t.addCmd p e ws b).checker = t.checker := rfl
@[simp] theorem Tile.addCmd_shadowCheck (t : Tile) (p : BitVec 16) (e : Env) (ws : List Nat) (b : CmdBody) : (t.addCmd p e ws b).shadowCheck = t.shadowCheck := rfl
@[simp] theorem Tile.addCmd_clock (t : Tile) (p : BitVec 16) (e : Env) (ws : List Nat) (b : CmdBody) : (t.addCmd p e ws b).clock = t.clock := rfl
@[simp] theorem Tile.addCmd_clockRem (t : Tile) (p : BitVec 16) (e : Env) (ws : List Nat) (b : CmdBody) : (t.addCmd p e ws b).clockRem = t.clockRem := rfl

@[simp] theorem Tile.mapPriv_k (t : Tile) (f : Priv → Priv) : (t.mapPriv f).k = t.k := rfl
@[simp] theorem Tile.mapPriv_vec (t : Tile) (f : Priv → Priv) : (t.mapPriv f).vec = t.vec := rfl
@[simp] theorem Tile.mapPriv_streams (t : Tile) (f : Priv → Priv) : (t.mapPriv f).streams = t.streams := rfl
@[simp] theorem Tile.mapPriv_shapes (t : Tile) (f : Priv → Priv) : (t.mapPriv f).shapes = t.shapes := rfl
@[simp] theorem Tile.mapPriv_sems (t : Tile) (f : Priv → Priv) : (t.mapPriv f).sems = t.sems := rfl
@[simp] theorem Tile.mapPriv_eng (t : Tile) (f : Priv → Priv) : (t.mapPriv f).eng = t.eng := rfl
@[simp] theorem Tile.mapPriv_mx (t : Tile) (f : Priv → Priv) : (t.mapPriv f).mx = t.mx := rfl
@[simp] theorem Tile.mapPriv_spad (t : Tile) (f : Priv → Priv) : (t.mapPriv f).spad = t.spad := rfl
@[simp] theorem Tile.mapPriv_counters (t : Tile) (f : Priv → Priv) : (t.mapPriv f).counters = t.counters := rfl
@[simp] theorem Tile.mapPriv_run (t : Tile) (f : Priv → Priv) : (t.mapPriv f).run = t.run := rfl
@[simp] theorem Tile.mapPriv_seg (t : Tile) (f : Priv → Priv) : (t.mapPriv f).seg = t.seg := rfl
@[simp] theorem Tile.mapPriv_survey (t : Tile) (f : Priv → Priv) : (t.mapPriv f).survey = t.survey := rfl
@[simp] theorem Tile.mapPriv_xlat (t : Tile) (f : Priv → Priv) : (t.mapPriv f).xlat = t.xlat := rfl
@[simp] theorem Tile.mapPriv_dbg (t : Tile) (f : Priv → Priv) : (t.mapPriv f).dbg = t.dbg := rfl
@[simp] theorem Tile.mapPriv_margin (t : Tile) (f : Priv → Priv) : (t.mapPriv f).margin = t.margin := rfl
@[simp] theorem Tile.mapPriv_inp (t : Tile) (f : Priv → Priv) : (t.mapPriv f).inp = t.inp := rfl
@[simp] theorem Tile.mapPriv_dfr (t : Tile) (f : Priv → Priv) : (t.mapPriv f).dfr = t.dfr := rfl
@[simp] theorem Tile.mapPriv_checker (t : Tile) (f : Priv → Priv) : (t.mapPriv f).checker = t.checker := rfl
@[simp] theorem Tile.mapPriv_shadowCheck (t : Tile) (f : Priv → Priv) : (t.mapPriv f).shadowCheck = t.shadowCheck := rfl
@[simp] theorem Tile.mapPriv_clock (t : Tile) (f : Priv → Priv) : (t.mapPriv f).clock = t.clock := rfl
@[simp] theorem Tile.mapPriv_clockRem (t : Tile) (f : Priv → Priv) : (t.mapPriv f).clockRem = t.clockRem := rfl

@[simp] theorem Tile.handlerFault_k (t : Tile) (c n : Nat) : (t.handlerFault c n).k = t.k := rfl
@[simp] theorem Tile.handlerFault_vec (t : Tile) (c n : Nat) : (t.handlerFault c n).vec = t.vec := rfl
@[simp] theorem Tile.handlerFault_streams (t : Tile) (c n : Nat) : (t.handlerFault c n).streams = t.streams := rfl
@[simp] theorem Tile.handlerFault_shapes (t : Tile) (c n : Nat) : (t.handlerFault c n).shapes = t.shapes := rfl
@[simp] theorem Tile.handlerFault_sems (t : Tile) (c n : Nat) : (t.handlerFault c n).sems = t.sems := rfl
@[simp] theorem Tile.handlerFault_eng (t : Tile) (c n : Nat) : (t.handlerFault c n).eng = t.eng := rfl
@[simp] theorem Tile.handlerFault_mx (t : Tile) (c n : Nat) : (t.handlerFault c n).mx = t.mx := rfl
@[simp] theorem Tile.handlerFault_spad (t : Tile) (c n : Nat) : (t.handlerFault c n).spad = t.spad := rfl
@[simp] theorem Tile.handlerFault_counters (t : Tile) (c n : Nat) : (t.handlerFault c n).counters = t.counters := rfl
@[simp] theorem Tile.handlerFault_run (t : Tile) (c n : Nat) : (t.handlerFault c n).run = t.run := rfl
@[simp] theorem Tile.handlerFault_seg (t : Tile) (c n : Nat) : (t.handlerFault c n).seg = t.seg := rfl
@[simp] theorem Tile.handlerFault_survey (t : Tile) (c n : Nat) : (t.handlerFault c n).survey = t.survey := rfl
@[simp] theorem Tile.handlerFault_xlat (t : Tile) (c n : Nat) : (t.handlerFault c n).xlat = t.xlat := rfl
@[simp] theorem Tile.handlerFault_dbg (t : Tile) (c n : Nat) : (t.handlerFault c n).dbg = t.dbg := rfl
@[simp] theorem Tile.handlerFault_margin (t : Tile) (c n : Nat) : (t.handlerFault c n).margin = t.margin := rfl
@[simp] theorem Tile.handlerFault_inp (t : Tile) (c n : Nat) : (t.handlerFault c n).inp = t.inp := rfl
@[simp] theorem Tile.handlerFault_checker (t : Tile) (c n : Nat) : (t.handlerFault c n).checker = t.checker := rfl
@[simp] theorem Tile.handlerFault_shadowCheck (t : Tile) (c n : Nat) : (t.handlerFault c n).shadowCheck = t.shadowCheck := rfl
@[simp] theorem Tile.handlerFault_clock (t : Tile) (c n : Nat) : (t.handlerFault c n).clock = t.clock := rfl
@[simp] theorem Tile.handlerFault_clockRem (t : Tile) (c n : Nat) : (t.handlerFault c n).clockRem = t.clockRem := rfl

@[simp] theorem Tile.setCtx_vec (t : Tile) (c : Ctx) : (t.setCtx c).vec = t.vec := by unfold Tile.setCtx; split <;> rfl
@[simp] theorem Tile.setCtx_streams (t : Tile) (c : Ctx) : (t.setCtx c).streams = t.streams := by unfold Tile.setCtx; split <;> rfl
@[simp] theorem Tile.setCtx_shapes (t : Tile) (c : Ctx) : (t.setCtx c).shapes = t.shapes := by unfold Tile.setCtx; split <;> rfl
@[simp] theorem Tile.setCtx_sems (t : Tile) (c : Ctx) : (t.setCtx c).sems = t.sems := by unfold Tile.setCtx; split <;> rfl
@[simp] theorem Tile.setCtx_eng (t : Tile) (c : Ctx) : (t.setCtx c).eng = t.eng := by unfold Tile.setCtx; split <;> rfl
@[simp] theorem Tile.setCtx_mx (t : Tile) (c : Ctx) : (t.setCtx c).mx = t.mx := by unfold Tile.setCtx; split <;> rfl
@[simp] theorem Tile.setCtx_spad (t : Tile) (c : Ctx) : (t.setCtx c).spad = t.spad := by unfold Tile.setCtx; split <;> rfl
@[simp] theorem Tile.setCtx_counters (t : Tile) (c : Ctx) : (t.setCtx c).counters = t.counters := by unfold Tile.setCtx; split <;> rfl
@[simp] theorem Tile.setCtx_run (t : Tile) (c : Ctx) : (t.setCtx c).run = t.run := by unfold Tile.setCtx; split <;> rfl
@[simp] theorem Tile.setCtx_seg (t : Tile) (c : Ctx) : (t.setCtx c).seg = t.seg := by unfold Tile.setCtx; split <;> rfl
@[simp] theorem Tile.setCtx_survey (t : Tile) (c : Ctx) : (t.setCtx c).survey = t.survey := by unfold Tile.setCtx; split <;> rfl
@[simp] theorem Tile.setCtx_xlat (t : Tile) (c : Ctx) : (t.setCtx c).xlat = t.xlat := by unfold Tile.setCtx; split <;> rfl
@[simp] theorem Tile.setCtx_dbg (t : Tile) (c : Ctx) : (t.setCtx c).dbg = t.dbg := by unfold Tile.setCtx; split <;> rfl
@[simp] theorem Tile.setCtx_margin (t : Tile) (c : Ctx) : (t.setCtx c).margin = t.margin := by unfold Tile.setCtx; split <;> rfl
@[simp] theorem Tile.setCtx_inp (t : Tile) (c : Ctx) : (t.setCtx c).inp = t.inp := by unfold Tile.setCtx; split <;> rfl
@[simp] theorem Tile.setCtx_dfr (t : Tile) (c : Ctx) : (t.setCtx c).dfr = t.dfr := by unfold Tile.setCtx; split <;> rfl
@[simp] theorem Tile.setCtx_checker (t : Tile) (c : Ctx) : (t.setCtx c).checker = t.checker := by unfold Tile.setCtx; split <;> rfl
@[simp] theorem Tile.setCtx_shadowCheck (t : Tile) (c : Ctx) : (t.setCtx c).shadowCheck = t.shadowCheck := by unfold Tile.setCtx; split <;> rfl
@[simp] theorem Tile.setCtx_clock (t : Tile) (c : Ctx) : (t.setCtx c).clock = t.clock := by unfold Tile.setCtx; split <;> rfl
@[simp] theorem Tile.setCtx_clockRem (t : Tile) (c : Ctx) : (t.setCtx c).clockRem = t.clockRem := by unfold Tile.setCtx; split <;> rfl
@[simp] theorem Tile.ctx_setCtx (t : Tile) (c : Ctx) : (t.setCtx c).ctx = c := by
  unfold Tile.setCtx Tile.ctx; split <;> simp_all
@[simp] theorem Tile.setCtx_active (t : Tile) (c : Ctx) : (t.setCtx c).priv.active = t.priv.active := by
  unfold Tile.setCtx; split <;> rfl

/-! ## The clock period -/

theorem State.me_tickMe (s : State) : s.tickMe.me = s.me.tick (s.mhzOf s.cur) := by
  simp only [State.tickMe]
  show (s.setMe (s.me.tick (s.mhzOf s.cur))).me = _
  simp

@[simp] theorem Tile.tick_k (t : Tile) (m : Nat) : (t.tick m).k = t.k := rfl
@[simp] theorem Tile.tick_vec (t : Tile) (m : Nat) : (t.tick m).vec = t.vec := rfl
@[simp] theorem Tile.tick_streams (t : Tile) (m : Nat) : (t.tick m).streams = t.streams := rfl
@[simp] theorem Tile.tick_shapes (t : Tile) (m : Nat) : (t.tick m).shapes = t.shapes := rfl
@[simp] theorem Tile.tick_spad (t : Tile) (m : Nat) : (t.tick m).spad = t.spad := rfl
@[simp] theorem Tile.tick_counters (t : Tile) (m : Nat) : (t.tick m).counters = t.counters := rfl
@[simp] theorem Tile.tick_run (t : Tile) (m : Nat) : (t.tick m).run = t.run := rfl
@[simp] theorem Tile.tick_survey (t : Tile) (m : Nat) : (t.tick m).survey = t.survey := rfl
@[simp] theorem Tile.tick_priv (t : Tile) (m : Nat) : (t.tick m).priv = t.priv := rfl
@[simp] theorem Tile.tick_xlat (t : Tile) (m : Nat) : (t.tick m).xlat = t.xlat := rfl
@[simp] theorem Tile.tick_dbg (t : Tile) (m : Nat) : (t.tick m).dbg = t.dbg := rfl
@[simp] theorem Tile.tick_dfr (t : Tile) (m : Nat) : (t.tick m).dfr = t.dfr := rfl
@[simp] theorem Tile.tick_checker (t : Tile) (m : Nat) : (t.tick m).checker = t.checker := rfl
@[simp] theorem Tile.tick_shadowCheck (t : Tile) (m : Nat) : (t.tick m).shadowCheck = t.shadowCheck := rfl
@[simp] theorem Tile.tick_mx_cfg (t : Tile) (m : Nat) : (t.tick m).mx.cfg = t.mx.cfg := rfl
@[simp] theorem Tile.tick_mx_acc (t : Tile) (m : Nat) : (t.tick m).mx.acc = t.mx.acc := rfl
@[simp] theorem Tile.tick_mx_shadowNext (t : Tile) (m : Nat) : (t.tick m).mx.shadowNext = t.mx.shadowNext := rfl
@[simp] theorem Tile.tick_mx_fb (t : Tile) (m : Nat) : (t.tick m).mx.fb = t.mx.fb := rfl
@[simp] theorem Tile.tick_mx_i (t : Tile) (m : Nat) : (t.tick m).mx.i = t.mx.i := rfl
@[simp] theorem Tile.tick_mx_cyc (t : Tile) (m : Nat) : (t.tick m).mx.cyc = t.mx.cyc := rfl
@[simp] theorem Tile.tick_mx_lastDense (t : Tile) (m : Nat) : (t.tick m).mx.lastDense = t.mx.lastDense := rfl
@[simp] theorem Tile.tick_mx_next (t : Tile) (m : Nat) : (t.tick m).mx.next = t.mx.next := rfl
@[simp] theorem Tile.tick_eng_held (t : Tile) (m : Nat) : (t.tick m).eng.held = t.eng.held := rfl
@[simp] theorem Tile.tick_eng_released (t : Tile) (m : Nat) : (t.tick m).eng.released = t.eng.released := rfl
@[simp] theorem Tile.tick_eng_queue (t : Tile) (m : Nat) : (t.tick m).eng.queue = t.eng.queue := rfl
@[simp] theorem Tile.tick_eng_next (t : Tile) (m : Nat) : (t.tick m).eng.next = t.eng.next := rfl

end Machine
end Sys2Proof
end

