-- ==== Sys2Proof/Laws/Issue.lean ====
section
/-! SUPPORT. What one issue does: the checks passed, the run of the one operation, the end of the clock period. -/
namespace Sys2Proof.Machine

/-! ## What the matrix engine leaves alone -/

/-- A tile without what the matrix engine, the stores and the comparisons change. -/
def Tile.rest (t : Tile) : Tile :=
  { t with mx := Matrix.start { vals := [], poison := [] }, seg := Segment.reset, sems := Sems.zero,
           eng := { lag := [], held := [], released := [], queue := [], next := 0 }, spad := { bytes := [], poison := [] },
           counters := Counters.zero }

theorem foldl_keeps {α β γ : Type} (p : α → γ) (f : α → β → α) (h : ∀ a b, p (f a b) = p a) (l : List β) (a : α) :
    p (l.foldl f a) = p a := by
  induction l generalizing a with
  | nil => rfl
  | cons b l ih => simp only [List.foldl_cons, ih, h]

theorem Tile.rest_logLine (t : Tile) (n : Nat) : (t.logLine n).rest = t.rest := by
  unfold Tile.logLine; dsimp only; split
  · rfl
  · split <;> rfl

theorem Tile.rest_scheduledWrite (t : Tile) (w : SpadWrite) : (t.scheduledWrite w).rest = t.rest := by
  show Tile.rest { w.lines.foldl Tile.logLine t with spad := _ } = _
  exact foldl_keeps Tile.rest Tile.logLine Tile.rest_logLine _ t

theorem Tile.rest_handlerWrite (t : Tile) (w : SpadWrite) : (t.handlerWrite w).rest = t.rest := by
  show Tile.rest { (w.lines.filter fun l => decide (64 * l < t.img.scratch)).foldl Tile.logLine t with spad := _ } = _
  exact foldl_keeps Tile.rest Tile.logLine Tile.rest_logLine _ t

theorem Tile.rest_compared (t : Tile) (c : Check) (k a n m : Nat) (x y : List Nat) : (t.compared c k a n m x y).rest = t.rest := by
  unfold Tile.compared
  dsimp only
  split
  · split
    · rfl
    · split <;> rfl
  · split <;> rfl

theorem Tile.rest_shadowRows (t : Tile) (u : Bool) : (t.shadowRows u).rest = t.rest := by
  refine foldl_keeps Tile.rest _ (fun a x => ?_) _ t
  split
  · split
    · rfl
    · exact foldl_keeps Tile.rest _ (fun a r => Tile.rest_compared ..) _ a
  · rfl

theorem Tile.rest_mxReads (t : Tile) : t.mxReads.rest = t.rest := by
  show Tile.rest (List.foldl _ t _) = _
  refine foldl_keeps Tile.rest _ (fun a x => ?_) _ t
  rfl

theorem Tile.rest_mxComplete (t : Tile) (p : BitVec 16) (x : MxCmd) : (t.mxComplete p x).rest = t.rest := by
  unfold Tile.mxComplete
  cases x.empty <;> dsimp only <;> split <;> first | rfl | (split <;> first | rfl | (split <;> rfl))

theorem Tile.rest_mxWrites (t : Tile) (p : BitVec 16) : (t.mxWrites p).rest = t.rest := by
  unfold Tile.mxWrites
  dsimp only
  show Tile.rest (List.foldl _ (List.foldl _ t _) _) = _
  rw [foldl_keeps Tile.rest _ (fun a x => Tile.rest_mxComplete a p x)]
  refine foldl_keeps Tile.rest _ (fun a x => ?_) _ t
  show Tile.rest (List.foldl Tile.scheduledWrite a _) = _
  exact foldl_keeps Tile.rest _ Tile.rest_scheduledWrite _ a

/-! ## Arrivals -/

theorem filter_all {α : Type} (l : List α) (p : α → Bool) (h : ∀ a ∈ l, p a = true) : l.filter p = l :=
  List.filter_eq_self.mpr h

theorem filter_none {α : Type} (l : List α) (p : α → Bool) (h : ∀ a ∈ l, p a = false) : l.filter p = [] :=
  List.filter_eq_nil_iff.mpr fun a ha => by simp [h a ha]

theorem not_discarded (l : List InFlight) : (l.filter fun e => !discarded [] e) = l :=
  filter_all _ _ fun a _ => by unfold discarded; split <;> rfl

/-- Nothing is due: nothing arrives. -/
theorem Tile.arrivals_none (t : Tile) (hc : t.checker = none) (h : ∀ e ∈ t.k.infl, t.k.cycle ≤ e.last) : t.arrivals = t := by
  have hd : (t.k.infl.filter fun e => decide (e.last < t.k.cycle)) = [] :=
    filter_none _ _ fun a ha => by simp only [decide_eq_false_iff_not]; have := h a ha; omega
  have hr : (t.k.infl.filter fun e => !decide (e.last < t.k.cycle)) = t.k.infl :=
    filter_all _ _ fun a ha => by have := h a ha; simp; omega
  unfold Tile.arrivals
  simp only [hd, unbinds, List.filterMap_nil, not_discarded, hr, sortFlight, List.foldl_nil]
  cases t; simp_all

/-- One result is due, no unbind: it arrives, and the others stand. -/
theorem Tile.arrivals_one (t : Tile) (old : List InFlight) (e : InFlight) (hc : t.checker = none)
    (hi : t.k.infl = old ++ [e]) (ho : ∀ x ∈ old, t.k.cycle ≤ x.last) (he : e.last < t.k.cycle)
    (hu : unbinds [e] = []) (hk : ∀ x : Tile, x.checker = none → (x.arriveOne e).checker = none) :
    t.arrivals = Tile.arriveOne { t with k := { t.k with infl := old } } e := by
  have hd : (t.k.infl.filter fun x => decide (x.last < t.k.cycle)) = [e] := by
    rw [hi, List.filter_append, filter_none old _ fun a ha => by simp only [decide_eq_false_iff_not]; have := ho a ha; omega]
    simp [he]
  have hr : (t.k.infl.filter fun x => !decide (x.last < t.k.cycle)) = old := by
    rw [hi, List.filter_append, filter_all old _ fun a ha => by have := ho a ha; simp; omega]
    simp [he]
  unfold Tile.arrivals
  simp only [hd, hu, not_discarded, hr, sortFlight, insertFlight, List.foldl_cons, List.foldl_nil]
  split
  · rfl
  · rename_i h
    exact absurd (h.symm.trans (hk _ hc)) (by simp)

/-- Where the checker's copy of the shadow context does not differ, only the shadow context's results arrive. -/
theorem Tile.shadowArrivals_same (t : Tile) (h : t.shadowCheck = none) :
    t.shadowArrivals = { t with priv := { t.priv with shadow := t.priv.shadow.arrivals t.priv.shadow.cycle } } := by
  unfold Tile.shadowArrivals
  dsimp only
  rw [h]

theorem Tile.shadowArrivals_none (t : Tile) (hs : t.shadowCheck = none) (h : ∀ e ∈ t.priv.shadow.infl, t.priv.shadow.cycle ≤ e.last) :
    t.shadowArrivals = t := by
  have hd : (t.priv.shadow.infl.filter fun e => decide (e.last < t.priv.shadow.cycle)) = [] :=
    filter_none _ _ fun a ha => by simp only [decide_eq_false_iff_not]; have := h a ha; omega
  have hr : (t.priv.shadow.infl.filter fun e => !decide (e.last < t.priv.shadow.cycle)) = t.priv.shadow.infl :=
    filter_all _ _ fun a ha => by have := h a ha; simp; omega
  unfold Tile.shadowArrivals Ctx.arrivals
  simp only [hd, hr, hs, sortFlight, List.foldl_nil]
  cases t; simp_all

theorem Tile.shadowArrivals_one (t : Tile) (old : List InFlight) (e : InFlight) (hs : t.shadowCheck = none) (hi : t.priv.shadow.infl = old ++ [e])
    (ho : ∀ x ∈ old, t.priv.shadow.cycle ≤ x.last) (he : e.last < t.priv.shadow.cycle) :
    t.shadowArrivals = { t with priv := { t.priv with shadow := Ctx.arrive { t.priv.shadow with infl := old } e.res } } := by
  have hd : (t.priv.shadow.infl.filter fun x => decide (x.last < t.priv.shadow.cycle)) = [e] := by
    rw [hi, List.filter_append, filter_none old _ fun a ha => by simp only [decide_eq_false_iff_not]; have := ho a ha; omega]
    simp [he]
  have hr : (t.priv.shadow.infl.filter fun x => !decide (x.last < t.priv.shadow.cycle)) = old := by
    rw [hi, List.filter_append, filter_all old _ fun a ha => by have := ho a ha; simp; omega]
    simp [he]
  unfold Tile.shadowArrivals Ctx.arrivals
  simp only [hd, hr, hs, sortFlight, insertFlight, List.foldl_cons, List.foldl_nil]

theorem Tile.rest_arriveOne (t : Tile) (e : InFlight) : (t.arriveOne e).rest = t.rest.arriveOne e := by
  unfold Tile.arriveOne
  dsimp only
  cases e.res <;> cases e.place <;> rfl

theorem Tile.rest_arriveAll (l : List InFlight) (t : Tile) : (l.foldl Tile.arriveOne t).rest = l.foldl Tile.arriveOne t.rest := by
  induction l generalizing t with
  | nil => rfl
  | cons e l ih => simp only [List.foldl_cons, ih, Tile.rest_arriveOne]

theorem Tile.rest_withChecker (t : Tile) (x : Option (Ctx × VecState)) : Tile.rest { t with checker := x } = { t.rest with checker := x } :=
  rfl

theorem Tile.rest_arrivals (t : Tile) : t.arrivals.rest = t.rest.arrivals := by
  have hk : ∀ u : Tile, u.rest.k = u.k := fun _ => rfl
  have hv : ∀ u : Tile, u.rest.vec = u.vec := fun _ => rfl
  have hc : ∀ u : Tile, u.rest.checker = u.checker := fun _ => rfl
  unfold Tile.arrivals
  dsimp only
  simp only [hk]
  generalize sortFlight _ = due
  generalize List.filter _ (List.filter _ t.k.infl) = rest
  have h : ∀ u : Tile, (List.foldl Tile.arriveOne { t.rest with k := { t.k with infl := rest } } due)
      = (List.foldl Tile.arriveOne { t with k := { t.k with infl := rest } } due).rest :=
    fun _ => (Tile.rest_arriveAll due { t with k := { t.k with infl := rest } }).symm
  rw [h t]
  generalize List.foldl Tile.arriveOne { t with k := { t.k with infl := rest } } due = u
  simp only [hc, hk, hv]
  cases u.checker with
  | none => rfl
  | some p => rfl

theorem Tile.arriveOne_k (t : Tile) (e : InFlight) : (t.arriveOne e).k = t.k.arrive e.res := by
  unfold Tile.arriveOne
  dsimp only
  cases e.res <;> cases e.place <;> rfl

theorem Tile.arriveOne_streams (t : Tile) (e : InFlight) :
    (t.arriveOne e).streams = match e.place, e.res.elem with
      | some p, some x => t.streams.mapSerial p.1 fun st => st.fill p.2 x
      | _, _ => t.streams := by
  unfold Tile.arriveOne
  dsimp only
  cases e.res <;> cases e.place <;> rfl

theorem Tile.arriveOne_over (t : Tile) (v : Survey) (p : Priv) (e : InFlight) :
    Tile.arriveOne { t with survey := v, priv := p } e = { t.arriveOne e with survey := v, priv := p } := by
  unfold Tile.arriveOne
  dsimp only
  cases e.res <;> cases e.place <;> rfl

/-- Arrivals look at neither the survey nor the privileged state. -/
theorem Tile.arrivals_over (t : Tile) (v : Survey) (p : Priv) :
    Tile.arrivals { t with survey := v, priv := p } = { t.arrivals with survey := v, priv := p } := by
  unfold Tile.arrivals
  dsimp only
  generalize sortFlight _ = due
  generalize List.filter _ (List.filter _ t.k.infl) = rest
  have h : ∀ (l : List InFlight) (u : Tile), List.foldl Tile.arriveOne { u with survey := v, priv := p } l
      = { List.foldl Tile.arriveOne u l with survey := v, priv := p } := by
    intro l
    induction l with
    | nil => intro u; rfl
    | cons e l ih => intro u; simp only [List.foldl_cons, Tile.arriveOne_over, ih]
  have h2 := h due { t with k := { t.k with infl := rest } }
  simp only at h2
  rw [h2]
  generalize List.foldl Tile.arriveOne { t with k := { t.k with infl := rest } } due = u
  cases u with
  | mk k vec streams shapes sems eng mx spad counters run seg survey priv xlat dbg margin inp dfr checker clock clockRem =>
    cases checker <;> rfl

/-! ## The end of a cycle of the kernel -/

theorem presentLoop_none (p : BitVec 16) (n : Nat) (t : Tile) (h : ∀ c ∈ t.eng.lag, t.mx.cyc < c.cycle + 5) :
    presentLoop p n t = t := by
  cases n with
  | zero => rfl
  | succ n =>
    unfold presentLoop
    split
    · rfl
    · rename_i c rest hl
      have := h c (by simp [hl])
      rw [if_neg (by omega)]

/-- Everything of the engines that a cycle without a presentation leaves alone. -/
def Tile.lagOf (t : Tile) : List Cmd × List Cmd × List Active := (t.eng.lag, t.eng.released, t.eng.queue)

theorem Tile.lagOf_scheduledWrite (t : Tile) (w : SpadWrite) : (t.scheduledWrite w).lagOf = t.lagOf := by
  show Tile.lagOf (List.foldl Tile.logLine t w.lines) = _
  refine foldl_keeps Tile.lagOf Tile.logLine (fun a n => ?_) _ t
  unfold Tile.logLine; dsimp only; split
  · rfl
  · split <;> rfl

theorem Tile.lagOf_compared (t : Tile) (c : Check) (k a n m : Nat) (x y : List Nat) :
    (t.compared c k a n m x y).lagOf = t.lagOf := by
  unfold Tile.compared
  dsimp only
  split
  · split
    · rfl
    · split <;> rfl
  · split <;> rfl

theorem Tile.lagOf_shadowRows (t : Tile) (u : Bool) : (t.shadowRows u).lagOf = t.lagOf := by
  refine foldl_keeps Tile.lagOf _ (fun a x => ?_) _ t
  split
  · split
    · rfl
    · exact foldl_keeps Tile.lagOf _ (fun a r => Tile.lagOf_compared ..) _ a
  · rfl

theorem Tile.lagOf_mxReads (t : Tile) : t.mxReads.lagOf = t.lagOf := by
  show Tile.lagOf (List.foldl _ t _) = _
  refine foldl_keeps Tile.lagOf _ (fun a x => ?_) _ t
  rfl

theorem Tile.lagOf_mxWrites (t : Tile) (p : BitVec 16) : (t.mxWrites p).lagOf = t.lagOf := by
  unfold Tile.mxWrites
  dsimp only
  show Tile.lagOf (List.foldl _ (List.foldl _ t _) _) = _
  rw [foldl_keeps Tile.lagOf _ (fun a x => ?_)]
  · refine foldl_keeps Tile.lagOf _ (fun a x => ?_) _ t
    show Tile.lagOf (List.foldl Tile.scheduledWrite a _) = _
    exact foldl_keeps Tile.lagOf _ Tile.lagOf_scheduledWrite _ a
  · unfold Tile.mxComplete
    cases x.empty <;> dsimp only <;> split <;> first | rfl | (split <;> first | rfl | (split <;> rfl))

theorem Tile.mxWrites_cyc (t : Tile) (p : BitVec 16) : (t.mxWrites p).mx.cyc = t.mx.cyc + 1 := rfl

theorem Tile.cyc_scheduledWrite (t : Tile) (w : SpadWrite) : (t.scheduledWrite w).mx.cyc = t.mx.cyc := by
  show Matrix.cyc (Tile.mx (List.foldl Tile.logLine t w.lines)) = _
  refine foldl_keeps (fun t : Tile => t.mx.cyc) Tile.logLine (fun a n => ?_) _ t
  unfold Tile.logLine; dsimp only; split
  · rfl
  · split <;> rfl

theorem Tile.cyc_shadowRows (t : Tile) (u : Bool) : (t.shadowRows u).mx.cyc = t.mx.cyc := by
  refine foldl_keeps (fun t : Tile => t.mx.cyc) _ (fun a x => ?_) _ t
  split
  · split
    · rfl
    · refine foldl_keeps (fun t : Tile => t.mx.cyc) _ (fun a r => ?_) _ a
      unfold Tile.compareRow Tile.compared
      dsimp only
      split
      · split
        · rfl
        · split <;> rfl
      · split <;> rfl
  · rfl

theorem Tile.arriveOne_lagOf (t : Tile) (e : InFlight) : (t.arriveOne e).lagOf = t.lagOf := by
  unfold Tile.arriveOne
  dsimp only
  cases e.res <;> cases e.place <;> rfl

theorem Tile.arriveOne_mx (t : Tile) (e : InFlight) : (t.arriveOne e).mx = t.mx := by
  unfold Tile.arriveOne
  dsimp only
  cases e.res <;> cases e.place <;> rfl

theorem Tile.arrivals_keeps {γ : Type} (p : Tile → γ) (h1 : ∀ t e, p (Tile.arriveOne t e) = p t)
    (h2 : ∀ (t : Tile) x, p { t with checker := x } = p t) (h3 : ∀ (t : Tile) k, p { t with k := k } = p t) (t : Tile) :
    p t.arrivals = p t := by
  unfold Tile.arrivals
  dsimp only
  split
  · rw [foldl_keeps p Tile.arriveOne h1, h3]
  · rw [h2, foldl_keeps p Tile.arriveOne h1, h3]

theorem Tile.arrivals_lagOf (t : Tile) : t.arrivals.lagOf = t.lagOf :=
  Tile.arrivals_keeps Tile.lagOf Tile.arriveOne_lagOf (fun _ _ => rfl) (fun _ _ => rfl) t

theorem Tile.arrivals_mx (t : Tile) : t.arrivals.mx = t.mx :=
  Tile.arrivals_keeps Tile.mx Tile.arriveOne_mx (fun _ _ => rfl) (fun _ _ => rfl) t

theorem Tile.checkCopies_rest (t : Tile) (a c : Nat) : (t.checkCopies a c).rest = t.rest := by
  unfold Tile.checkCopies; split
  · exact Tile.rest_compared ..
  · rfl

theorem Tile.checkCopies_lagOf (t : Tile) (a c : Nat) : (t.checkCopies a c).lagOf = t.lagOf := by
  unfold Tile.checkCopies; split
  · exact Tile.lagOf_compared ..
  · rfl

theorem Tile.checkCopies_mx (t : Tile) (a c : Nat) : (t.checkCopies a c).mx = t.mx := by
  unfold Tile.checkCopies; split
  · unfold Tile.compared
    dsimp only
    split
    · split
      · rfl
      · split <;> rfl
    · split <;> rfl
  · rfl

/-- The end of a cycle in which no command is due, as the rest of the tile sees it: the sequencer's change, and the arrivals. -/
theorem Tile.rest_endCycle (t : Tile) (p : BitVec 16) (a : Nat) (h : ∀ c ∈ t.eng.lag, t.k.cycle < c.cycle + 4) :
    (t.endCycle p a).rest =
      { (Tile.arrivals { t.rest with k := { t.k with seq := t.dfr.seq.getD t.k.seq, cycle := t.k.cycle + 1 } }) with
        run := t.run.map fun (r : Run) => { r with sc := r.sc + 1 }, dfr := Deferred.none } ∧
    (t.endCycle p a).lagOf = t.lagOf := by
  unfold Tile.endCycle
  dsimp only
  generalize hu1 : Tile.mxReads { t with mx := { t.mx with cyc := t.k.cycle } } = u1
  have r1 : u1.rest = t.rest := by rw [← hu1, Tile.rest_mxReads]; rfl
  have l1 : u1.lagOf = t.lagOf := by rw [← hu1, Tile.lagOf_mxReads]; rfl
  have c1 : u1.mx.cyc = t.k.cycle := by
    rw [← hu1]
    show (Tile.mx (List.foldl _ _ _)).cyc = _
    rw [foldl_keeps (fun t : Tile => t.mx.cyc) _ (fun a x => by rfl)]
  have d1 : u1.dfr = t.dfr := by have h := congrArg Tile.dfr r1; exact h
  generalize hu2 : List.foldl Tile.scheduledWrite u1 u1.dfr.writes = u2
  have r2 : u2.rest = t.rest := by rw [← hu2, foldl_keeps Tile.rest _ Tile.rest_scheduledWrite, r1]
  have l2 : u2.lagOf = t.lagOf := by rw [← hu2, foldl_keeps Tile.lagOf _ Tile.lagOf_scheduledWrite, l1]
  have c2 : u2.mx.cyc = t.k.cycle := by rw [← hu2, foldl_keeps (fun t : Tile => t.mx.cyc) _ Tile.cyc_scheduledWrite, c1]
  generalize hu3 : (u2.shadowRows u2.dfr.rowUpset).mxWrites p = u3
  have r3 : u3.rest = t.rest := by rw [← hu3, Tile.rest_mxWrites, Tile.rest_shadowRows, r2]
  have l3 : u3.lagOf = t.lagOf := by rw [← hu3, Tile.lagOf_mxWrites, Tile.lagOf_shadowRows, l2]
  have c3 : u3.mx.cyc = t.k.cycle + 1 := by rw [← hu3, Tile.mxWrites_cyc, Tile.cyc_shadowRows, c2]
  have k3 : u3.k = t.k := by have h := congrArg Tile.k r3; exact h
  have d3 : u3.dfr = t.dfr := by have h := congrArg Tile.dfr r3; exact h
  generalize hu4 : ({ u3 with k := { u3.k with seq := u3.dfr.seq.getD u3.k.seq, cycle := t.k.cycle + 1 } } : Tile) = u4
  have l4 : u4.lagOf = t.lagOf := by rw [← hu4, ← l3]; rfl
  have c4 : u4.mx.cyc = t.k.cycle + 1 := by rw [← hu4, ← c3]
  have r4 : u4.rest = { t.rest with k := { t.k with seq := t.dfr.seq.getD t.k.seq, cycle := t.k.cycle + 1 } } := by
    rw [← hu4, ← r3, show ({ t.k with seq := t.dfr.seq.getD t.k.seq, cycle := t.k.cycle + 1 } : Ctx) =
      { u3.k with seq := u3.dfr.seq.getD u3.k.seq, cycle := t.k.cycle + 1 } by rw [k3, d3]]
    rfl
  generalize hu5 : u4.arrivals.checkCopies a t.k.cycle = u5
  have l5 : u5.lagOf = t.lagOf := by rw [← hu5, Tile.checkCopies_lagOf, Tile.arrivals_lagOf, l4]
  have c5 : u5.mx.cyc = t.k.cycle + 1 := by rw [← hu5, Tile.checkCopies_mx, Tile.arrivals_mx, c4]
  have r5 : u5.rest = u4.rest.arrivals := by rw [← hu5, Tile.checkCopies_rest, Tile.rest_arrivals]
  have hp : u5.present p = u5 := by
    refine presentLoop_none p _ u5 fun c hc => ?_
    have : u5.eng.lag = t.eng.lag := congrArg Prod.fst l5
    have := h c (this ▸ hc)
    omega
  rw [hp]
  have hr : u5.run = t.run := by
    have h1 : u5.run = u4.rest.arrivals.run := by have h := congrArg Tile.run r5; exact h
    rw [h1, Tile.arrivals_keeps Tile.run (fun t e => by unfold Tile.arriveOne; dsimp only; cases e.res <;> cases e.place <;> rfl)
      (fun _ _ => rfl) (fun _ _ => rfl), r4]
    rfl
  refine ⟨?_, ?_⟩
  · rw [hr, ← r4, ← r5]
    rfl
  · rw [← l5]
    rfl

/-! ## The end of an issue -/

/-- The tile at the end of the kernel's cycle, with what has arrived. -/
def Tile.ended (t : Tile) : Tile :=
  Tile.arrivals { t.rest with k := { t.k with seq := t.dfr.seq.getD t.k.seq, cycle := t.k.cycle + 1 } }

/-- A tile without what the clock moves on either. -/
def Tile.core (t : Tile) : Tile :=
  { t.rest with clock := 0, clockRem := 0, inp := { replays := [], stretch := [], checkerLate := [], upsets := [], stuck := [], stuckRegs := [], transit := [] },
                margin := Tile.reset.margin, dbg := Debug.reset }

theorem Tile.core_tick (t : Tile) (m : Nat) : (t.tick m).core = t.core := rfl
theorem Tile.core_rest (t : Tile) : t.rest.core = t.core := rfl

theorem Tile.core_atBoundary (t : Tile) : t.atBoundary.core = t.core := by
  unfold Tile.atBoundary; dsimp only; split <;> rfl

theorem Tile.rest_noteReached (t : Tile) (a c : Nat) : (t.noteReached a c).rest = t.rest := by
  unfold Tile.noteReached; split
  · split <;> rfl
  · rfl

theorem Tile.eng_noteReached (t : Tile) (a c : Nat) : (t.noteReached a c).eng = t.eng := by
  unfold Tile.noteReached; split
  · split <;> rfl
  · rfl

/-- The tile as an issue of the kernel leaves it to the end of the cycle. -/
def State.issued (s : State) (b : Batch) : Tile :=
  Tile.noteReached { s.me with counters := s.me.counters.countIssue (min s.me.k.depth 6) b.ops } b.addr s.me.k.cycle

theorem State.rest_issued (s : State) (b : Batch) : (s.issued b).rest = s.me.rest := by
  unfold State.issued; rw [Tile.rest_noteReached]; rfl

theorem State.issued_eng (s : State) (b : Batch) : (s.issued b).eng = s.me.eng := by
  unfold State.issued; rw [Tile.eng_noteReached]

theorem State.issued_end (s : State) (b : Batch) (hl : ∀ c ∈ s.me.eng.lag, s.me.k.cycle < c.cycle + 4) :
    ((s.issued b).endCycle (s.place s.cur) b.addr).rest =
      { s.me.ended with run := s.me.run.map fun (r : Run) => { r with sc := r.sc + 1 }, dfr := Deferred.none } ∧
    ((s.issued b).endCycle (s.place s.cur) b.addr).lagOf = s.me.lagOf := by
  have hr := s.rest_issued b
  have he := s.issued_eng b
  generalize s.issued b = u at hr he
  have hk : u.k = s.me.k := by have h := congrArg Tile.k hr; exact h
  have hd : u.dfr = s.me.dfr := by have h := congrArg Tile.dfr hr; exact h
  have hn : u.run = s.me.run := by have h := congrArg Tile.run hr; exact h
  have h := Tile.rest_endCycle u (s.place s.cur) b.addr (by rw [he, hk]; exact hl)
  rw [hr, hk, hd, hn] at h
  refine ⟨h.1, h.2.trans ?_⟩
  unfold Tile.lagOf
  rw [he]

/-- The tile that an issue which does not end the item leaves, before its clock period passes. -/
theorem finishIssue_eq (s : State) (b : Batch) (he : s.me.dfr.ended = false) :
    ∃ (d : Debug) (m : Nat), (s.finishIssue b).me = Tile.tick
      { Tile.atBoundary { (s.issued b).endCycle (s.place s.cur) b.addr with
          k := { ((s.issued b).endCycle (s.place s.cur) b.addr).k with
            pos := nextPosition b s.me.k.pos s.me.dfr (min s.me.k.depth 6) s.me.seg.heldCount } } with dbg := d } m := by
  unfold State.finishIssue State.issued
  dsimp only
  generalize Tile.endCycle _ _ _ = u
  generalize nextPosition _ _ _ _ _ = q
  rw [he]
  simp only [Bool.false_eq_true, if_false, State.me_tickMe, State.me_setMe]
  generalize Tile.atBoundary _ = v
  exact ⟨{ v.dbg with skip := false }, _, rfl⟩

/-- What an issue of the kernel that does not end the item leaves, apart from what `core` leaves out. -/
theorem finishIssue_core (s : State) (b : Batch) (he : s.me.dfr.ended = false)
    (hl : ∀ c ∈ s.me.eng.lag, s.me.k.cycle < c.cycle + 4) :
    (s.finishIssue b).me.core =
      Tile.core { s.me.ended with
        k := { s.me.ended.k with pos := nextPosition b s.me.k.pos s.me.dfr (min s.me.k.depth 6) s.me.seg.heldCount },
        run := s.me.run.map fun (r : Run) => { r with sc := r.sc + 1 }, dfr := Deferred.none } := by
  obtain ⟨d, m, hd⟩ := finishIssue_eq s b he
  have h := (s.issued_end b hl).1
  generalize (s.issued b).endCycle (s.place s.cur) b.addr = u at hd h
  generalize nextPosition b s.me.k.pos s.me.dfr (min s.me.k.depth 6) s.me.seg.heldCount = q at hd
  rw [hd, Tile.core_tick]
  have hk : u.k = s.me.ended.k := by have h := congrArg Tile.k h; exact h
  show Tile.core (Tile.atBoundary { u with k := { u.k with pos := q } }) = _
  rw [Tile.core_atBoundary, hk]
  have h3 := congrArg (fun x : Tile => Tile.core { x with k := { s.me.ended.k with pos := q } }) h
  exact h3

theorem finishIssue_lag (s : State) (b : Batch) (he : s.me.dfr.ended = false)
    (hl : ∀ c ∈ s.me.eng.lag, s.me.k.cycle < c.cycle + 4) :
    (s.finishIssue b).me.eng.queue = s.me.eng.queue ∧ (s.finishIssue b).me.eng.released = s.me.eng.released ∧
    (∀ c ∈ s.me.eng.lag, ∃ c' ∈ (s.finishIssue b).me.eng.lag, { c' with late := c.late } = c) := by
  obtain ⟨d, m, hd⟩ := finishIssue_eq s b he
  have h := (s.issued_end b hl).2
  generalize (s.issued b).endCycle (s.place s.cur) b.addr = u at hd h
  generalize nextPosition b s.me.k.pos s.me.dfr (min s.me.k.depth 6) s.me.seg.heldCount = q at hd
  have hb : ∀ t : Tile, t.atBoundary.eng = t.eng := by intro t; unfold Tile.atBoundary; dsimp only; split <;> rfl
  have hv : ∃ v : Tile, (s.finishIssue b).me = v.tick m ∧ v.eng = u.eng := ⟨_, hd, hb _⟩
  obtain ⟨v, hd, hv⟩ := hv
  have e1 : u.eng.lag = s.me.eng.lag := by have := congrArg Prod.fst h; exact this
  have e2 : u.eng.released = s.me.eng.released := by have := congrArg (fun p => p.2.1) h; exact this
  have e3 : u.eng.queue = s.me.eng.queue := by have := congrArg (fun p => p.2.2) h; exact this
  rw [hd]
  refine ⟨?_, ?_, ?_⟩
  · simp only [Tile.tick_eng_queue]; rw [hv]; exact e3
  · simp only [Tile.tick_eng_released]; rw [hv]; exact e2
  · intro c hc
    unfold Tile.tick
    dsimp only
    rw [hv]
    show ∃ c' ∈ (match u.eng.lag with | [] => [] | c :: cs => { c with late := c.late - 1 } :: cs), _
    rw [e1]
    generalize s.me.eng.lag = l at hc ⊢
    cases l with
    | nil => cases hc
    | cons d ds =>
      cases List.mem_cons.mp hc with
      | inl h => subst h; exact ⟨_, List.mem_cons_self .., rfl⟩
      | inr h => exact ⟨c, List.mem_cons_of_mem _ h, rfl⟩

/-! ## The whole issue -/

theorem pickCand_nil : pickCand [] = none := rfl

theorem State.replays_none (s : State) (b : Batch) (d : Nat) (h : s.me.inp.replays = []) : s.replays b d = s := by
  unfold State.replays
  rw [h]
  show (s.mapMe _) = s
  have : ({ s.me with inp := { s.me.inp with replays := s.me.inp.replays.tail } } : Tile) = s.me := by
    have ht : s.me.inp.replays.tail = s.me.inp.replays := by rw [h]; rfl
    rw [ht]
  simp only [State.mapMe, this, State.setMe_me]

theorem State.publishGate_none (s : State) (h : s.me.run.bind Run.gate = none)
    (hr : (s.me.run.map Run.retrace).getD false = false) : s.publishGate = s := by
  unfold State.publishGate
  split
  · rfl
  · have : (s.me.run.bind fun (r : Run) => r.gate.map fun p => (r, p)) = none := by
      cases hr : s.me.run with
      | none => rfl
      | some r => simp only [hr, Option.bind_some] at h ⊢; simp [h]
    rw [this]
    dsimp only
    rw [hr]
    rfl

theorem State.streamLegs_none (s : State) (a : Nat) (hr : s.me.survey.waits.read = none) (hw : s.me.survey.waits.write = none) :
    s.streamLegs a = s := by
  unfold State.streamLegs
  split
  · rfl
  · simp only [hr, hw, Option.map_none, Option.toList_none, List.append_nil, List.foldl_nil]
    show s.setMe s.me = s
    simp

theorem runChecker_none (b : Batch) (s u : State) (h : s.me.checker = none) (hk : s.me.shadowCheck = none) : runChecker b s u = u := by
  unfold runChecker runShadowChecker
  rw [h, hk]
  split <;> rfl

/-- An operation that nothing hinders, in a steady state, runs and its clock period ends. -/
theorem alone_runs (s : State) (i : Instr) (hu : s.unhindered i) (hs : s.steady) :
    let b := aloneBatch i (slotSem i) s
    let s2 := runOp b s (s.sole i, slotSem i)
    s.alone i (slotSem i) =
      if s.me.priv.active then
        if s2.me.priv.parked ∧ ¬ s.me.priv.parked then s.mapMe fun t => t.handlerFault s2.me.priv.hfault 0
        else s2.finishHandlerIssue b
      else (s2.mapMe Tile.waitsOver).finishIssue b := by
  obtain ⟨hw, hb, hc, hsh⟩ := hu
  obtain ⟨h1, h2, h3, h4, h5, h6, h7, -⟩ := hs
  dsimp only
  unfold State.alone
  rw [hw]
  dsimp only
  unfold issueBatch
  dsimp only
  rw [hc, hsh]
  have hp : pickCand ((aloneBatch i (slotSem i) s).extra ++ []) = none := by
    show pickCand (boundCands s.me s.curHdr ++ []) = none
    rw [hb]; rfl
  rw [hp]
  have hch : charged [] = none := rfl
  rw [hch]
  dsimp only
  rw [State.publishGate_none s h2 h3, State.streamLegs_none s _ h4 h5, State.replays_none s _ _ h1, runChecker_none _ _ _ h6 h7]
  rfl

end Sys2Proof.Machine
end

