-- ==== Sys2Proof/Laws/Deliver.lean ====
section
/-! SUPPORT. What an operation that issues alone leaves: its operands' pops, its result in flight or arrived, and the rest of the tile. -/
namespace Sys2Proof.Machine

/-! ## Operands and reservations touch streams alone -/

theorem readSource_tile (t : Tile) (i : Issue) (x : Source) : ∃ ss, (readSource t i x).tile = { t with streams := ss } := by
  unfold readSource
  split
  · exact ⟨t.streams, rfl⟩
  · split
    · exact ⟨t.streams, rfl⟩
    · split
      · exact ⟨t.streams, rfl⟩
      · split
        · exact ⟨t.streams, rfl⟩
        · split
          · exact ⟨t.streams, rfl⟩
          · exact ⟨_, rfl⟩

theorem readSources_tile (i : Issue) (l : List Source) (t : Tile) : ∃ ss, (readSources i l t).2.1 = { t with streams := ss } := by
  induction l generalizing t with
  | nil => exact ⟨t.streams, rfl⟩
  | cons x l ih =>
    obtain ⟨s1, h1⟩ := readSource_tile t i x
    obtain ⟨s2, h2⟩ := ih (readSource t i x).tile
    refine ⟨s2, ?_⟩
    show (readSources i l (readSource t i x).tile).2.1 = _
    rw [h2, h1]

theorem reserve_tile (t : Tile) (n : Nat) (d : BitVec 6) : ∃ ss, (reserve t n d).2.1 = { t with streams := ss } := by
  unfold reserve
  split
  · exact ⟨t.streams, rfl⟩
  · split
    · exact ⟨t.streams, rfl⟩
    · split
      · exact ⟨t.streams, rfl⟩
      · split
        · exact ⟨t.streams, rfl⟩
        · split
          · exact ⟨t.streams, rfl⟩
          · exact ⟨_, rfl⟩

theorem State.popped_eq (s : State) (i : Instr) : ∃ ss, s.popped i = { s.me with streams := ss } := readSources_tile ..

theorem reserve_none (t : Tile) (n : Nat) : reserve t n 63 = (none, t, [], []) := rfl

/-- The run of the one operation, on. -/
theorem runOp_on (s : State) (i : Instr) (h : s.on i) :
    runOp (aloneBatch i (slotSem i) s) s (s.sole i, slotSem i) =
      ((slotSem i).run (s.env i) (s.setMe (s.popped i))).mapMe fun t =>
        t.setCtx { t.ctx with sticky := vset t.ctx.sticky s.curSlot.idx (stickyAfter (s.env i).iss) } := by
  have h' : opOn (aloneBatch i (slotSem i) s).hdr s.me.ctx (s.sole i).op = true := h
  unfold runOp
  dsimp only
  rw [h']
  rfl

/-- The run of the one operation, off. -/
theorem runOp_off (s : State) (i : Instr) (h : ¬ s.on i) :
    runOp (aloneBatch i (slotSem i) s) s (s.sole i, slotSem i) =
      ((slotSem i).off (mkEnv (aloneBatch i (slotSem i) s) s.me.ctx.cycle false (s.sole i) []) s).mapMe fun t =>
        t.setCtx { t.ctx with
          sticky := vset t.ctx.sticky s.curSlot.idx (stickyAfter (mkEnv (aloneBatch i (slotSem i) s) s.me.ctx.cycle false (s.sole i) []).iss) } := by
  have h' : opOn (aloneBatch i (slotSem i) s).hdr s.me.ctx (s.sole i).op = false := Bool.eq_false_iff.mpr h
  unfold runOp
  dsimp only
  rw [h']
  simp only [Bool.false_eq_true, if_false, State.setMe_me]
  rfl

/-! ## One issue, seen through the context that issues -/

/-- What the issue leaves of the tile `u` that its run leaves, in a kernel: the context and everything else that neither the
engines nor the clock change. -/
theorem alone_kernel (s : State) (i : Instr) (hu : s.unhindered i) (hs : s.steady) (u : Tile)
    (hr : (runOp (aloneBatch i (slotSem i) s) s (s.sole i, slotSem i)).me = u) (ha : s.me.priv.active = false)
    (he : u.dfr.ended = false) (hl : ∀ c ∈ u.eng.lag, u.k.cycle < c.cycle + 4) :
    (s.alone i (slotSem i)).me.core =
      Tile.core { u.ended with
        k := { u.ended.k with
          pos := nextPosition (aloneBatch i (slotSem i) s) u.k.pos u.dfr (min u.k.depth 6) u.seg.heldCount },
        survey := { u.survey with waits := Waits.none },
        priv := { u.priv with waitSem := none, wdogNs := 0 },
        run := u.run.map fun (r : Run) => { r with sc := r.sc + 1 }, dfr := Deferred.none } := by
  have h := alone_runs s i hu hs
  dsimp only at h
  rw [h, ha, hr]
  simp only [Bool.false_eq_true, if_false]
  have hm : ((runOp (aloneBatch i (slotSem i) s) s (s.sole i, slotSem i)).mapMe Tile.waitsOver).me = u.waitsOver := by
    rw [State.me_mapMe, hr]
  rw [finishIssue_core _ _ (by rw [hm]; exact he) (by rw [hm]; exact hl), hm]
  have hx : u.waitsOver.ended = { u.ended with
      survey := { u.survey with waits := Waits.none },
      priv := { u.priv with waitSem := none, wdogNs := 0 } } := by
    have hw : u.waitsOver.rest = { u.rest with
      survey := { u.survey with waits := Waits.none },
      priv := { u.priv with waitSem := none, wdogNs := 0 } } := rfl
    unfold Tile.ended
    have hk : u.waitsOver.k = u.k := rfl
    have hd : u.waitsOver.dfr = u.dfr := rfl
    rw [hw, hk, hd]
    exact Tile.arrivals_over { u.rest with k := { u.k with seq := u.dfr.seq.getD u.k.seq, cycle := u.k.cycle + 1 } }
      { u.survey with waits := Waits.none } { u.priv with waitSem := none, wdogNs := 0 }
  rw [hx]
  rfl

theorem Tile.rest_shadowArrivals (t : Tile) : t.shadowArrivals.rest = t.rest.shadowArrivals := rfl

theorem Tile.core_chargeTrap (t : Tile) : t.chargeTrap.core = t.core := by
  unfold Tile.chargeTrap
  split
  · rfl
  · split <;> rfl

/-- What the issue leaves of the tile `u` that its run leaves, in a handler. -/
theorem alone_handler (s : State) (i : Instr) (hu : s.unhindered i) (hs : s.steady) (u : Tile)
    (hr : (runOp (aloneBatch i (slotSem i) s) s (s.sole i, slotSem i)).me = u) (ha : s.me.priv.active = true)
    (hp : u.priv.parked = s.me.priv.parked) (hg : u.dfr.popSig = false) (hk : u.shadowCheck = none) :
    (s.alone i (slotSem i)).me.core =
      Tile.core { u with
        priv := { u.priv with shadow := {
          (Tile.shadowArrivals { u with priv := { u.priv with shadow := { u.priv.shadow with
            seq := u.dfr.seq.getD u.priv.shadow.seq, cycle := u.priv.shadow.cycle + 1 } } }).priv.shadow with
          pos := nextPosition (aloneBatch i (slotSem i) s) u.priv.shadow.pos u.dfr (min u.priv.shadow.depth 6) 0 } },
        dfr := Deferred.none } := by
  have h := alone_runs s i hu hs
  dsimp only at h
  rw [h, ha, hr]
  have hn : ¬ (u.priv.parked = true ∧ ¬ s.me.priv.parked = true) := by rw [hp]; simp
  rw [if_pos rfl, if_neg hn]
  unfold State.finishHandlerIssue
  dsimp only
  rw [hr]
  simp only [State.me_tickMe, State.me_mapMe, State.me_setMe, Tile.core_tick, Tile.core_chargeTrap]
  unfold Tile.endHandlerCycle
  dsimp only
  generalize hw : List.foldl Tile.handlerWrite u u.dfr.writes = w
  have rw' : w.rest = u.rest := by rw [← hw, foldl_keeps Tile.rest _ Tile.rest_handlerWrite]
  have hwp : w.priv = u.priv := by have h := congrArg Tile.priv rw'; exact h
  have hwd : w.dfr = u.dfr := by have h := congrArg Tile.dfr rw'; exact h
  have hc : w.core = u.core := by have h := congrArg Tile.core rw'; exact h
  have hwk : w.shadowCheck = none := by have h := congrArg Tile.shadowCheck rw'; exact Eq.trans h hk
  simp only [hwp, hwd, hg, Bool.false_eq_true, if_false]
  rw [Tile.shadowArrivals_same _ (by exact hwk)]
  have h3 := congrArg (fun x : Tile => { x with
      priv := { u.priv with shadow := {
        (Tile.shadowArrivals { u with priv := { u.priv with shadow := { u.priv.shadow with
          seq := u.dfr.seq.getD u.priv.shadow.seq, cycle := u.priv.shadow.cycle + 1 } } }).priv.shadow with
        pos := nextPosition (aloneBatch i (slotSem i) s) u.priv.shadow.pos u.dfr (min u.priv.shadow.depth 6) 0 } },
      dfr := Deferred.none }) hc
  exact h3

/-! ## Results -/

/-- The tile that a delivery leaves. -/
theorem deliver_me (e : Env) (lat : Nat) (d : BitVec 6) (r : Result) (s : State) :
    (e.deliver lat d r s).me =
      (reserve s.me e.iss.slot.idx d).2.1.setCtx { (reserve s.me e.iss.slot.idx d).2.1.ctx with
        infl := (reserve s.me e.iss.slot.idx d).2.1.ctx.infl ++
          [{ slot := e.iss.slot, issued := e.cycle, last := e.cycle + lat - 1, res := r,
             place := (reserve s.me e.iss.slot.idx d).1 }] } := by
  simp only [Env.deliver, State.me_mapMe]

theorem State.env_slot (s : State) (i : Instr) : (s.env i).iss.slot = s.curSlot := by
  unfold State.env mkEnv; dsimp only; split <;> rfl
theorem State.env_op (s : State) (i : Instr) : (s.env i).iss.op = i := by
  unfold State.env mkEnv; dsimp only; split <;> rfl
theorem State.env_cycle (s : State) (i : Instr) : (s.env i).cycle = s.me.ctx.cycle := by
  unfold State.env mkEnv; dsimp only; split <;> rfl
theorem State.env_addr (s : State) (i : Instr) : (s.env i).addr = s.me.ctx.pos.addr := by
  unfold State.env mkEnv; dsimp only; split <;> rfl
theorem State.env_hdr (s : State) (i : Instr) : (s.env i).hdr = s.curHdr := by
  unfold State.env mkEnv; dsimp only; split <;> rfl
theorem State.env_vals (s : State) (i : Instr) : (s.env i).vals = s.operands i := by
  unfold State.env mkEnv; dsimp only; split <;> rfl

/-- The entry that a delivery of the operation puts in flight. -/
def State.entry (s : State) (i : Instr) (lat : Nat) (d : BitVec 6) (r : Result) : InFlight :=
  { slot := s.curSlot, issued := s.me.ctx.cycle, last := s.me.ctx.cycle + lat - 1, res := r, place := s.reserved i d }

/-- The sticky operations that an issue that is on leaves (R69). -/
def State.stickies (s : State) (i : Instr) : Vector Sticky 9 := vset s.me.ctx.sticky s.curSlot.idx (stickyAfter (s.env i).iss)

/-- The tile that the run of an operation leaves that does nothing but deliver one result. -/
theorem delivered (s : State) (i : Instr) (hon : s.on i) (lat : Nat) (d : BitVec 6) (r : Result)
    (hrun : (slotSem i).run (s.env i) (s.setMe (s.popped i)) = (s.env i).deliver lat d r (s.setMe (s.popped i))) :
    (runOp (aloneBatch i (slotSem i) s) s (s.sole i, slotSem i)).me =
      Tile.setCtx { s.me with streams := (reserve (s.popped i) s.curSlot.idx d).2.1.streams }
        { s.me.ctx with infl := s.me.ctx.infl ++ [s.entry i lat d r], sticky := s.stickies i } := by
  obtain ⟨ss, hss⟩ := s.popped_eq i
  obtain ⟨rs, hrs⟩ := reserve_tile (s.popped i) s.curSlot.idx d
  rw [runOp_on s i hon, hrun]
  simp only [State.me_mapMe, deliver_me, State.me_setMe, State.env_slot, State.env_cycle, Tile.ctx_setCtx]
  unfold State.entry State.reserved State.stickies
  generalize hq : (reserve (s.popped i) s.curSlot.idx d).2.1 = q at hrs ⊢
  generalize (reserve (s.popped i) s.curSlot.idx d).1 = pl
  have hq2 : q = { s.me with streams := q.streams } := by rw [hrs, hss]
  have hc : q.ctx = s.me.ctx := by rw [hq2]; rfl
  rw [hc]
  generalize q.streams = qs at hq2
  subst hq2
  unfold Tile.setCtx
  dsimp only
  by_cases ha : s.me.priv.active = true
  · simp only [ha, if_true]
  · simp only [ha, Bool.false_eq_true, if_false]

theorem Tile.core_fields {t u : Tile} (h : t.core = u.core) :
    t.k = u.k ∧ t.vec = u.vec ∧ t.streams = u.streams ∧ t.shapes = u.shapes ∧ t.run = u.run ∧ t.survey = u.survey ∧ t.priv = u.priv ∧
    t.xlat = u.xlat ∧ t.dfr = u.dfr ∧ t.checker = u.checker := by
  have hk := congrArg Tile.k h
  have hv := congrArg Tile.vec h
  have hst := congrArg Tile.streams h
  have hsh := congrArg Tile.shapes h
  have hr := congrArg Tile.run h
  have hsv := congrArg Tile.survey h
  have hp := congrArg Tile.priv h
  have hx := congrArg Tile.xlat h
  have hd := congrArg Tile.dfr h
  have hc := congrArg Tile.checker h
  exact ⟨hk, hv, hst, hsh, hr, hsv, hp, hx, hd, hc⟩

/-- A result of latency 2 or more stands in flight after the issue. -/
theorem alone_inFlight (s : State) (i : Instr) (hu : s.unhindered i) (hs : s.steady) (hon : s.on i) (lat : Nat) (hlat : 2 ≤ lat)
    (d : BitVec 6) (r : Result)
    (hrun : (slotSem i).run (s.env i) (s.setMe (s.popped i)) = (s.env i).deliver lat d r (s.setMe (s.popped i))) :
    s.inFlight (s.alone i (slotSem i)) i lat d r := by
  have hd := delivered s i hon lat d r hrun
  have hs' := hs
  obtain ⟨hq, -, -, -, -, h5, hsc, -, h6, h7, h8, h9, -⟩ := hs'
  have hmem : s.entry i lat d r ∈ s.me.ctx.infl ++ [s.entry i lat d r] := by simp
  show s.entry i lat d r ∈ _
  by_cases ha : s.me.priv.active = true
  · have hctx : s.me.ctx = s.me.priv.shadow := by unfold Tile.ctx; rw [if_pos ha]
    unfold Tile.setCtx at hd
    simp only [ha, if_true] at hd
    have h := alone_handler s i hu hs _ hd ha rfl (by show s.me.dfr.popSig = false; rw [h6]; rfl) hsc
    obtain ⟨-, -, -, -, -, -, hp, -⟩ := Tile.core_fields h
    have hact : (s.alone i (slotSem i)).me.priv.active = true := by rw [hp]
    unfold Tile.ctx
    rw [if_pos hact, hp, Tile.shadowArrivals_none]
    · exact hmem
    · exact hsc
    · intro e he
      simp only [List.mem_append, List.mem_singleton] at he
      show s.me.ctx.cycle + 1 ≤ _
      cases he with
      | inl he => rw [hctx] at he ⊢; exact h8 e he
      | inr he => rw [he]; show _ ≤ s.me.ctx.cycle + lat - 1; omega
  · have ha' : s.me.priv.active = false := Bool.eq_false_iff.mpr ha
    have hctx : s.me.ctx = s.me.k := by unfold Tile.ctx; rw [if_neg ha]
    unfold Tile.setCtx at hd
    simp only [ha', Bool.false_eq_true, if_false] at hd
    have h := alone_kernel s i hu hs _ hd ha' (by show s.me.dfr.ended = false; rw [h6]; rfl)
      (by intro c hc; show s.me.ctx.cycle < _; rw [hctx]; exact (h9 c hc).1)
    obtain ⟨hk, -, -, -, -, -, hp, -⟩ := Tile.core_fields h
    have hact : ¬ (s.alone i (slotSem i)).me.priv.active = true := by rw [hp]; exact ha
    unfold Tile.ctx
    rw [if_neg hact, hk]
    unfold Tile.ended
    rw [Tile.arrivals_none]
    · exact hmem
    · exact h5
    · intro e he
      simp only [List.mem_append, List.mem_singleton] at he
      show s.me.ctx.cycle + 1 ≤ _
      cases he with
      | inl he => rw [hctx] at he ⊢; exact h7 e he
      | inr he => rw [he]; show _ ≤ s.me.ctx.cycle + lat - 1; omega

/-- A scalar of latency 1 has arrived after the issue. -/
theorem alone_arrived (s : State) (i : Instr) (hu : s.unhindered i) (hs : s.steady) (hon : s.on i) (d : BitVec 6) (x : Scalar)
    (hres : s.me.priv.active = true → s.reserved i d = none)
    (hrun : (slotSem i).run (s.env i) (s.setMe (s.popped i)) = (s.env i).deliver 1 d (.scalar x d) (s.setMe (s.popped i))) :
    s.arrived (s.alone i (slotSem i)) i d x := by
  have hd := delivered s i hon 1 d (.scalar x d) hrun
  have hs' := hs
  obtain ⟨hq, -, -, -, -, h5, hsc, -, h6, h7, h8, h9, -⟩ := hs'
  by_cases ha : s.me.priv.active = true
  · have hctx : s.me.ctx = s.me.priv.shadow := by unfold Tile.ctx; rw [if_pos ha]
    unfold Tile.setCtx at hd
    simp only [ha, if_true] at hd
    have h := alone_handler s i hu hs _ hd ha rfl (by show s.me.dfr.popSig = false; rw [h6]; rfl) hsc
    obtain ⟨-, -, hst, -, -, -, hp, -⟩ := Tile.core_fields h
    have hact : (s.alone i (slotSem i)).me.priv.active = true := by rw [hp]
    rw [Tile.shadowArrivals_one _ s.me.ctx.infl (s.entry i 1 d (.scalar x d)) (by exact hsc) (by rfl)
      (by intro e he; show s.me.ctx.cycle + 1 ≤ _; rw [hctx] at he ⊢; exact h8 e he)
      (by show s.me.ctx.cycle + 1 - 1 < s.me.ctx.cycle + 1; omega)] at hp
    unfold State.arrived Tile.ctx
    rw [if_pos hact, if_pos ha, hp, hst]
    dsimp only
    unfold State.entry Ctx.arrive
    dsimp only
    rw [hctx]
    refine ⟨?_, ?_, ?_⟩
    · split <;> rfl
    · split <;> rfl
    · intro serial pos h; rw [hres ha] at h; cases h
  · have ha' : s.me.priv.active = false := Bool.eq_false_iff.mpr ha
    have hctx : s.me.ctx = s.me.k := by unfold Tile.ctx; rw [if_neg ha]
    unfold Tile.setCtx at hd
    simp only [ha', Bool.false_eq_true, if_false] at hd
    have h := alone_kernel s i hu hs _ hd ha' (by show s.me.dfr.ended = false; rw [h6]; rfl)
      (by intro c hc; show s.me.ctx.cycle < _; rw [hctx]; exact (h9 c hc).1)
    obtain ⟨hk, -, hst, -, -, -, hp, -⟩ := Tile.core_fields h
    have hact : ¬ (s.alone i (slotSem i)).me.priv.active = true := by rw [hp]; exact ha
    unfold Tile.ended at hk hst
    rw [Tile.arrivals_one _ s.me.ctx.infl (s.entry i 1 d (.scalar x d)) (by exact h5) (by rfl)
      (by intro e he; show s.me.ctx.cycle + 1 ≤ _; rw [hctx] at he ⊢; exact h7 e he)
      (by show s.me.ctx.cycle + 1 - 1 < s.me.ctx.cycle + 1; omega) rfl
      (by intro u hu; unfold Tile.arriveOne State.entry Result.elem; dsimp only; cases s.reserved i d <;> exact hu)] at hk hst
    unfold State.arrived Tile.ctx
    rw [if_neg hact, if_neg ha, hk, hst]
    simp only [Tile.arriveOne_k, Tile.arriveOne_streams]
    unfold State.entry Ctx.arrive Result.elem
    dsimp only
    rw [hctx]
    refine ⟨?_, ?_, ?_⟩
    · split <;> rfl
    · split <;> rfl
    · intro serial pos hr
      rw [hr]
      rfl

/-- An operation of a handler that nothing hinders names no stream register (R338). -/
theorem unhindered_handler (s : State) (i : Instr) (hu : s.unhindered i) (ha : s.me.priv.active = true) :
    handlerForbids (s.sole i) = none := by
  obtain ⟨-, -, hc, -⟩ := hu
  unfold checkAll aloneBatch at hc
  simp only [List.foldl_cons, List.foldl_nil] at hc
  unfold checkOp at hc
  dsimp only at hc
  rw [ha] at hc
  show handlerForbids { slot := s.curSlot, op := i, ext := s.curExt, first := true, latch := zeroVoid, stepBy := zeroVoid } = none
  cases hf : handlerForbids { slot := s.curSlot, op := i, ext := s.curExt, first := true, latch := zeroVoid, stepBy := zeroVoid } with
  | none => rfl
  | some n =>
    rw [hf] at hc
    split at hc <;> simp at hc

theorem handler_reserves (s : State) (i : Instr) (hu : s.unhindered i) (ha : s.me.priv.active = true) :
    s.reserved i (destSpec i.dest) = none := by
  have hf := unhindered_handler s i hu ha
  have hn : specStream (destSpec i.dest) = none := by
    unfold handlerForbids at hf
    split at hf
    · simp [State.sole] at hf
    · simp [State.sole] at hf
    · split at hf
      · cases hf
      · rename_i h
        simp only [Bool.or_eq_true, not_or, Bool.not_eq_true, Option.isSome_eq_false_iff, Option.isNone_iff_eq_none] at h
        exact h.2
  unfold State.reserved reserve
  rw [hn]

/-- An operation that pushes one scalar gives it. -/
theorem alone_gives (s : State) (i : Instr) (hu : s.unhindered i) (hs : s.steady) (hon : s.on i) (lat : Nat) (hlat : 1 ≤ lat)
    (x : Scalar)
    (hrun : (slotSem i).run (s.env i) (s.setMe (s.popped i)) = (s.env i).pushScalar lat x (s.setMe (s.popped i))) :
    s.gives (s.alone i (slotSem i)) i lat x.norm := by
  unfold Env.pushScalar at hrun
  rw [State.env_op] at hrun
  unfold State.gives
  by_cases h : lat = 1
  · subst h
    rw [if_pos rfl]
    exact alone_arrived s i hu hs hon _ _ (fun ha => handler_reserves s i hu ha) hrun
  · rw [if_neg h]
    exact alone_inFlight s i hu hs hon lat (by omega) _ _ hrun

/-- An operation that pushes one vector gives it. -/
theorem alone_givesVector (s : State) (i : Instr) (hu : s.unhindered i) (hs : s.steady) (hon : s.on i) (lat : Nat) (hlat : 2 ≤ lat)
    (x : VReg)
    (hrun : (slotSem i).run (s.env i) (s.setMe (s.popped i)) = (s.env i).pushVector lat x (s.setMe (s.popped i))) :
    s.givesVector (s.alone i (slotSem i)) i lat x := by
  unfold Env.pushVector at hrun
  rw [State.env_op] at hrun
  exact alone_inFlight s i hu hs hon lat hlat _ _ hrun

end Sys2Proof.Machine
end

