-- ==== Sys2Proof/Laws/Ops.lean ====
section
/-! SUPPORT. What the shared operations do: memories read back what was written and keep their canonical form, and a trap, a return
from one and a frozen clock period leave what they name. -/
namespace Sys2Proof.Machine

/-! ## Bytes -/

theorem cellsWf_mono {lo lo' : Nat} (m : List Host.Cell) (h : lo' ≤ lo) (w : cellsWf lo m = true) : cellsWf lo' m = true := by
  cases m with
  | nil => rfl
  | cons c m =>
    simp only [cellsWf, Bool.and_eq_true, decide_eq_true_eq] at w ⊢
    exact ⟨⟨Nat.le_trans h w.1.1, w.1.2⟩, w.2⟩

theorem readCell_below {lo x : Nat} (m : List Host.Cell) (w : cellsWf lo m = true) (h : x < lo) : readCell m x = 0 := by
  cases m with
  | nil => rfl
  | cons c m =>
    simp only [cellsWf, Bool.and_eq_true, decide_eq_true_eq] at w
    have h1 : x < c.1 := by omega
    simp [readCell, h1, Nat.ne_of_lt h1]

theorem cellsWf_cons {lo a : Nat} {b : Byte} {m : List Host.Cell} :
    cellsWf lo ((a, b) :: m) = true ↔ (lo ≤ a ∧ b ≠ 0) ∧ cellsWf (a + 1) m = true := by
  simp only [cellsWf, Bool.and_eq_true, decide_eq_true_eq]

/-- Writing a byte keeps the canonical form. -/
theorem cellsWf_writeCell {lo x : Nat} (m : List Host.Cell) (v : Byte) (w : cellsWf lo m = true) (h : lo ≤ x) :
    cellsWf lo (writeCell m x v) = true := by
  induction m generalizing lo with
  | nil =>
    simp only [writeCell]
    split
    · rfl
    · rename_i hv
      exact cellsWf_cons.2 ⟨⟨h, hv⟩, rfl⟩
  | cons c m ih =>
    obtain ⟨a, b⟩ := c
    obtain ⟨⟨h1, h2⟩, h3⟩ := cellsWf_cons.1 w
    simp only [writeCell]
    split
    · rename_i hx
      split
      · exact w
      · rename_i hv
        exact cellsWf_cons.2 ⟨⟨h, hv⟩, cellsWf_cons.2 ⟨⟨hx, h2⟩, h3⟩⟩
    · split
      · rename_i hx
        subst hx
        split
        · exact cellsWf_mono m (by omega) h3
        · rename_i hv
          exact cellsWf_cons.2 ⟨⟨h, hv⟩, h3⟩
      · exact cellsWf_cons.2 ⟨⟨h1, h2⟩, ih h3 (by omega)⟩

/-- A read after a write of a byte: the byte written at its address, every other byte as before. -/
theorem readCell_writeCell {lo x : Nat} (m : List Host.Cell) (v : Byte) (y : Nat) (w : cellsWf lo m = true) :
    readCell (writeCell m x v) y = if y = x then v else readCell m y := by
  induction m generalizing lo with
  | nil =>
    simp only [writeCell]
    split
    · rename_i hv
      by_cases hy : y = x <;> simp [readCell, hy, hv]
    · by_cases hy : y = x <;> simp [readCell, hy]
  | cons c m ih =>
    obtain ⟨a, b⟩ := c
    simp only [cellsWf, Bool.and_eq_true, decide_eq_true_eq] at w
    obtain ⟨⟨h1, h2⟩, h3⟩ := w
    simp only [writeCell]
    split
    · rename_i hx
      split
      · rename_i hv
        by_cases hy : y = x
        · subst hy; simp [readCell, hx, Nat.ne_of_lt hx, hv]
        · simp [hy]
      · by_cases hy : y = x
        · subst hy; simp [readCell]
        · by_cases hl : y < x
          · have : y < a := by omega
            simp [readCell, hy, hl, this, Nat.ne_of_lt this]
          · simp [readCell, hy, hl]
    · split
      · rename_i hx
        subst hx
        have hb : x < x + 1 := by omega
        split
        · rename_i hv
          by_cases hy : y = x
          · subst hy; simp [readCell_below m h3 hb, hv]
          · by_cases hl : y < x
            · have : y < x + 1 := by omega
              simp [readCell, hy, hl, readCell_below m h3 this]
            · simp [readCell, hy, hl]
        · by_cases hy : y = x
          · simp [readCell, hy]
          · simp [readCell, hy]
      · rename_i hx hn
        by_cases hy : y = a
        · subst hy
          have : y ≠ x := by omega
          simp [readCell, this]
        · by_cases hl : y < a
          · have : y ≠ x := by omega
            simp [readCell, hl, this]
          · simp only [readCell, hy, hl, ↓reduceIte, ih h3]

/-- Two memories in canonical form that read alike are equal data. -/
theorem cells_ext {lo : Nat} (m m' : List Host.Cell) (w : cellsWf lo m = true) (w' : cellsWf lo m' = true)
    (h : ∀ y, readCell m y = readCell m' y) : m = m' := by
  induction m generalizing lo m' with
  | nil =>
    cases m' with
    | nil => rfl
    | cons c m' =>
      simp only [cellsWf, Bool.and_eq_true, decide_eq_true_eq] at w'
      have := h c.1
      simp [readCell] at this
      exact absurd this.symm w'.1.2
  | cons c m ih =>
    cases m' with
    | nil =>
      simp only [cellsWf, Bool.and_eq_true, decide_eq_true_eq] at w
      have := h c.1
      simp [readCell] at this
      exact absurd this w.1.2
    | cons d m' =>
      obtain ⟨a, b⟩ := c
      obtain ⟨a', b'⟩ := d
      simp only [cellsWf, Bool.and_eq_true, decide_eq_true_eq] at w w'
      have ha : a = a' := by
        rcases Nat.lt_trichotomy a a' with hl | he | hl
        · have := h a
          simp [readCell, hl, Nat.ne_of_lt hl] at this
          exact absurd this w.1.2
        · exact he
        · have := h a'
          simp [readCell, hl, Nat.ne_of_lt hl] at this
          exact absurd this.symm w'.1.2
      subst ha
      have hb : b = b' := by simpa [readCell] using h a
      subst hb
      congr 1
      refine ih m' w.2 w'.2 fun y => ?_
      have hy := h y
      by_cases h1 : y = a
      · subst h1
        rw [readCell_below m w.2 (by omega), readCell_below m' w'.2 (by omega)]
      · by_cases h2 : y < a
        · rw [readCell_below m w.2 (by omega), readCell_below m' w'.2 (by omega)]
        · simpa [readCell, h1, h2] using hy

theorem cellsWf_writeCells {lo a : Nat} (m : List Host.Cell) (bs : List Byte) (w : cellsWf lo m = true) (h : lo ≤ a) :
    cellsWf lo (writeCells m a bs) = true := by
  induction bs generalizing m a with
  | nil => exact w
  | cons b bs ih => exact ih _ (cellsWf_writeCell m b w h) (by omega)

/-- A read after a write of bytes: those bytes from the address on, every other byte as before. -/
theorem readCell_writeCells {lo a : Nat} (m : List Host.Cell) (bs : List Byte) (y : Nat) (w : cellsWf lo m = true) (h : lo ≤ a) :
    readCell (writeCells m a bs) y = if a ≤ y ∧ y < a + bs.length then bs.getD (y - a) 0 else readCell m y := by
  induction bs generalizing m a with
  | nil =>
    have h0 : ¬ (a ≤ y ∧ y < a + ([] : List Byte).length) := by simp only [List.length_nil]; omega
    rw [if_neg h0]; rfl
  | cons b bs ih =>
    rw [writeCells, ih _ (cellsWf_writeCell m b w h) (by omega), readCell_writeCell m b y w]
    by_cases h1 : y = a
    · subst h1
      have h3 : ¬ (y + 1 ≤ y ∧ y < y + 1 + bs.length) := by omega
      have h4 : y ≤ y ∧ y < y + (b :: bs).length := by simp only [List.length_cons]; omega
      rw [if_neg h3, if_pos rfl, if_pos h4, Nat.sub_self]; rfl
    · by_cases h2 : a + 1 ≤ y ∧ y < a + 1 + bs.length
      · have h3 : a ≤ y ∧ y < a + (b :: bs).length := by simp only [List.length_cons]; omega
        have h4 : y - a = (y - (a + 1)) + 1 := by omega
        simp only [h2, h3, and_self, ↓reduceIte]
        rw [h4, List.getD_cons_succ]
      · have h3 : ¬ (a ≤ y ∧ y < a + (b :: bs).length) := by simp only [List.length_cons]; omega
        simp only [h2, h3, h1, ↓reduceIte]

theorem cellsWf_foldWrite {lo : Nat} (f : Host.Cell → Host.Cell) (cs m : List Host.Cell) (w : cellsWf lo m = true)
    (h : ∀ c ∈ cs, lo ≤ (f c).1) : cellsWf lo (cs.foldl (fun m c => writeCell m (f c).1 (f c).2) m) = true := by
  induction cs generalizing m with
  | nil => exact w
  | cons c cs ih =>
    exact ih _ (cellsWf_writeCell m _ w (h c (by simp))) fun d hd => h d (by simp [hd])

theorem cellsWf_filter {lo : Nat} (p : Host.Cell → Bool) (m : List Host.Cell) (w : cellsWf lo m = true) :
    cellsWf lo (m.filter p) = true := by
  induction m generalizing lo with
  | nil => rfl
  | cons c m ih =>
    simp only [cellsWf, Bool.and_eq_true, decide_eq_true_eq] at w
    by_cases hp : p c
    · rw [List.filter_cons_of_pos hp]
      exact cellsWf_cons.2 ⟨w.1, ih w.2⟩
    · simp only [hp, Bool.false_eq_true, not_false_eq_true, List.filter_cons_of_neg]
      exact cellsWf_mono _ (by omega) (ih w.2)

/-! ## POISON words -/

theorem natsWf_mono {lo lo' : Nat} (l : List Nat) (h : lo' ≤ lo) (w : natsWf lo l = true) : natsWf lo' l = true := by
  cases l with
  | nil => rfl
  | cons a l =>
    simp only [natsWf, Bool.and_eq_true, decide_eq_true_eq] at w ⊢
    exact ⟨Nat.le_trans h w.1, w.2⟩

theorem natsWf_insertNat {lo x : Nat} (l : List Nat) (w : natsWf lo l = true) (h : lo ≤ x) : natsWf lo (insertNat l x) = true := by
  induction l generalizing lo with
  | nil => simp [insertNat, natsWf, h]
  | cons a l ih =>
    have w' := w
    simp only [natsWf, Bool.and_eq_true, decide_eq_true_eq] at w
    simp only [insertNat]
    split
    · simp [natsWf, h, w.2]; omega
    · split
      · exact w'
      · simp [natsWf, w.1]
        exact ih w.2 (by omega)

theorem mem_insertNat (l : List Nat) (x y : Nat) : y ∈ insertNat l x ↔ y = x ∨ y ∈ l := by
  induction l with
  | nil => simp [insertNat]
  | cons a l ih =>
    simp only [insertNat]
    split
    · simp
    · split
      · rename_i h; subst h; simp
      · simp only [List.mem_cons, ih]
        exact ⟨fun h => by rcases h with h | h | h <;> simp [h], fun h => by rcases h with h | h | h <;> simp [h]⟩

theorem natsWf_filter {lo : Nat} (p : Nat → Bool) (l : List Nat) (w : natsWf lo l = true) : natsWf lo (l.filter p) = true := by
  induction l generalizing lo with
  | nil => rfl
  | cons a l ih =>
    simp only [natsWf, Bool.and_eq_true, decide_eq_true_eq] at w
    by_cases hp : p a
    · simp [hp, natsWf, w.1, ih w.2]
    · simp only [hp, Bool.false_eq_true, not_false_eq_true, List.filter_cons_of_neg]
      exact natsWf_mono _ (by omega) (ih w.2)

theorem mem_removeNat (l : List Nat) (x y : Nat) : y ∈ removeNat l x ↔ y ∈ l ∧ y ≠ x := by simp [removeNat]

/-! ## Memories -/

theorem Store.wf_iff (s : Store) : s.wf = true ↔ cellsWf 0 s.bytes = true ∧ natsWf 0 s.poison = true := by simp [Store.wf]

theorem Store.wf_write (s : Store) (a : Nat) (bs : List Byte) (h : s.wf = true) : (s.write a bs).wf = true := by
  rw [Store.wf_iff] at h ⊢
  exact ⟨cellsWf_writeCells _ _ h.1 (Nat.zero_le _), h.2⟩

theorem Store.wf_setPoison (s : Store) (k : Nat) (p : Bool) (h : s.wf = true) : (s.setPoison k p).wf = true := by
  rw [Store.wf_iff] at h ⊢
  cases p
  · exact ⟨h.1, natsWf_filter _ _ h.2⟩
  · exact ⟨h.1, natsWf_insertNat _ h.2 (Nat.zero_le _)⟩

theorem Store.wf_writeCells (s : Store) (cs : List Host.Cell) (h : s.wf = true) : (s.writeCells cs).wf = true := by
  rw [Store.wf_iff] at h ⊢
  exact ⟨cellsWf_foldWrite id cs s.bytes h.1 fun _ _ => Nat.zero_le _, h.2⟩

theorem Store.wf_fold {α : Type} (f : Store → α → Store) (hf : ∀ s a, s.wf = true → (f s a).wf = true) (l : List α) (s : Store)
    (h : s.wf = true) : (l.foldl f s).wf = true := by
  induction l generalizing s with
  | nil => exact h
  | cons a l ih => exact ih _ (hf s a h)

/-- One operation's write keeps the canonical form. -/
theorem Store.wf_apply (s : Store) (w : SpadWrite) (h : s.wf = true) : (s.apply w).wf = true := by
  refine Store.wf_fold _ (fun s k h => Store.wf_setPoison s k true h) _ _ ?_
  refine Store.wf_fold _ (fun s k h => ?_) _ _ (Store.wf_writeCells s _ h)
  split
  · exact Store.wf_setPoison s k false h
  · exact h

theorem Store.wf_put (s : Store) (a : Nat) (bs : List Byte) (h : s.wf = true) : (s.put a bs).wf = true := Store.wf_apply s _ h

theorem Store.wf_zeroTo (s : Store) (n : Nat) (h : s.wf = true) : (s.zeroTo n).wf = true := by
  rw [Store.wf_iff] at h ⊢
  exact ⟨cellsWf_filter _ _ h.1, natsWf_filter _ _ h.2⟩

theorem Store.wf_restoreLine (s : Store) (u : Undo) (h : s.wf = true) : (s.restoreLine u).wf = true :=
  Store.wf_fold _ (fun s p h => Store.wf_setPoison s _ p.2 h) _ _ (Store.wf_write s _ _ h)

theorem Store.wf_moveFrame (s : Store) (old new : Nat) (h : s.wf = true) : (s.moveFrame old new).wf = true := by
  rw [Store.wf_iff] at h ⊢
  refine ⟨cellsWf_foldWrite (fun c => (c.1 - old + new, c.2)) _ _ (cellsWf_filter _ _ h.1) fun _ _ => Nat.zero_le _, ?_⟩
  have key : ∀ (l k : List Nat), natsWf 0 k = true →
      natsWf 0 (l.foldl (fun b w => insertNat b (w - old / 8 + new / 8)) k) = true := by
    intro l
    induction l with
    | nil => exact fun _ hk => hk
    | cons w l ih => exact fun k hk => ih _ (natsWf_insertNat k hk (Nat.zero_le _))
  exact key _ _ (natsWf_filter _ _ h.2)

/-- The memories of the reset state have the canonical form. -/
theorem State.reset_mem_wf : State.reset.mem.wf = true ∧ State.reset.hostMem.wf = true := ⟨rfl, rfl⟩

/-- The bytes that a list of cells leaves: the last cell of an address, else what stood there. -/
theorem Store.readCell_writeCells (s : Store) (cs : List Host.Cell) (y : Nat) (h : s.wf = true) :
    readCell (s.writeCells cs).bytes y = ((cs.reverse.find? fun c => c.1 = y).map Prod.snd).getD (readCell s.bytes y) := by
  rw [Store.wf_iff] at h
  unfold Store.writeCells
  have key : ∀ (cs m : List Host.Cell), cellsWf 0 m = true →
      readCell (cs.foldl (fun m c => writeCell m c.1 c.2) m) y =
        ((cs.reverse.find? fun c => c.1 = y).map Prod.snd).getD (readCell m y) := by
    intro cs
    induction cs with
    | nil => exact fun _ _ => rfl
    | cons c cs ih =>
      intro m hm
      rw [List.foldl_cons, ih _ (cellsWf_writeCell m c.2 hm (Nat.zero_le _)), readCell_writeCell m c.2 y hm, List.reverse_cons,
        List.find?_append]
      cases cs.reverse.find? (fun c => decide (c.1 = y)) with
      | some d => rfl
      | none =>
        by_cases hc : c.1 = y
        · simp [hc]
        · simp [hc, Ne.symm hc]
  exact key cs s.bytes h.1

theorem Store.bytes_setPoison (s : Store) (k : Nat) (p : Bool) : (s.setPoison k p).bytes = s.bytes := rfl

theorem Store.bytes_apply (s : Store) (w : SpadWrite) : (s.apply w).bytes = (s.writeCells w.cells).bytes := by
  have key : ∀ {α : Type} (f : Store → α → Store), (∀ s a, (f s a).bytes = s.bytes) → ∀ (l : List α) (s : Store),
      (l.foldl f s).bytes = s.bytes := by
    intro α f hf l
    induction l with
    | nil => exact fun _ => rfl
    | cons a l ih => exact fun s => (ih _).trans (hf s a)
  refine (key (fun st k => st.setPoison k true) (fun _ _ => rfl) _ _).trans (key _ (fun s k => ?_) _ _)
  split <;> rfl

/-! ## Time, traps and returns -/

theorem State.tickMe_me (s : State) : s.tickMe.me = s.me.tick (s.mhzOf s.cur) := by simp [State.tickMe, State.me, State.setMe, State.tile, State.setTile, vget_vset]

/-- What neither a charge nor a clock period touches is as it was after any number of clock periods under a trap. -/
theorem State.trapTicks_keeps {γ : Type} (p : Tile → γ) (h1 : ∀ t, p (Tile.chargeTrap t) = p t) (h2 : ∀ t m, p (Tile.tick t m) = p t)
    (n : Nat) (s : State) : p (State.trapTicks n s).me = p s.me := by
  induction n generalizing s with
  | zero => rfl
  | succ n ih => rw [State.trapTicks, ih, State.tickMe_me, h2, State.me_mapMe, h1]

theorem Tile.clks_chargeTrap (t : Tile) : t.chargeTrap.margin = t.margin := by
  unfold Tile.chargeTrap; split
  · rfl
  · split <;> rfl

theorem Tile.priv_chargeTrap (t : Tile) : t.chargeTrap.priv = t.priv := by
  unfold Tile.chargeTrap; split
  · rfl
  · split <;> rfl

theorem Tile.k_chargeTrap (t : Tile) : t.chargeTrap.k = t.k := by
  unfold Tile.chargeTrap; split
  · rfl
  · split <;> rfl

theorem Tile.spad_chargeTrap (t : Tile) : t.chargeTrap.spad = t.spad := by
  unfold Tile.chargeTrap; split
  · rfl
  · split <;> rfl

theorem State.trapTicks_clks (n : Nat) (s : State) : (State.trapTicks n s).me.margin.clks = s.me.margin.clks + n := by
  induction n generalizing s with
  | zero => rfl
  | succ n ih =>
    rw [State.trapTicks, ih, State.tickMe_me, State.me_mapMe]
    show s.me.chargeTrap.margin.clks + 1 + n = _
    rw [Tile.clks_chargeTrap]; omega

/-- A cause is taken (R348): the privileged state that it leaves, the kernel context and the scratchpad as they were, 6 clk later. -/
theorem State.takeTrap_spec (s : State) (r : TrapRegs) :
    (s.takeTrap r).me.priv = ((s.me.trapState r).enterHandler r.cause).priv ∧ (s.takeTrap r).me.k = s.me.k ∧
      (s.takeTrap r).me.spad = s.me.spad ∧ (s.takeTrap r).me.margin.clks = s.me.margin.clks + 6 := by
  refine ⟨?_, ?_, ?_, ?_⟩
  · exact (State.trapTicks_keeps Tile.priv Tile.priv_chargeTrap (fun _ _ => rfl) 6 _).trans (by rw [State.me_mapMe])
  · exact (State.trapTicks_keeps Tile.k Tile.k_chargeTrap (fun _ _ => rfl) 6 _).trans (by rw [State.me_mapMe]; rfl)
  · exact (State.trapTicks_keeps Tile.spad Tile.spad_chargeTrap (fun _ _ => rfl) 6 _).trans (by rw [State.me_mapMe]; rfl)
  · exact (State.trapTicks_clks 6 _).trans (by rw [State.me_mapMe]; rfl)

/-- A return from a handler (R348, R355): the handler inactive, CTX_STATE 0b00, the kernel context as it was, 4 clk later. -/
theorem State.returnToKernel_spec (s : State) :
    s.returnToKernel.me.priv = { s.me.priv with active := false, rftDone := false, walkEntry := false, ctxState := 0b00 } ∧
      s.returnToKernel.me.k = s.me.k ∧ s.returnToKernel.me.spad = s.me.spad ∧
      s.returnToKernel.me.margin.clks = s.me.margin.clks + 4 := by
  unfold State.returnToKernel
  rw [State.me_mapMe]
  refine ⟨?_, State.trapTicks_keeps Tile.k Tile.k_chargeTrap (fun _ _ => rfl) 4 s,
    State.trapTicks_keeps Tile.spad Tile.spad_chargeTrap (fun _ _ => rfl) 4 s, State.trapTicks_clks 4 s⟩
  have h := State.trapTicks_keeps Tile.priv Tile.priv_chargeTrap (fun _ _ => rfl) 4 s
  simp only [h]

/-- A handler fault (R360) stops the shadow context and leaves everything but HFAULT and the parked mark. -/
theorem Tile.handlerFault_spec (t : Tile) (code sub : Nat) :
    (t.handlerFault code sub).priv = { t.priv with hfault := code + 16 * sub, parked := true } ∧ (t.handlerFault code sub).k = t.k ∧
      (t.handlerFault code sub).spad = t.spad := ⟨rfl, rfl, rfl⟩

/-! ## Stuck bits, and the wait that is charged -/

@[simp] theorem stuckByte_nil (a : Nat) (v : Byte) : stuckByte [] a v = v := rfl

@[simp] theorem SpadWrite.stuck_nil (w : SpadWrite) : w.stuck [] = w := by simp [SpadWrite.stuck]

/-- Without stuck bits no row needs a spare (24 R474). -/
@[simp] theorem Tile.stuckBits_nil (t : Tile) (h : t.inp.stuck = []) : t.stuckBits = [] := by simp [Tile.stuckBits, h]

/-- An engine's write where no bit is stuck (R421). -/
theorem Tile.spad_engineWrite (t : Tile) (w : SpadWrite) (h : t.inp.stuck = []) : (t.engineWrite w).spad = t.spad.apply w := by
  simp [Tile.engineWrite, h]

/-- A tile's scratchpad keeps its canonical form under an engine's write, whatever bits are stuck. -/
theorem Tile.wf_engineWrite (t : Tile) (w : SpadWrite) (h : t.spad.wf = true) : (t.engineWrite w).spad.wf = true :=
  Store.wf_apply _ _ h

/-- The wait charged to a frozen clock period is one of those that hold, and none of them comes before it in R34's order. -/
theorem charged_spec (ws : List Wait) (w : Wait) (h : charged ws = some w) : w ∈ ws ∧ ∀ x ∈ ws, w.cause ≤ x.cause := by
  have key : ∀ (l : List Wait) (b : Option Wait),
      (∀ y, l.foldl (fun b w => match b with
        | none => some w
        | some x => if w.cause < x.cause then some w else some x) b = some y →
        (y ∈ l ∨ b = some y) ∧ (∀ x ∈ l, y.cause ≤ x.cause) ∧ ∀ x, b = some x → y.cause ≤ x.cause) := by
    intro l
    induction l with
    | nil => intro b y hy; subst hy; exact ⟨.inr rfl, by simp, fun x hx => by cases hx; exact Nat.le_refl _⟩
    | cons c l ih =>
      intro b y hy
      obtain ⟨hm, hl, hb⟩ := ih _ y hy
      cases b with
      | none =>
        refine ⟨.inl ?_, ?_, fun x hx => by cases hx⟩
        · rcases hm with hm | hm
          · exact .tail _ hm
          · cases hm; exact .head _
        · intro x hx
          rcases List.mem_cons.1 hx with rfl | hx
          · exact hb x rfl
          · exact hl x hx
      | some d =>
        by_cases hc : c.cause < d.cause
        · simp only [hc, if_true] at hm hb
          have hy' := hb c rfl
          refine ⟨.inl ?_, ?_, fun x hx => by cases hx; omega⟩
          · rcases hm with hm | hm
            · exact .tail _ hm
            · cases hm; exact .head _
          · intro x hx
            rcases List.mem_cons.1 hx with rfl | hx
            · exact hy'
            · exact hl x hx
        · simp only [hc, if_false] at hm hb
          have hy' := hb d rfl
          refine ⟨?_, ?_, fun x hx => by cases hx; exact hy'⟩
          · rcases hm with hm | hm
            · exact .inl (.tail _ hm)
            · exact .inr hm
          · intro x hx
            rcases List.mem_cons.1 hx with rfl | hx
            · omega
            · exact hl x hx
  have := key ws none w h
  exact ⟨this.1.resolve_right (by simp), this.2.1⟩

end Sys2Proof.Machine
end

