-- ==== Sys2Proof/Laws/PerInstr.lean ====
section
/-! SUPPORT. What holds of every instruction as syntax, one lemma for each constructor: a slot operation stands in the slots of one kind, nop in
all, and an event has no word. -/
namespace Sys2Proof.Laws.Encoding

/-- A slot operation has a slot kind or is nop; an event has neither slot nor word (R130, R138). -/
def Statement (i : Instr) : Prop :=
  (i.kind.isSome = true → i.isSlot = true) ∧ (i.isSlot = true → i.kind.isSome = true ∨ i = .nop) ∧ (i.isSlot = false → encode i = 0)

theorem of_slot {i : Instr} (k : i.kind.isSome = true) (h : i.isSlot = true) : Statement i :=
  ⟨fun _ => h, fun _ => .inl k, fun n => nomatch h.symm.trans n⟩

theorem of_event {i : Instr} (k : i.kind = none) (h : i.isSlot = false) (e : encode i = 0) : Statement i :=
  ⟨fun n => absurd n (by simp [k]), fun n => (nomatch h.symm.trans n), fun _ => e⟩

theorem streamElementFill (t : TileNo) (serial : Nat) : Statement (.streamElementFill t serial) := of_event rfl rfl rfl
theorem streamElementDrain (t : TileNo) (serial : Nat) : Statement (.streamElementDrain t serial) := of_event rfl rfl rfl
theorem globalRequestPerform (t : TileNo) (id : Nat) : Statement (.globalRequestPerform t id) := of_event rfl rfl rfl
theorem transferCompletion (t : TileNo) (id : Nat) : Statement (.transferCompletion t id) := of_event rfl rfl rfl
theorem semaphoreSignalArrival (n : Nat) : Statement (.semaphoreSignalArrival n) := of_event rfl rfl rfl
theorem globalAtomicPerform (t : TileNo) (id : Nat) : Statement (.globalAtomicPerform t id) := of_event rfl rfl rfl
theorem translationMiss (t : TileNo) (copyEngine : Bool) : Statement (.translationMiss t copyEngine) := of_event rfl rfl rfl
theorem translationWalkComplete (t : TileNo) (copyEngine : Bool) : Statement (.translationWalkComplete t copyEngine) := of_event rfl rfl rfl
theorem walkFill (o : Origin) (v : Word) : Statement (.walkFill o v) := of_event rfl rfl rfl
theorem engineFault (t : TileNo) (id : Nat) : Statement (.engineFault t id) := of_event rfl rfl rfl
theorem efResume (o : Origin) (v : Word) : Statement (.efResume o v) := of_event rfl rfl rfl
theorem xlShoot (o : Origin) (v : Word) : Statement (.xlShoot o v) := of_event rfl rfl rfl
theorem xlShootDone (p : PartNo) : Statement (.xlShootDone p) := of_event rfl rfl rfl
theorem homeDieRequest (t : TileNo) (id : Nat) : Statement (.homeDieRequest t id) := of_event rfl rfl rfl
theorem migCmd (o : Origin) (v : Word) : Statement (.migCmd o v) := of_event rfl rfl rfl
theorem migDecayHalving (p : PartNo) (d : DieNo) : Statement (.migDecayHalving p d) := of_event rfl rfl rfl
theorem frameSet (d : DieNo) (v : Word) : Statement (.frameSet d v) := of_event rfl rfl rfl
theorem freePush (d : DieNo) (v : Word) : Statement (.freePush d v) := of_event rfl rfl rfl
theorem resumeWrite (t : TileNo) (v : Word) : Statement (.resumeWrite t v) := of_event rfl rfl rfl
theorem qtail (p : PartNo) (q : Fin 64) (v : Word) : Statement (.qtail p q v) := of_event rfl rfl rfl
theorem launchCompletion (id : Nat) : Statement (.launchCompletion id) := of_event rfl rfl rfl
theorem gateSig (p : PartNo) (v : Word) : Statement (.gateSig p v) := of_event rfl rfl rfl
theorem gateInit (p : PartNo) (v : Word) : Statement (.gateInit p v) := of_event rfl rfl rfl
theorem preempt (p : PartNo) (v : Word) : Statement (.preempt p v) := of_event rfl rfl rfl
theorem kill (p : PartNo) (v : Word) : Statement (.kill p v) := of_event rfl rfl rfl
theorem modeSet (p : PartNo) (v : Word) : Statement (.modeSet p v) := of_event rfl rfl rfl
theorem hset (p : PartNo) (v : Word) : Statement (.hset p v) := of_event rfl rfl rfl
theorem quarantine (d : DieNo) (v : Word) : Statement (.quarantine d v) := of_event rfl rfl rfl
theorem governorThresholds (d : DieNo) (budget : Bool) (v : Word) : Statement (.governorThresholds d budget v) := of_event rfl rfl rfl
theorem resetCmd (v : Word) : Statement (.resetCmd v) := of_event rfl rfl rfl
theorem linkFailure (l : Fin 28) (width : BitVec 2) : Statement (.linkFailure l width) := of_event rfl rfl rfl
theorem rsendContribution (c : ContribSource) : Statement (.rsendContribution c) := of_event rfl rfl rfl
theorem groupCfg (v : Word) : Statement (.groupCfg v) := of_event rfl rfl rfl
theorem hsumpDone (d : DieNo) (v : Word) : Statement (.hsumpDone d v) := of_event rfl rfl rfl
theorem hostMemWrite (off : Nat) (data : List Byte) : Statement (.hostMemWrite off data) := of_event rfl rfl rfl
theorem hostMemRead (off : Nat) (len : Nat) : Statement (.hostMemRead off len) := of_event rfl rfl rfl
theorem windowRegisterWrite (w : Window) (off : BitVec 17) (v : Word) : Statement (.windowRegisterWrite w off v) := of_event rfl rfl rfl
theorem ringTail (t : TileNo) (v : Word) : Statement (.ringTail t v) := of_event rfl rfl rfl
theorem errTail (p : PartNo) (v : Word) : Statement (.errTail p v) := of_event rfl rfl rfl
theorem dbgStopTile (p : PartNo) (t : TileNo) : Statement (.dbgStopTile p t) := of_event rfl rfl rfl
theorem dbgReleaseTile (p : PartNo) (t : TileNo) : Statement (.dbgReleaseTile p t) := of_event rfl rfl rfl
theorem dbgSingleIssue (p : PartNo) (t : TileNo) : Statement (.dbgSingleIssue p t) := of_event rfl rfl rfl
theorem dbgHaltDie (p : PartNo) (d : DieNo) : Statement (.dbgHaltDie p d) := of_event rfl rfl rfl
theorem dbgReleaseDie (p : PartNo) (d : DieNo) : Statement (.dbgReleaseDie p d) := of_event rfl rfl rfl
theorem dbgDump (p : PartNo) (t : TileNo) : Statement (.dbgDump p t) := of_event rfl rfl rfl
theorem dbgPatch (p : PartNo) (t : TileNo) : Statement (.dbgPatch p t) := of_event rfl rfl rfl
theorem divergenceHash (id : Nat) : Statement (.divergenceHash id) := of_event rfl rfl rfl
theorem divergedClear (o : Origin) : Statement (.divergedClear o) := of_event rfl rfl rfl
theorem serviceCommand (c : ServiceCommand) : Statement (.serviceCommand c) := of_event rfl rfl rfl
theorem attestationRequest (nonce : BitVec 256) : Statement (.attestationRequest nonce) := of_event rfl rfl rfl
theorem powerCap (watts : Nat) : Statement (.powerCap watts) := of_event rfl rfl rfl
theorem mov (f : FormSU) : Statement (.mov f) := of_slot rfl rfl
theorem add (f : FormSA) : Statement (.add f) := of_slot rfl rfl
theorem sub (f : FormSA) : Statement (.sub f) := of_slot rfl rfl
theorem addo (f : FormSC) : Statement (.addo f) := of_slot rfl rfl
theorem addc (f : FormSC) : Statement (.addc f) := of_slot rfl rfl
theorem subo (f : FormSC) : Statement (.subo f) := of_slot rfl rfl
theorem subc (f : FormSC) : Statement (.subc f) := of_slot rfl rfl
theorem mul (f : FormSA) : Statement (.mul f) := of_slot rfl rfl
theorem mulhS64 (f : FormSA) : Statement (.mulhS64 f) := of_slot rfl rfl
theorem mulhZ64 (f : FormSA) : Statement (.mulhZ64 f) := of_slot rfl rfl
theorem divS64 (f : FormSA) : Statement (.divS64 f) := of_slot rfl rfl
theorem divZ64 (f : FormSA) : Statement (.divZ64 f) := of_slot rfl rfl
theorem remS64 (f : FormSA) : Statement (.remS64 f) := of_slot rfl rfl
theorem remZ64 (f : FormSA) : Statement (.remZ64 f) := of_slot rfl rfl
theorem minS64 (f : FormSA) : Statement (.minS64 f) := of_slot rfl rfl
theorem minZ64 (f : FormSA) : Statement (.minZ64 f) := of_slot rfl rfl
theorem maxS64 (f : FormSA) : Statement (.maxS64 f) := of_slot rfl rfl
theorem maxZ64 (f : FormSA) : Statement (.maxZ64 f) := of_slot rfl rfl
theorem andOp (f : FormSA) : Statement (.andOp f) := of_slot rfl rfl
theorem orOp (f : FormSA) : Statement (.orOp f) := of_slot rfl rfl
theorem xorOp (f : FormSA) : Statement (.xorOp f) := of_slot rfl rfl
theorem andn (f : FormSA) : Statement (.andn f) := of_slot rfl rfl
theorem shl (f : FormSA) : Statement (.shl f) := of_slot rfl rfl
theorem shrZ64 (f : FormSA) : Statement (.shrZ64 f) := of_slot rfl rfl
theorem shrS64 (f : FormSA) : Statement (.shrS64 f) := of_slot rfl rfl
theorem rotl (f : FormSA) : Statement (.rotl f) := of_slot rfl rfl
theorem rotr (f : FormSA) : Statement (.rotr f) := of_slot rfl rfl
theorem clz (f : FormSU) : Statement (.clz f) := of_slot rfl rfl
theorem ctz (f : FormSU) : Statement (.ctz f) := of_slot rfl rfl
theorem popc (f : FormSU) : Statement (.popc f) := of_slot rfl rfl
theorem brev (f : FormSU) : Statement (.brev f) := of_slot rfl rfl
theorem bswap (f : FormSU) : Statement (.bswap f) := of_slot rfl rfl
theorem bfextS64 (f : FormSA) : Statement (.bfextS64 f) := of_slot rfl rfl
theorem bfextZ64 (f : FormSA) : Statement (.bfextZ64 f) := of_slot rfl rfl
theorem bfins (f : FormSA) : Statement (.bfins f) := of_slot rfl rfl
theorem clmul (f : FormSA) : Statement (.clmul f) := of_slot rfl rfl
theorem clmulh (f : FormSA) : Statement (.clmulh f) := of_slot rfl rfl
theorem cmpS64 (f : FormSP) : Statement (.cmpS64 f) := of_slot rfl rfl
theorem cmpZ64 (f : FormSP) : Statement (.cmpZ64 f) := of_slot rfl rfl
theorem gdand (f : FormSL) : Statement (.gdand f) := of_slot rfl rfl
theorem gdor (f : FormSL) : Statement (.gdor f) := of_slot rfl rfl
theorem gdxor (f : FormSL) : Statement (.gdxor f) := of_slot rfl rfl
theorem sel (f : FormSC) : Statement (.sel f) := of_slot rfl rfl
theorem lea (f : FormSLea) : Statement (.lea f) := of_slot rfl rfl
theorem tagof (f : FormSU) : Statement (.tagof f) := of_slot rfl rfl
theorem dflt (f : FormSA) : Statement (.dflt f) := of_slot rfl rfl
theorem rdctl (f : FormSR) : Statement (.rdctl f) := of_slot rfl rfl
theorem sxt (f : FormSW) : Statement (.sxt f) := of_slot rfl rfl
theorem zxt (f : FormSW) : Statement (.zxt f) := of_slot rfl rfl
theorem prepOffset (f : FormCBo) : Statement (.prepOffset f) := of_slot rfl rfl
theorem prepRegister (f : FormCBr) : Statement (.prepRegister f) := of_slot rfl rfl
theorem br (f : FormCE) : Statement (.br f) := of_slot rfl rfl
theorem call (f : FormCE) : Statement (.call f) := of_slot rfl rfl
theorem ret (f : FormGZ) : Statement (.ret f) := of_slot rfl rfl
theorem loop (f : FormCL) : Statement (.loop f) := of_slot rfl rfl
theorem lbrk (f : FormCV) : Statement (.lbrk f) := of_slot rfl rfl
theorem semwImmediate (f : FormCWi) : Statement (.semwImmediate f) := of_slot rfl rfl
theorem semwRegister (f : FormCWr) : Statement (.semwRegister f) := of_slot rfl rfl
theorem waitw (f : FormCA) : Statement (.waitw f) := of_slot rfl rfl
theorem stepMark (f : FormCI) : Statement (.stepMark f) := of_slot rfl rfl
theorem brk (f : FormCI) : Statement (.brk f) := of_slot rfl rfl
theorem trap (f : FormCI) : Statement (.trap f) := of_slot rfl rfl
theorem sys (f : FormCI) : Statement (.sys f) := of_slot rfl rfl
theorem endItem (f : FormGZ) : Statement (.endItem f) := of_slot rfl rfl
theorem chkctl (f : FormCK) : Statement (.chkctl f) := of_slot rfl rfl
theorem dblctl (f : FormCI) : Statement (.dblctl f) := of_slot rfl rfl
theorem ctrap (f : FormGAB) : Statement (.ctrap f) := of_slot rfl rfl
theorem commit (f : FormGZ) : Statement (.commit f) := of_slot rfl rfl
theorem wrctl (f : FormCX) : Statement (.wrctl f) := of_slot rfl rfl
theorem setctl (f : FormCX) : Statement (.setctl f) := of_slot rfl rfl
theorem clrctl (f : FormCX) : Statement (.clrctl f) := of_slot rfl rfl
theorem rft (f : FormGZ) : Statement (.rft f) := of_slot rfl rfl
theorem xlinv (f : FormCA) : Statement (.xlinv f) := of_slot rfl rfl
theorem ctxsave (f : FormCA) : Statement (.ctxsave f) := of_slot rfl rfl
theorem ctxload (f : FormCA) : Statement (.ctxload f) := of_slot rfl rfl
theorem ldS8 (f : FormMA) : Statement (.ldS8 f) := of_slot rfl rfl
theorem ldZ8 (f : FormMA) : Statement (.ldZ8 f) := of_slot rfl rfl
theorem ldS16 (f : FormMA) : Statement (.ldS16 f) := of_slot rfl rfl
theorem ldZ16 (f : FormMA) : Statement (.ldZ16 f) := of_slot rfl rfl
theorem ldS32 (f : FormMA) : Statement (.ldS32 f) := of_slot rfl rfl
theorem ldZ32 (f : FormMA) : Statement (.ldZ32 f) := of_slot rfl rfl
theorem ldZ64 (f : FormMA) : Statement (.ldZ64 f) := of_slot rfl rfl
theorem stZ8 (f : FormMA) : Statement (.stZ8 f) := of_slot rfl rfl
theorem stZ16 (f : FormMA) : Statement (.stZ16 f) := of_slot rfl rfl
theorem stZ32 (f : FormMA) : Statement (.stZ32 f) := of_slot rfl rfl
theorem stZ64 (f : FormMA) : Statement (.stZ64 f) := of_slot rfl rfl
theorem vld (f : FormMA) : Statement (.vld f) := of_slot rfl rfl
theorem vst (f : FormMA) : Statement (.vst f) := of_slot rfl rfl
theorem vlds (f : FormMA) : Statement (.vlds f) := of_slot rfl rfl
theorem vsts (f : FormMA) : Statement (.vsts f) := of_slot rfl rfl
theorem vldx (f : FormDAB) : Statement (.vldx f) := of_slot rfl rfl
theorem vstx (f : FormDAB) : Statement (.vstx f) := of_slot rfl rfl
theorem vldr (f : FormHDAB) : Statement (.vldr f) := of_slot rfl rfl
theorem hbind (f : FormHA) : Statement (.hbind f) := of_slot rfl rfl
theorem hunbind (f : FormH0) : Statement (.hunbind f) := of_slot rfl rfl
theorem ladd (f : FormDAB) : Statement (.ladd f) := of_slot rfl rfl
theorem lminS64 (f : FormDAB) : Statement (.lminS64 f) := of_slot rfl rfl
theorem lminZ64 (f : FormDAB) : Statement (.lminZ64 f) := of_slot rfl rfl
theorem lmaxS64 (f : FormDAB) : Statement (.lmaxS64 f) := of_slot rfl rfl
theorem lmaxZ64 (f : FormDAB) : Statement (.lmaxZ64 f) := of_slot rfl rfl
theorem lxch (f : FormDAB) : Statement (.lxch f) := of_slot rfl rfl
theorem lcas (f : FormDAB) : Statement (.lcas f) := of_slot rfl rfl
theorem vmov (f : FormVU) : Statement (.vmov f) := of_slot rfl rfl
theorem vsel (f : FormVA) : Statement (.vsel f) := of_slot rfl rfl
theorem vchk (f : FormVK) : Statement (.vchk f) := of_slot rfl rfl
theorem vcvt (f : FormVT) : Statement (.vcvt f) := of_slot rfl rfl
theorem vand (f : FormVA) : Statement (.vand f) := of_slot rfl rfl
theorem vor (f : FormVA) : Statement (.vor f) := of_slot rfl rfl
theorem vxor (f : FormVA) : Statement (.vxor f) := of_slot rfl rfl
theorem vshl (f : FormVA) : Statement (.vshl f) := of_slot rfl rfl
theorem vshrZ32 (f : FormVA) : Statement (.vshrZ32 f) := of_slot rfl rfl
theorem vshrS32 (f : FormVA) : Statement (.vshrS32 f) := of_slot rfl rfl
theorem vperm (f : FormVA) : Statement (.vperm f) := of_slot rfl rfl
theorem vbcast (f : FormVA) : Statement (.vbcast f) := of_slot rfl rfl
theorem vaddS32 (f : FormVA) : Statement (.vaddS32 f) := of_slot rfl rfl
theorem vsubS32 (f : FormVA) : Statement (.vsubS32 f) := of_slot rfl rfl
theorem vmulS32 (f : FormVA) : Statement (.vmulS32 f) := of_slot rfl rfl
theorem vaddsS32 (f : FormVA) : Statement (.vaddsS32 f) := of_slot rfl rfl
theorem vminS32 (f : FormVA) : Statement (.vminS32 f) := of_slot rfl rfl
theorem vminZ32 (f : FormVA) : Statement (.vminZ32 f) := of_slot rfl rfl
theorem vmaxS32 (f : FormVA) : Statement (.vmaxS32 f) := of_slot rfl rfl
theorem vmaxZ32 (f : FormVA) : Statement (.vmaxZ32 f) := of_slot rfl rfl
theorem vcmpS32 (f : FormVC) : Statement (.vcmpS32 f) := of_slot rfl rfl
theorem vcmpZ32 (f : FormVC) : Statement (.vcmpZ32 f) := of_slot rfl rfl
theorem vext (f : FormVA) : Statement (.vext f) := of_slot rfl rfl
theorem vins (f : FormVA) : Statement (.vins f) := of_slot rfl rfl
theorem vrcpF32 (f : FormVU) : Statement (.vrcpF32 f) := of_slot rfl rfl
theorem vrsqF32 (f : FormVU) : Statement (.vrsqF32 f) := of_slot rfl rfl
theorem vitpF32 (f : FormVA) : Statement (.vitpF32 f) := of_slot rfl rfl
theorem vitpBf16 (f : FormVA) : Statement (.vitpBf16 f) := of_slot rfl rfl
theorem vaddF (f : FormVF) : Statement (.vaddF f) := of_slot rfl rfl
theorem vsubF (f : FormVF) : Statement (.vsubF f) := of_slot rfl rfl
theorem vmulF (f : FormVF) : Statement (.vmulF f) := of_slot rfl rfl
theorem vfma (f : FormVF) : Statement (.vfma f) := of_slot rfl rfl
theorem vfnma (f : FormVF) : Statement (.vfnma f) := of_slot rfl rfl
theorem vminF (f : FormVF) : Statement (.vminF f) := of_slot rfl rfl
theorem vmaxF (f : FormVF) : Statement (.vmaxF f) := of_slot rfl rfl
theorem vcmpF (f : FormVFC) : Statement (.vcmpF f) := of_slot rfl rfl
theorem vssum (f : FormHDAB) : Statement (.vssum f) := of_slot rfl rfl
theorem vsmin (f : FormHDAB) : Statement (.vsmin f) := of_slot rfl rfl
theorem vsmax (f : FormHDAB) : Statement (.vsmax f) := of_slot rfl rfl
theorem vsscan (f : FormHDAB) : Statement (.vsscan f) := of_slot rfl rfl
theorem vsmean (f : FormHDAB) : Statement (.vsmean f) := of_slot rfl rfl
theorem vsvar (f : FormHDAB) : Statement (.vsvar f) := of_slot rfl rfl
theorem vssmx (f : FormHDAB) : Statement (.vssmx f) := of_slot rfl rfl
theorem xnest (f : FormXN) : Statement (.xnest f) := of_slot rfl rfl
theorem xbase (f : FormXB) : Statement (.xbase f) := of_slot rfl rfl
theorem xfmt (f : FormXA) : Statement (.xfmt f) := of_slot rfl rfl
theorem xsrc (f : FormXS) : Statement (.xsrc f) := of_slot rfl rfl
theorem xbmp (f : FormXB) : Statement (.xbmp f) := of_slot rfl rfl
theorem xsdiag (f : FormXF) : Statement (.xsdiag f) := of_slot rfl rfl
theorem xzero (f : FormXA) : Statement (.xzero f) := of_slot rfl rfl
theorem xgo (f : FormXF) : Statement (.xgo f) := of_slot rfl rfl
theorem xdrain (f : FormGAB) : Statement (.xdrain f) := of_slot rfl rfl
theorem xwait (f : FormGZ) : Statement (.xwait f) := of_slot rfl rfl
theorem xstat (f : FormXS) : Statement (.xstat f) := of_slot rfl rfl
theorem sbind (f : FormHA) : Statement (.sbind f) := of_slot rfl rfl
theorem sunbind (f : FormH0) : Statement (.sunbind f) := of_slot rfl rfl
theorem gpush (f : FormHA) : Statement (.gpush f) := of_slot rfl rfl
theorem copy (f : FormGAB) : Statement (.copy f) := of_slot rfl rfl
theorem send (f : FormGAB) : Statement (.send f) := of_slot rfl rfl
theorem rsend (f : FormXA) : Statement (.rsend f) := of_slot rfl rfl
theorem ssig (f : FormSG) : Statement (.ssig f) := of_slot rfl rfl
theorem ssigR (f : FormSG) : Statement (.ssigR f) := of_slot rfl rfl
theorem sinit (f : FormGAB) : Statement (.sinit f) := of_slot rfl rfl
theorem sread (f : FormSU) : Statement (.sread f) := of_slot rfl rfl
theorem aadd (f : FormDAB) : Statement (.aadd f) := of_slot rfl rfl
theorem aminS64 (f : FormDAB) : Statement (.aminS64 f) := of_slot rfl rfl
theorem aminZ64 (f : FormDAB) : Statement (.aminZ64 f) := of_slot rfl rfl
theorem amaxS64 (f : FormDAB) : Statement (.amaxS64 f) := of_slot rfl rfl
theorem amaxZ64 (f : FormDAB) : Statement (.amaxZ64 f) := of_slot rfl rfl
theorem aand (f : FormDAB) : Statement (.aand f) := of_slot rfl rfl
theorem aor (f : FormDAB) : Statement (.aor f) := of_slot rfl rfl
theorem axor (f : FormDAB) : Statement (.axor f) := of_slot rfl rfl
theorem axch (f : FormDAB) : Statement (.axch f) := of_slot rfl rfl
theorem acas (f : FormHDAB) : Statement (.acas f) := of_slot rfl rfl
theorem afaddF32 (f : FormDAB) : Statement (.afaddF32 f) := of_slot rfl rfl
theorem afaddBf16 (f : FormDAB) : Statement (.afaddBf16 f) := of_slot rfl rfl
theorem fence (f : FormXA) : Statement (.fence f) := of_slot rfl rfl
theorem launch (f : FormXA) : Statement (.launch f) := of_slot rfl rfl
theorem pref (f : FormXA) : Statement (.pref f) := of_slot rfl rfl
theorem ectlBayout (f : FormGAB) : Statement (.ectlBayout f) := of_slot rfl rfl
theorem ectlBayin (f : FormGAB) : Statement (.ectlBayin f) := of_slot rfl rfl
theorem ectlSpout (f : FormGAB) : Statement (.ectlSpout f) := of_slot rfl rfl
theorem ectlSpin (f : FormGAB) : Statement (.ectlSpin f) := of_slot rfl rfl
theorem ectlAccout (f : FormGAB) : Statement (.ectlAccout f) := of_slot rfl rfl
theorem ectlAccin (f : FormGAB) : Statement (.ectlAccin f) := of_slot rfl rfl
theorem ectlKill (f : FormGAB) : Statement (.ectlKill f) := of_slot rfl rfl
theorem engineHardError (u : EngineUnit) : Statement (.engineHardError u) := of_event rfl rfl rfl
theorem partitionCreate (p : PartNo) (tiles : BitVec 1152) : Statement (.partitionCreate p tiles) := of_event rfl rfl rfl
theorem junctionThrottle (d : DieNo) (hot : Bool) : Statement (.junctionThrottle d hot) := of_event rfl rfl rfl
theorem wallTimeDiscipline (m : TimingMessage) : Statement (.wallTimeDiscipline m) := of_event rfl rfl rfl
theorem ualinkPortState (k : Fin 16) (up : Bool) (peer : BitVec 5) : Statement (.ualinkPortState k up peer) := of_event rfl rfl rfl
theorem bundleIssue : Statement .bundleIssue := of_event rfl rfl rfl
theorem waitCycle : Statement .waitCycle := of_event rfl rfl rfl
theorem bubbleCycle : Statement .bubbleCycle := of_event rfl rfl rfl
theorem waitwDeadline : Statement .waitwDeadline := of_event rfl rfl rfl
theorem resultArrival : Statement .resultArrival := of_event rfl rfl rfl
theorem engineCommandPresentation : Statement .engineCommandPresentation := of_event rfl rfl rfl
theorem denseMatrixCycle : Statement .denseMatrixCycle := of_event rfl rfl rfl
theorem matrixBlockZero : Statement .matrixBlockZero := of_event rfl rfl rfl
theorem drainRowWrite : Statement .drainRowWrite := of_event rfl rfl rfl
theorem sparseMatrixStart : Statement .sparseMatrixStart := of_event rfl rfl rfl
theorem sparseMatrixComplete : Statement .sparseMatrixComplete := of_event rfl rfl rfl
theorem segmentEntry : Statement .segmentEntry := of_event rfl rfl rfl
theorem segmentRewind : Statement .segmentRewind := of_event rfl rfl rfl
theorem deciderVerdict : Statement .deciderVerdict := of_event rfl rfl rfl
theorem trapTaken : Statement .trapTaken := of_event rfl rfl rfl
theorem semaphoreWaitWatchdog : Statement .semaphoreWaitWatchdog := of_event rfl rfl rfl
theorem debugStop : Statement .debugStop := of_event rfl rfl rfl
theorem walkData : Statement .walkData := of_event rfl rfl rfl
theorem migrationComplete : Statement .migrationComplete := of_event rfl rfl rfl
theorem refuseLog : Statement .refuseLog := of_event rfl rfl rfl
theorem signalLog : Statement .signalLog := of_event rfl rfl rfl
theorem launchAccept : Statement .launchAccept := of_event rfl rfl rfl
theorem sumpAdmit : Statement .sumpAdmit := of_event rfl rfl rfl
theorem launchEligible : Statement .launchEligible := of_event rfl rfl rfl
theorem gangPlacement : Statement .gangPlacement := of_event rfl rfl rfl
theorem runResident : Statement .runResident := of_event rfl rfl rfl
theorem gangStart : Statement .gangStart := of_event rfl rfl rfl
theorem workItemComplete : Statement .workItemComplete := of_event rfl rfl rfl
theorem sliceExpiry : Statement .sliceExpiry := of_event rfl rfl rfl
theorem gangPreemption : Statement .gangPreemption := of_event rfl rfl rfl
theorem contextSaveDone : Statement .contextSaveDone := of_event rfl rfl rfl
theorem ectlTransferComplete : Statement .ectlTransferComplete := of_event rfl rfl rfl
theorem gangRestore : Statement .gangRestore := of_event rfl rfl rfl
theorem marginMeasurement : Statement .marginMeasurement := of_event rfl rfl rfl
theorem resetDone : Statement .resetDone := of_event rfl rfl rfl
theorem dieFailure : Statement .dieFailure := of_event rfl rfl rfl
theorem galleryDieLoss : Statement .galleryDieLoss := of_event rfl rfl rfl
theorem thermalTrip : Statement .thermalTrip := of_event rfl rfl rfl
theorem surveyReportWrite : Statement .surveyReportWrite := of_event rfl rfl rfl
theorem powerOn : Statement .powerOn := of_event rfl rfl rfl
theorem nop : Statement .nop := ⟨fun _ => rfl, fun _ => .inr rfl, fun h => nomatch h⟩

end Sys2Proof.Laws.Encoding
end

