-- ==== Sys2Proof/Tests/Slice0.lean ====
section
/-! SUPPORT. Own tests: words written out from the encoding tables, ill-formed terms that the checks refuse, states and operands that meet the hypotheses
of each statement, and single steps whose results are worked out by hand from the rules. -/
namespace Sys2Proof.Machine

-- One theorem after another: each is a computation by the kernel, and they would otherwise wait for one another side by side.
set_option Elab.async false

/-! ## Small states -/

/-- The first tile with a kernel whose next bundle presents one word. -/
def kst : State := State.reset.withFetchWord 32 0x04003042
/-- The first tile with a handler whose next bundle presents one word. -/
def hst : State := State.reset.withFetchWord 32 0x30004404
/-- A state that names another slot for an operation that issues alone. -/
def inSlot (s : State) (sl : Slot) : State := { s with curSlot := sl }
/-- Scratchpad bytes put into the acting tile. -/
def withSpad (s : State) (a : Nat) (bs : List Byte) : State := s.mapMe fun t => { t with spad := t.spad.put a bs }
/-- A register of the context that issues given a value. -/
def withN (s : State) (k : Nat) (x : Scalar) : State := s.mapMe fun t => t.setCtx { t.ctx with n := vset t.ctx.n k x }
/-- A field of an outcome's next state. -/
def after (o : Host.Outcome State Fault Refusal) (p : State → Bool) : Bool :=
  match o with
  | .next t => p t
  | _ => false

/-! ## What a statement's hypotheses ask of an issue, as a computation -/

/-- `State.calm`, computed. -/
def calmB (s : State) : Bool :=
  (s.me.inp.replays.isEmpty && (s.me.run.bind Run.gate).isNone && !(s.me.run.map Run.retrace).getD false &&
    s.me.survey.waits.read.isNone && s.me.survey.waits.write.isNone) &&
  (s.me.checker.isNone && s.me.shadowCheck.isNone && s.me.inp.stuck.isEmpty && decide (s.me.dfr = Deferred.none)) &&
  (s.me.k.infl.all (fun e => decide (s.me.k.cycle < e.last)) && s.me.priv.shadow.infl.all (fun e => decide (s.me.priv.shadow.cycle < e.last)) &&
    s.me.eng.lag.all (fun c => decide (s.me.k.cycle < c.cycle + 4 ∧ c.late = 0)) && s.me.sems.pend.isEmpty) && s.me.mx.queue.isEmpty

/-- `State.unhindered`, computed. -/
def freeB (s : State) (i : Instr) : Bool :=
  decide (i.wordFault s.curExt.isSome = none) && (boundCands s.me s.curHdr).isEmpty &&
  (checkAll (aloneBatch i (slotSem i) s) s).cands.isEmpty && (checkAll (aloneBatch i (slotSem i) s) s).short.isEmpty

/-- An operation that is on issues with nothing in its way. -/
def runsB (s : State) (i : Instr) : Bool := freeB s i && calmB s && opOn s.curHdr s.me.ctx i
/-- An operation that is off issues with nothing in its way. -/
def offB (s : State) (i : Instr) : Bool := freeB s i && calmB s && !opOn s.curHdr s.me.ctx i

theorem calm_of {s : State} (h : calmB s = true) : s.calm := by
  simp only [calmB, Bool.and_eq_true, List.isEmpty_iff, Option.isNone_iff_eq_none, decide_eq_true_eq, List.all_eq_true,
    Bool.not_eq_true'] at h
  obtain ⟨⟨⟨⟨⟨⟨⟨h1, h2⟩, h3⟩, h4⟩, h5⟩, ⟨⟨⟨h6, h7⟩, h8⟩, h9⟩⟩, ⟨⟨⟨h10, h11⟩, h12⟩, h13⟩⟩, hq⟩ := h
  exact ⟨⟨h1, h2, h3, h4, h5, h6, h7, h8, h9, h10, h11, h12, h13⟩, hq⟩

theorem free_of {s : State} {i : Instr} (h : freeB s i = true) : s.unhindered i := by
  simp only [freeB, Bool.and_eq_true, List.isEmpty_iff, Option.isNone_iff_eq_none, decide_eq_true_eq] at h
  exact ⟨h.1.1.1, h.1.1.2, h.1.2, h.2⟩

/-- Every operation of a list issues, is on, and meets a further condition. -/
theorem runs_all {s : State} {l : List Instr} {p : Instr → Bool} (h : (l.all fun i => runsB s i && p i) = true) :
    ∀ i ∈ l, s.unhindered i ∧ s.calm ∧ s.on i ∧ p i = true := by
  intro i hi
  have := List.all_eq_true.1 h i hi
  simp only [runsB, Bool.and_eq_true] at this
  exact ⟨free_of this.1.1.1, calm_of this.1.1.2, this.1.2, this.2⟩

/-- Every operation of a list issues, is off, and meets a further condition. -/
theorem off_all {s : State} {l : List Instr} {p : Instr → Bool} (h : (l.all fun i => offB s i && p i) = true) :
    ∀ i ∈ l, s.unhindered i ∧ s.calm ∧ ¬ s.on i ∧ p i = true := by
  intro i hi
  have := List.all_eq_true.1 h i hi
  simp only [offB, Bool.and_eq_true, Bool.not_eq_true'] at this
  exact ⟨free_of this.1.1.1, calm_of this.1.1.2, by simp [State.on, this.1.2], this.2⟩

/-! ## Words written out from the encoding tables -/

/-- Whether every word decodes, in a slot of a kind, to the operation beside it. -/
def decodesAll (k : SlotKind) (l : List (Insn × Instr)) : Bool :=
  l.all fun p => match decodeSlot k p.1 with
    | .ok i => decide (i = p.2)
    | .error _ => false

theorem test_decode_S1 : decodesAll .S [
    (0x03E22B3F, .mov { g := 15, d := 34, a := 44 }),
    (0x04901BFD, .add { g := 4, k := true, d := 1, a := 47, b := 61 }),
    (0x0711D012, .sub { g := 8, k := true, d := 29, a := 0, b := 18 }),
    (0x09D54ADA, .addo { g := 14, j := 5, d := 20, a := 43, b := 26 }),
    (0x0A2C9AF3, .addc { g := 1, j := 3, d := 9, a := 43, b := 51 }),
    (0x0C40770B, .subo { g := 2, j := 0, d := 7, a := 28, b := 11 }),
    (0x0FBCED91, .subc { g := 13, j := 7, d := 14, a := 54, b := 17 }),
    (0x1140654A, .mul { g := 10, k := false, d := 6, a := 21, b := 10 }),
    (0x1393CF71, .mulhS64 { g := 12, k := true, d := 60, a := 61, b := 49 }),
    (0x1401886D, .mulhZ64 { g := 0, k := false, d := 24, a := 33, b := 45 }),
    (0x177273A0, .divS64 { g := 11, k := true, d := 39, a := 14, b := 32 }),
    (0x18F2EBD6, .divZ64 { g := 7, k := true, d := 46, a := 47, b := 22 })] = true := by decide +kernel

theorem test_decode_S2 : decodesAll .S [
    (0x1A137103, .remS64 { g := 0, k := true, d := 55, a := 4, b := 3 }),
    (0x1CF05C5A, .remZ64 { g := 7, k := true, d := 5, a := 49, b := 26 }),
    (0x1E616263, .minS64 { g := 3, k := false, d := 22, a := 9, b := 35 }),
    (0x20323FEC, .minZ64 { g := 1, k := true, d := 35, a := 63, b := 44 }),
    (0x2232F6AB, .maxS64 { g := 1, k := true, d := 47, a := 26, b := 43 }),
    (0x2533CF5E, .maxZ64 { g := 9, k := true, d := 60, a := 61, b := 30 }),
    (0x26B2E5D8, .andOp { g := 5, k := true, d := 46, a := 23, b := 24 }),
    (0x28E22AD6, .orOp { g := 7, k := false, d := 34, a := 43, b := 22 }),
    (0x2AE057CE, .xorOp { g := 7, k := false, d := 5, a := 31, b := 14 }),
    (0x2D603A63, .andn { g := 11, k := false, d := 3, a := 41, b := 35 }),
    (0x2E63DFAD, .shl { g := 3, k := false, d := 61, a := 62, b := 45 }),
    (0x31114E65, .shrZ64 { g := 8, k := true, d := 20, a := 57, b := 37 })] = true := by decide +kernel

theorem test_decode_S3 : decodesAll .S [
    (0x3232AE1B, .shrS64 { g := 1, k := true, d := 42, a := 56, b := 27 }),
    (0x35303003, .rotl { g := 9, k := true, d := 3, a := 0, b := 3 }),
    (0x3693545E, .rotr { g := 4, k := true, d := 53, a := 17, b := 30 }),
    (0x38C37F3F, .clz { g := 6, d := 55, a := 60 }),
    (0x3A22117F, .ctz { g := 1, d := 33, a := 5 }),
    (0x3DA372FF, .popc { g := 13, d := 55, a := 11 }),
    (0x3F819B3F, .brev { g := 12, d := 25, a := 44 }),
    (0x4163153F, .bswap { g := 11, d := 49, a := 20 }),
    (0x42003109, .bfextS64 { g := 0, k := false, d := 3, a := 4, b := 9 }),
    (0x45A3032D, .bfextZ64 { g := 13, k := false, d := 48, a := 12, b := 45 }),
    (0x46D22F8F, .bfins { g := 6, k := true, d := 34, a := 62, b := 15 }),
    (0x48D1F274, .clmul { g := 6, k := true, d := 31, a := 9, b := 52 })] = true := by decide +kernel

theorem test_decode_S4 : decodesAll .S [
    (0x4B70AA92, .clmulh { g := 11, k := true, d := 10, a := 42, b := 18 }),
    (0x4C5165F7, .cmpS64 { g := 2, k := true, cond := 2, pair := 6, a := 23, b := 55 }),
    (0x4F602FB8, .cmpZ64 { g := 11, k := false, cond := 0, pair := 2, a := 62, b := 56 }),
    (0x51E020D5, .gdand { g := 15, pair := 2, ga := 3, gb := 21 }),
    (0x53C02506, .gdor { g := 14, pair := 2, ga := 20, gb := 6 }),
    (0x54E015D7, .gdxor { g := 7, pair := 1, ga := 23, gb := 23 }),
    (0x570F795C, .sel { g := 8, j := 3, d := 55, a := 37, b := 28 }),
    (0x5897BC5F, .lea { g := 4, k := true, sh := 1, d := 59, a := 49, b := 31 }),
    (0x5BC3A1BF, .tagof { g := 14, d := 58, a := 6 }),
    (0x5CF32E06, .dflt { g := 7, k := true, d := 50, a := 56, b := 6 }),
    (0x5E627B35, .rdctl { g := 3, d := 39, cr := 2869 }),
    (0x6007FBBF, .sxt { g := 0, w := 1, d := 63, a := 46 })] = true := by decide +kernel

theorem test_decode_S5 : decodesAll .S [
    (0x63211F7F, .zxt { g := 9, w := 0, d := 17, a := 61 })] = true := by decide +kernel

theorem test_decode_C1 : decodesAll .C [
    (0x02EE03CA, .prepOffset { g := 7, e := 1, off := 132042 }),
    (0x03E00036, .prepRegister { g := 15, e := 0, a := 54 }),
    (0x05700000, .br { g := 11, e := 2 }),
    (0x07B00000, .call { g := 13, e := 2 }),
    (0x09800000, .ret { g := 12 }),
    (0x0B41084C, .loop { g := 10, k := false, cnt := 16, last := 2124 }),
    (0x0C340000, .lbrk { g := 1, lvl := 5 }),
    (0x0F9A4D90, .semwImmediate { g := 12, sem := 52, n := 3472 }),
    (0x0F158034, .semwRegister { g := 8, sem := 43, b := 52 }),
    (0x1180003F, .waitw { g := 12, a := 63 }),
    (0x1380CC92, .stepMark { g := 12, imm := 52370 }),
    (0x14A056F3, .brk { g := 5, imm := 22259 })] = true := by decide +kernel

theorem test_decode_C2 : decodesAll .C [
    (0x16C08264, .trap { g := 6, imm := 33380 }),
    (0x1860892B, .sys { g := 3, imm := 35115 }),
    (0x1A200000, .endItem { g := 1 }),
    (0x1D600001, .chkctl { g := 11, cmp := true }),
    (0x1E809F40, .dblctl { g := 4, imm := 40768 }),
    (0x20C000E7, .ctrap { g := 6, a := 3, b := 39 }),
    (0x22200000, .commit { g := 1 }),
    (0x30015E59, .wrctl { g := 0, cr := 1401, a := 25 }),
    (0x32A19325, .setctl { g := 5, cr := 1612, a := 37 }),
    (0x34C178E7, .clrctl { g := 6, cr := 1507, a := 39 }),
    (0x36000000, .rft { g := 0 }),
    (0x3860002E, .xlinv { g := 3, a := 46 })] = true := by decide +kernel

theorem test_decode_C3 : decodesAll .C [
    (0x3BE00019, .ctxsave { g := 15, a := 25 }),
    (0x3DC0000C, .ctxload { g := 14, a := 12 })] = true := by decide +kernel

theorem test_decode_M1 : decodesAll .M [
    (0x0207E97B, .ldS8 { g := 0, bm := 0, p := true, d := 62, a := 37, b := 59 }),
    (0x056C38C2, .ldZ8 { g := 11, bm := 1, p := true, d := 3, a := 35, b := 2 }),
    (0x068CDDB3, .ldS16 { g := 4, bm := 1, p := true, d := 13, a := 54, b := 51 }),
    (0x0962C1DD, .ldZ16 { g := 11, bm := 0, p := false, d := 44, a := 7, b := 29 }),
    (0x0A68705F, .ldS32 { g := 3, bm := 1, p := false, d := 7, a := 1, b := 31 }),
    (0x0C01DF1A, .ldZ32 { g := 0, bm := 0, p := false, d := 29, a := 60, b := 26 }),
    (0x0FCE87B2, .ldZ64 { g := 14, bm := 1, p := true, d := 40, a := 30, b := 50 }),
    (0x104AE4A6, .stZ8 { g := 2, bm := 1, p := false, d := 46, a := 18, b := 38 }),
    (0x126A3059, .stZ16 { g := 3, bm := 1, p := false, d := 35, a := 1, b := 25 }),
    (0x14E77AF3, .stZ32 { g := 7, bm := 0, p := true, d := 55, a := 43, b := 51 }),
    (0x174FEAD8, .stZ64 { g := 10, bm := 1, p := true, d := 62, a := 43, b := 24 }),
    (0x1962BC62, .vld { g := 11, bm := 0, p := false, d := 43, a := 49, b := 34 })] = true := by decide +kernel

theorem test_decode_M2 : decodesAll .M [
    (0x1A8E0AF5, .vst { g := 4, bm := 1, p := true, d := 32, a := 43, b := 53 }),
    (0x1C656B93, .vlds { g := 3, bm := 0, p := true, d := 22, a := 46, b := 19 }),
    (0x1F0E7BED, .vsts { g := 8, bm := 1, p := true, d := 39, a := 47, b := 45 }),
    (0x2143A256, .vldx { g := 10, d := 58, a := 9, b := 22 }),
    (0x2381AA6E, .vstx { g := 12, d := 26, a := 41, b := 46 }),
    (0x256A5AEA, .vldr { g := 11, h := 2, d := 37, a := 43, b := 42 }),
    (0x2783FABF, .hbind { g := 12, h := 0, a := 42 }),
    (0x2847FFFF, .hunbind { g := 2, h := 1 }),
    (0x2B014F8B, .ladd { g := 8, d := 20, a := 62, b := 11 }),
    (0x2D215E1D, .lminS64 { g := 9, d := 21, a := 56, b := 29 }),
    (0x2F208758, .lminZ64 { g := 9, d := 8, a := 29, b := 24 }),
    (0x30C233DB, .lmaxS64 { g := 6, d := 35, a := 15, b := 27 })] = true := by decide +kernel

theorem test_decode_M3 : decodesAll .M [
    (0x32A3D9FA, .lmaxZ64 { g := 5, d := 61, a := 39, b := 58 }),
    (0x3483DCB8, .lxch { g := 4, d := 61, a := 50, b := 56 }),
    (0x37C31BA2, .lcas { g := 14, d := 49, a := 46, b := 34 })] = true := by decide +kernel

theorem test_decode_V1 : decodesAll .V [
    (0x02CFEAFF, .vmov { g := 6, m := 3, d := 62, a := 43 }),
    (0x057A7443, .vsel { g := 11, m := 6, d := 39, a := 17, b := 3 }),
    (0x0653FC65, .vchk { g := 2, m := 4, a := 49, b := 37 }),
    (0x0E9A859B, .vcvt { r := 3, g := 4, m := 6, d := 40, a := 22, pair := 13, sat := true }),
    (0x10286E4E, .vand { g := 1, m := 2, d := 6, a := 57, b := 14 }),
    (0x132D468F, .vor { g := 9, m := 3, d := 20, a := 26, b := 15 }),
    (0x159E72D8, .vxor { g := 12, m := 7, d := 39, a := 11, b := 24 }),
    (0x168F082E, .vshl { g := 4, m := 3, d := 48, a := 32, b := 46 }),
    (0x18C9A35E, .vshrZ32 { g := 6, m := 2, d := 26, a := 13, b := 30 }),
    (0x1B03837E, .vshrS32 { g := 8, m := 0, d := 56, a := 13, b := 62 }),
    (0x1CA37982, .vperm { g := 5, m := 0, d := 55, a := 38, b := 2 }),
    (0x1FFADCCA, .vbcast { g := 15, m := 6, d := 45, a := 51, b := 10 })] = true := by decide +kernel

theorem test_decode_V2 : decodesAll .V [
    (0x205F306F, .vaddS32 { g := 2, m := 7, d := 51, a := 1, b := 47 }),
    (0x23A83A89, .vsubS32 { g := 13, m := 2, d := 3, a := 42, b := 9 }),
    (0x2511C9B4, .vmulS32 { g := 8, m := 4, d := 28, a := 38, b := 52 }),
    (0x2718A164, .vaddsS32 { g := 8, m := 6, d := 10, a := 5, b := 36 }),
    (0x2972C28F, .vminS32 { g := 11, m := 4, d := 44, a := 10, b := 15 }),
    (0x2A252213, .vminZ32 { g := 1, m := 1, d := 18, a := 8, b := 19 }),
    (0x2C896B5C, .vmaxS32 { g := 4, m := 2, d := 22, a := 45, b := 28 }),
    (0x2F81293A, .vmaxZ32 { g := 12, m := 0, d := 18, a := 36, b := 58 }),
    (0x31D4A064, .vcmpS32 { g := 14, m := 5, cond := 1, j := 2, a := 1, b := 36 }),
    (0x33B890AD, .vcmpZ32 { g := 13, m := 6, cond := 1, j := 1, a := 2, b := 45 }),
    (0x3570CFAF, .vext { g := 11, m := 4, d := 12, a := 62, b := 47 }),
    (0x37B69166, .vins { g := 13, m := 5, d := 41, a := 5, b := 38 })] = true := by decide +kernel

theorem test_decode_V3 : decodesAll .V [
    (0x3812847F, .vrcpF32 { g := 0, m := 4, d := 40, a := 17 }),
    (0x3A35E6BF, .vrsqF32 { g := 1, m := 5, d := 30, a := 26 }),
    (0x3C6485B7, .vitpF32 { g := 3, m := 1, d := 8, a := 22, b := 55 }),
    (0x3F505DDC, .vitpBf16 { g := 10, m := 4, d := 5, a := 55, b := 28 }),
    (0x83546A3D, .vaddF { t := 1, g := 10, m := 5, d := 6, a := 40, b := 61 }),
    (0x88E4CF7F, .vsubF { t := 0, g := 7, m := 1, d := 12, a := 61, b := 63 }),
    (0x90DF1AD8, .vmulF { t := 0, g := 6, m := 7, d := 49, a := 43, b := 24 }),
    (0x9C8BCE53, .vfma { t := 2, g := 4, m := 2, d := 60, a := 57, b := 19 }),
    (0xA0D9B5A0, .vfnma { t := 0, g := 6, m := 6, d := 27, a := 22, b := 32 }),
    (0xAC57CE4B, .vminF { t := 2, g := 2, m := 5, d := 60, a := 57, b := 11 }),
    (0xB38D5592, .vmaxF { t := 1, g := 12, m := 3, d := 21, a := 22, b := 18 }),
    (0xB8B6B545, .vcmpF { t := 0, g := 5, m := 5, cond := 5, j := 3, a := 21, b := 5 })] = true := by decide +kernel

theorem test_decode_V4 : decodesAll .V [
    (0xC0FFE454, .vssum { g := 7, h := 7, d := 62, a := 17, b := 20 }),
    (0xC25DD4FF, .vsmin { g := 2, h := 7, d := 29, a := 19, b := 63 }),
    (0xC491F860, .vsmax { g := 4, h := 4, d := 31, a := 33, b := 32 }),
    (0xC6594883, .vsscan { g := 2, h := 6, d := 20, a := 34, b := 3 }),
    (0xC9A39419, .vsmean { g := 13, h := 0, d := 57, a := 16, b := 25 }),
    (0xCBA87081, .vsvar { g := 13, h := 2, d := 7, a := 2, b := 1 }),
    (0xCC6B399A, .vssmx { g := 3, h := 2, d := 51, a := 38, b := 26 })] = true := by decide +kernel

theorem test_decode_X1 : decodesAll .X [
    (0x025CB5BF, .xnest { g := 2, f := 7, sel := 11, a := 22 }),
    (0x0520853F, .xbase { g := 9, sel := 8, a := 20 }),
    (0x078000FF, .xfmt { g := 12, a := 3 }),
    (0x09401FFF, .xsrc { g := 10, sel := 1 }),
    (0x0A80D2BF, .xbmp { g := 4, sel := 13, a := 10 }),
    (0x0C06FFFF, .xsdiag { g := 0, f := 1, sel := 47 }),
    (0x0F0009BF, .xzero { g := 8, a := 38 }),
    (0x11655FFF, .xgo { g := 11, f := 1, sel := 21 }),
    (0x13C00337, .xdrain { g := 14, a := 12, b := 55 }),
    (0x15A00FFF, .xwait { g := 13 }),
    (0x17623FFF, .xstat { g := 11, sel := 35 })] = true := by decide +kernel

theorem test_decode_Q1 : decodesAll .Q [
    (0x0367F37F, .sbind { g := 11, h := 1, a := 13 }),
    (0x0553FFFF, .sunbind { g := 10, h := 4 }),
    (0x06F7F83F, .gpush { g := 7, h := 5, a := 32 }),
    (0x09E3FF6B, .copy { g := 15, a := 61, b := 43 }),
    (0x0A03F3CA, .send { g := 0, a := 15, b := 10 }),
    (0x0D83F03F, .rsend { g := 12, a := 0 }),
    (0x0EA3FE3F, .ssig { g := 5, hi := 0, a := 56, b := 63 }),
    (0x0F87F20B, .ssigR { g := 12, hi := 0, a := 8, b := 11 }),
    (0x10A3FE55, .sinit { g := 5, a := 57, b := 21 }),
    (0x13C279BF, .sread { g := 14, d := 39, a := 38 }),
    (0x14E06019, .aadd { g := 7, d := 6, a := 0, b := 25 }),
    (0x1743FCA8, .aminS64 { g := 10, d := 63, a := 50, b := 40 })] = true := by decide +kernel

theorem test_decode_Q2 : decodesAll .Q [
    (0x18A11234, .aminZ64 { g := 5, d := 17, a := 8, b := 52 }),
    (0x1A80AAB0, .amaxS64 { g := 4, d := 10, a := 42, b := 48 }),
    (0x1C028EE3, .amaxZ64 { g := 0, d := 40, a := 59, b := 35 }),
    (0x1F6099EB, .aand { g := 11, d := 9, a := 39, b := 43 }),
    (0x2140236B, .aor { g := 10, d := 2, a := 13, b := 43 }),
    (0x23A1E898, .axor { g := 13, d := 30, a := 34, b := 24 }),
    (0x2423545A, .axch { g := 1, d := 53, a := 17, b := 26 }),
    (0x260E5346, .acas { g := 0, h := 3, d := 37, a := 13, b := 6 }),
    (0x28802BCB, .afaddF32 { g := 4, d := 2, a := 47, b := 11 }),
    (0x2B61A5B7, .afaddBf16 { g := 11, d := 26, a := 22, b := 55 }),
    (0x2C63F2FF, .fence { g := 3, a := 11 }),
    (0x2E43FB7F, .launch { g := 2, a := 45 })] = true := by decide +kernel

theorem test_decode_Q3 : decodesAll .Q [
    (0x31E3F5FF, .pref { g := 15, a := 23 }),
    (0x3283F5BF, .ectlBayout { g := 4, a := 22, b := 63 }),
    (0x3347FD8C, .ectlBayin { g := 10, a := 54, b := 12 }),
    (0x32ABF4E7, .ectlSpout { g := 5, a := 19, b := 39 }),
    (0x33CFF387, .ectlSpin { g := 14, a := 14, b := 7 }),
    (0x3213FF07, .ectlAccout { g := 0, a := 60, b := 7 }),
    (0x3237F7A8, .ectlAccin { g := 1, a := 30, b := 40 }),
    (0x321BF9D5, .ectlKill { g := 0, a := 39, b := 21 })] = true := by decide +kernel


/-! ## The hypotheses of the statements about slot operations are met -/

/-- Format SA with n1 and n2, to n3. -/
def sa : FormSA := { g := 0, k := false, d := 3, a := 1, b := 2 }
/-- Format SA with an immediate B of 63 in six bits, to n3. -/
def saImm : FormSA := { g := 0, k := true, d := 3, a := 1, b := 63 }

theorem witness_ScalarResults : ∀ i ∈ [Instr.mov { g := 0, d := 3, a := 1 }, .add sa, .sub sa, .mul sa, .mulhS64 sa, .mulhZ64 sa, .minS64 sa, .minZ64 sa,
      .maxS64 sa, .maxZ64 sa, .andOp sa, .orOp sa, .xorOp sa, .andn sa, .shl saImm, .shrZ64 saImm, .shrS64 saImm, .rotl saImm, .rotr saImm,
      .lea { g := 0, k := false, sh := 3, d := 63, a := 1, b := 2 }, .sxt { g := 0, w := 2, d := 3, a := 1 }, .zxt { g := 0, w := 0, d := 3, a := 1 },
      .bfextZ64 saImm, .bfextS64 saImm, .divZ64 sa, .remZ64 sa, .divS64 saImm, .remS64 saImm],
    kst.unhindered i ∧ kst.calm ∧ kst.on i ∧ (wordResult i (kst.env i).a.v (kst.env i).b.v).isSome = true :=
  runs_all (p := fun i => (wordResult i (kst.env i).a.v (kst.env i).b.v).isSome) (by decide +kernel)

theorem witness_BitResults : ∀ i ∈ [Instr.clz { g := 0, d := 3, a := 1 }, .ctz { g := 0, d := 3, a := 1 }, .popc { g := 0, d := 3, a := 1 }, .brev { g := 0, d := 3, a := 1 }, .bswap { g := 0, d := 3, a := 1 },
      .bfins sa, .clmul sa, .clmulh sa], kst.unhindered i ∧ kst.calm ∧ kst.on i ∧ true = true :=
  runs_all (p := fun _ => true) (by decide +kernel)

/-- The kernel with guards g2 and g3 VOID. -/
def voidGuards (s : State) : State :=
  s.mapMe fun t => t.setCtx { t.ctx with g := vset (vset t.ctx.g 2 { val := false, void := true }) 3 { val := false, void := true } }

/-- Format SC of pair 1. -/
def sc : FormSC := { g := 0, j := 1, d := 3, a := 1, b := 2 }

theorem witness_CarryResults :
    (∀ i ∈ [Instr.addo sc, .addc sc, .subo sc, .subc sc], kst.unhindered i ∧ kst.calm ∧ kst.on i ∧ decide ((kst.env i).tags = .valid) = true) ∧
    (∀ i ∈ [Instr.addc sc, .subc sc], (voidGuards kst).unhindered i ∧ (voidGuards kst).calm ∧ (voidGuards kst).on i ∧
      ((vget (voidGuards kst).me.ctx.g 2).void && !(kst.env i).tags.isPoison) = true) ∧
    (∀ i ∈ [Instr.addo { sc with g := 1 }, .addc { sc with g := 1 }, .subo { sc with g := 1 }, .subc { sc with g := 1 }],
      kst.unhindered i ∧ kst.calm ∧ ¬ kst.on i ∧ true = true) :=
  ⟨runs_all (p := fun i => decide ((kst.env i).tags = .valid)) (by decide +kernel),
   runs_all (p := fun i => (vget (voidGuards kst).me.ctx.g 2).void && !(kst.env i).tags.isPoison) (by decide +kernel),
   off_all (p := fun _ => true) (by decide +kernel)⟩

/-- Format SP of pair 7. -/
def sp (g : BitVec 4) (c : BitVec 3) : FormSP := { g := g, k := false, cond := c, pair := 7, a := 1, b := 2 }
/-- Format SL of pair 7: g3 and the inverse of g2. -/
def sl (g : BitVec 4) : FormSL := { g := g, pair := 7, ga := 3, gb := 18 }

theorem witness_GuardResults :
    (∀ i ∈ [Instr.cmpS64 (sp 0 0), .cmpS64 (sp 0 5), .cmpZ64 (sp 0 0), .cmpZ64 (sp 0 5)],
      kst.unhindered i ∧ kst.calm ∧ kst.on i ∧ decide ((kst.env i).tags = .valid) = true) ∧
    (∀ i ∈ [Instr.cmpS64 (sp 1 0), .cmpZ64 (sp 1 5), .gdand (sl 1), .gdor (sl 1), .gdxor (sl 1)],
      kst.unhindered i ∧ kst.calm ∧ ¬ kst.on i ∧ true = true) ∧
    (∀ i ∈ [Instr.gdand (sl 0), .gdor (sl 0), .gdxor (sl 0)], kst.unhindered i ∧ kst.calm ∧ kst.on i ∧
      (!(vget kst.me.ctx.g 3).void && !(vget kst.me.ctx.g 2).void) = true) ∧
    (∀ i ∈ [Instr.gdand (sl 0), .gdor (sl 0), .gdxor (sl 0)], (voidGuards kst).unhindered i ∧ (voidGuards kst).calm ∧ (voidGuards kst).on i ∧
      (vget (voidGuards kst).me.ctx.g 3).void = true) :=
  ⟨runs_all (p := fun i => decide ((kst.env i).tags = .valid)) (by decide +kernel), off_all (p := fun _ => true) (by decide +kernel),
   runs_all (p := fun _ => !(vget kst.me.ctx.g 3).void && !(vget kst.me.ctx.g 2).void) (by decide +kernel),
   runs_all (p := fun _ => (vget (voidGuards kst).me.ctx.g 3).void) (by decide +kernel)⟩

theorem witness_ChoiceResults :
    (∀ i ∈ [Instr.sel sc, .tagof { g := 0, d := 3, a := 1 }, .dflt sa, .rdctl { g := 0, d := 3, cr := 0x0FF }], kst.unhindered i ∧ kst.calm ∧ kst.on i ∧ true = true) ∧
    (∀ i ∈ [Instr.sread { g := 0, d := 3, a := 1 }], (inSlot kst .q).unhindered i ∧ (inSlot kst .q).calm ∧ (inSlot kst .q).on i ∧ true = true) ∧
    (∀ i ∈ [Instr.xstat { g := 0, sel := 3 }], (inSlot kst .x).unhindered i ∧ (inSlot kst .x).calm ∧ (inSlot kst .x).on i ∧ true = true) :=
  ⟨runs_all (p := fun _ => true) (by decide +kernel), runs_all (p := fun _ => true) (by decide +kernel), runs_all (p := fun _ => true) (by decide +kernel)⟩

/-- The kernel in slot C. -/
def kc : State := inSlot kst .c
/-- The kernel, a loop body of two bundles from 0x10 on active, one call made from 0x40, and target entry 1 prepared at cycle 5. -/
def looped : State :=
  (inSlot kst .c).mapMe fun t => { t with k := { t.k with cycle := 9, seq := { t.k.seq with
    loops := [{ first := 0x10, last := 0x18, n := 3, x := 0, frame := 0 }],
    targets := vset t.k.seq.targets 1 { addr := 0x20, p := some 5 } } } }
/-- The same, with one call made from 0x40 at cycle 2. -/
def called : State :=
  looped.mapMe fun t => { t with k := { t.k with seq := { t.k.seq with rets := [{ addr := 0x40, cycle := 2 }] } } }

theorem witness_Transfers :
    (∀ i ∈ [Instr.prepOffset { g := 0, e := 3, off := 0x20000 }, .prepRegister { g := 0, e := 1, a := 1 }, .br { g := 0, e := 1 }, .call { g := 0, e := 1 }],
      looped.unhindered i ∧ looped.calm ∧ looped.on i ∧ decide ((looped.env (.prepRegister { g := 0, e := 1, a := 1 })).a.tag = .valid) = true) ∧
    (∀ i ∈ [Instr.ret { g := 0 }], called.unhindered i ∧ called.calm ∧ called.on i ∧ decide (called.me.ctx.seq.rets.length = 1) = true) :=
  ⟨runs_all (p := fun _ => decide ((looped.env (.prepRegister { g := 0, e := 1, a := 1 })).a.tag = .valid)) (by decide +kernel),
   runs_all (p := fun _ => decide (called.me.ctx.seq.rets.length = 1)) (by decide +kernel)⟩

/-- loop with its count in n1. -/
def loopN : Instr := .loop { g := 0, k := false, cnt := 1, last := 1021 }

theorem witness_Loops :
    (∀ i ∈ [loopN], (withN kc 1 (validWord 1)).unhindered i ∧ (withN kc 1 (validWord 1)).calm ∧ (withN kc 1 (validWord 1)).on i ∧
      decide (((withN kc 1 (validWord 1)).env i).a = validWord 1) = true) ∧
    (∀ i ∈ [loopN, .loop { g := 0, k := true, cnt := 15, last := 1022 }], kc.unhindered i ∧ kc.calm ∧ kc.on i ∧
      decide ((kc.env loopN).a = validWord 0) = true) ∧
    (∀ i ∈ [Instr.lbrk { g := 0, lvl := 0 }], looped.unhindered i ∧ looped.calm ∧ looped.on i ∧ decide (looped.me.ctx.seq.frame.length = 1) = true) :=
  ⟨runs_all (p := fun i => decide (((withN kc 1 (validWord 1)).env i).a = validWord 1)) (by decide +kernel),
   runs_all (p := fun _ => decide ((kc.env loopN).a = validWord 0)) (by decide +kernel),
   runs_all (p := fun _ => decide (looped.me.ctx.seq.frame.length = 1)) (by decide +kernel)⟩

/-- A loop that is off, its count a register and a constant. -/
theorem witness_Loops_off : ∀ i ∈ [Instr.loop { g := 1, k := false, cnt := 1, last := 1021 }, .loop { g := 1, k := true, cnt := 15, last := 0 }],
    kc.unhindered i ∧ kc.calm ∧ ¬ kc.on i ∧ true = true :=
  off_all (p := fun _ => true) (by decide +kernel)

/-- The kernel in slot C with 3 in semaphore 63. -/
def sem3 : State := (inSlot kst .c).mapMe fun t => { t with sems := { t.sems with cnt := vset t.sems.cnt 63 3 } }
/-- semw of semaphore 63 with an immediate count. -/
def semw (n : BitVec 12) : Instr := .semwImmediate { g := 0, sem := 63, n := n }

theorem witness_Waits :
    (∀ i ∈ [semw 3, .semwRegister { g := 0, sem := 63, b := 1 }, .waitw { g := 0, a := 1 }], sem3.unhindered i ∧ sem3.calm ∧ sem3.on i ∧
      !sem3.me.priv.active && decide ((sem3.env (.semwRegister { g := 0, sem := 63, b := 1 })).b = validWord 0)) ∧
    ((semw 4).wordFault sem3.curExt.isSome = none ∧ sem3.me.priv.active = false ∧ boundCands sem3.me sem3.curHdr = [] ∧
      (checkAll (aloneBatch (semw 4) (slotSem (semw 4)) sem3) sem3).cands = [] ∧
      (checkAll (aloneBatch (semw 4) (slotSem (semw 4)) sem3) sem3).short.map Wait.cause = [6]) :=
  ⟨runs_all (p := fun _ => !sem3.me.priv.active && decide ((sem3.env (.semwRegister { g := 0, sem := 63, b := 1 })).b = validWord 0)) (by decide +kernel),
   by decide +kernel⟩

/-- The kernel in slot C with debug armed. -/
def armed : State := kc.mapMe fun t => t.mapPriv fun p => { p with debugArmed := true }

theorem witness_MarksAndEnds :
    (∀ i ∈ [Instr.stepMark { g := 0, imm := 0xFFFF }, .trap { g := 0, imm := 0xFFFF }, .sys { g := 0, imm := 1 }, .brk { g := 0, imm := 2 }, .endItem { g := 0 }],
      kc.unhindered i ∧ kc.calm ∧ kc.on i ∧ (!kc.me.priv.active && !kc.me.priv.debugArmed) = true) ∧
    (∀ i ∈ [Instr.brk { g := 0, imm := 2 }], armed.unhindered i ∧ armed.calm ∧ armed.on i ∧ (!armed.me.priv.active && armed.me.priv.debugArmed) = true) :=
  ⟨runs_all (p := fun _ => !kc.me.priv.active && !kc.me.priv.debugArmed) (by decide +kernel),
   runs_all (p := fun _ => !armed.me.priv.active && armed.me.priv.debugArmed) (by decide +kernel)⟩

/-- ctrap of n1 and n2. -/
def ctrap12 : Instr := .ctrap { g := 0, a := 1, b := 2 }

theorem witness_ChecksAndCommits :
    (∀ i ∈ [Instr.chkctl { g := 0, cmp := true }, .chkctl { g := 0, cmp := false }, .dblctl { g := 0, imm := 0xFFFF }, ctrap12, .commit { g := 0 }],
      kc.unhindered i ∧ kc.calm ∧ kc.on i ∧ (!kc.me.priv.active && decide (kc.me.seg.mode ≠ .decide) &&
        decide (kc.curHdr.rep = 0 ∧ kc.curHdr.wait = 0) && decide ((kc.env ctrap12).a = (kc.env ctrap12).b)) = true) ∧
    (∀ i ∈ [ctrap12], (withN kc 1 (validWord 1)).unhindered i ∧ (withN kc 1 (validWord 1)).calm ∧ (withN kc 1 (validWord 1)).on i ∧
      decide (((withN kc 1 (validWord 1)).env i).a = validWord 1 ∧ ((withN kc 1 (validWord 1)).env i).b = validWord 0) = true) :=
  ⟨runs_all (p := fun _ => !kc.me.priv.active && decide (kc.me.seg.mode ≠ .decide) &&
        decide (kc.curHdr.rep = 0 ∧ kc.curHdr.wait = 0) && decide ((kc.env ctrap12).a = (kc.env ctrap12).b)) (by decide +kernel),
   runs_all (p := fun i => decide (((withN kc 1 (validWord 1)).env i).a = validWord 1 ∧ ((withN kc 1 (validWord 1)).env i).b = validWord 0)) (by decide +kernel)⟩

/-- The kernel with n1 VOID, and with n1 a POISON word of frame 3. -/
def voidN1 : State := withN kc 1 zeroVoid
def badN1 : BadWord := { unit := 6, place := 0x30040 }
def poisonIn (s : State) : State := withN s 1 { v := 0, tag := .poison badN1 }

theorem witness_ChecksAndCommits_tags : (∀ i ∈ [ctrap12], voidN1.unhindered i ∧ voidN1.calm ∧ voidN1.on i ∧
      (!voidN1.me.priv.active && decide (voidN1.me.seg.mode ≠ .decide) && decide ((voidN1.env i).a.tag.code ≠ (voidN1.env i).b.tag.code)) = true) ∧
    (∀ i ∈ [ctrap12], (poisonIn kc).unhindered i ∧ (poisonIn kc).calm ∧ (poisonIn kc).on i ∧
      decide (((poisonIn kc).env i).a.tag.code ≠ ((poisonIn kc).env i).b.tag.code) = true) :=
  ⟨runs_all (p := fun i => !voidN1.me.priv.active && decide (voidN1.me.seg.mode ≠ .decide) && decide ((voidN1.env i).a.tag.code ≠ (voidN1.env i).b.tag.code))
     (by decide +kernel),
   runs_all (p := fun i => decide (((poisonIn kc).env i).a.tag.code ≠ ((poisonIn kc).env i).b.tag.code)) (by decide +kernel)⟩

/-- The handler in slot C, CTX_STATE 0b01. -/
def hc : State := inSlot hst .c
/-- The handler with a CTX_STATE of its own. -/
def withCtxState (s : State) (v : BitVec 2) : State := s.mapMe fun t => t.mapPriv fun p => { p with ctxState := v }
/-- The handler in slot Q, CTX_STATE 0b10. -/
def hq : State := withCtxState (inSlot hst .q) 2

theorem witness_RegisterWrites :
    (∀ i ∈ [Instr.wrctl { g := 0, cr := 0x110, a := 1 }, .setctl { g := 0, cr := 0x150, a := 1 }, .clrctl { g := 0, cr := 0x18B, a := 1 }],
      hc.unhindered i ∧ hc.calm ∧ hc.on i ∧ (hc.me.priv.active && decide ((hc.env i).a.tag = .valid)) = true) ∧
    ((writableBits 0x110).isSome && (writableBits 0x150).isSome && (writableBits 0x18B).isSome && decide ((hc.part (hc.partOf hc.cur)).xl.root % 4 = 0)) = true ∧
    (∀ i ∈ [Instr.setctl { g := 0, cr := 0x150, a := 1 }], (withN hc 1 (validWord 3)).unhindered i ∧ (withN hc 1 (validWord 3)).calm ∧
      (withN hc 1 (validWord 3)).on i ∧ decide (((withN hc 1 (validWord 3)).env i).a.v &&& 3 = 3) = true) :=
  ⟨runs_all (p := fun i => hc.me.priv.active && decide ((hc.env i).a.tag = .valid)) (by decide +kernel), by decide +kernel,
   runs_all (p := fun i => decide (((withN hc 1 (validWord 3)).env i).a.v &&& 3 = 3)) (by decide +kernel)⟩

theorem witness_SystemOperations :
    (∀ i ∈ [Instr.rft { g := 0 }], hc.unhindered i ∧ hc.calm ∧ hc.on i ∧ (hc.me.priv.active && !hc.me.priv.parked && decide (hc.me.priv.ctxState = 1) &&
        hc.me.seg.fatal.isNone && decide (hc.curHdr.rep = 0 ∧ hc.curHdr.wait = 0) &&
        (hc.me.run.map fun r => decide (hc.rankPlace r = some (.onTile 0))).getD false) = true) ∧
    (∀ i ∈ [Instr.xlinv { g := 0, a := 1 }, .ctxsave { g := 0, a := 1 }], hc.unhindered i ∧ hc.calm ∧ hc.on i ∧
      (hc.me.priv.active && decide ((hc.env i).a.tag = .valid) && decide (invalidation (hc.env i).a.v ≠ .bad) && decide (hc.me.priv.ctxState = 1)) = true) ∧
    (∀ i ∈ [Instr.ectlBayout { g := 0, a := 1, b := 63 }, .ectlBayin { g := 0, a := 1, b := 63 }, .ectlSpout { g := 0, a := 1, b := 2 },
        .ectlSpin { g := 0, a := 1, b := 2 }, .ectlAccout { g := 0, a := 1, b := 63 }, .ectlAccin { g := 0, a := 1, b := 63 }],
      hq.unhindered i ∧ hq.calm ∧ hq.on i ∧ (hq.me.priv.active && decide ((hq.env i).joined = .valid)) = true) :=
  ⟨runs_all (p := fun _ => hc.me.priv.active && !hc.me.priv.parked && decide (hc.me.priv.ctxState = 1) &&
        hc.me.seg.fatal.isNone && decide (hc.curHdr.rep = 0 ∧ hc.curHdr.wait = 0) &&
        (hc.me.run.map fun r => decide (hc.rankPlace r = some (.onTile 0))).getD false) (by decide +kernel),
   runs_all (p := fun i => hc.me.priv.active && decide ((hc.env i).a.tag = .valid) && decide (invalidation (hc.env i).a.v ≠ .bad) && decide (hc.me.priv.ctxState = 1)) (by decide +kernel),
   runs_all (p := fun i => hq.me.priv.active && decide ((hq.env i).joined = .valid)) (by decide +kernel)⟩

/-! ### An image that a ctxload accepts -/

theorem length_leBytes (k n : Nat) : (leBytes k n).length = k := by
  induction k generalizing n with
  | zero => rfl
  | succ k ih => simp [leBytes, ih]

theorem leNat_leBytes (k n : Nat) (h : n < 256 ^ k) : leNat (leBytes k n) = n := by
  induction k generalizing n with
  | zero => simp [leBytes, leNat]; omega
  | succ k ih =>
    have h1 : n / 256 < 256 ^ k := by rw [Nat.div_lt_iff_lt_mul (by decide)]; rw [Nat.pow_succ] at h; omega
    simp only [leBytes, leNat, ih _ h1, BitVec.toNat_ofNat]
    omega

theorem leNat_replicate (n : Nat) : leNat (List.replicate n 0) = 0 := by
  induction n with
  | zero => rfl
  | succ n ih => simp only [List.replicate_succ, leNat, ih]; rfl

theorem crcBits_lt (k c : Nat) (h : c < 2 ^ 32) : crcBits k c < 2 ^ 32 := by
  induction k generalizing c with
  | zero => exact h
  | succ k ih =>
    rw [crcBits]
    apply ih
    split
    · exact Nat.xor_lt_two_pow (by omega) (by decide)
    · omega

theorem crcBytes_lt (bs : List Byte) (c : Nat) (h : c < 2 ^ 32) : crcBytes bs c < 2 ^ 32 := by
  induction bs generalizing c with
  | nil => exact h
  | cons b bs ih =>
    have hb : b.toNat < 2 ^ 32 := Nat.lt_trans b.isLt (by decide)
    rw [crcBytes]
    exact ih _ (crcBits_lt _ _ (Nat.xor_lt_two_pow h hb))

theorem crc32_lt (bs : List Byte) : crc32 bs < 2 ^ 32 := Nat.xor_lt_two_pow (crcBytes_lt _ _ (by decide)) (by decide)

/-- What stands before the zeros of an image of zeros: MAGIC, VERSION, and at 0x38 a checksum. -/
def imageHead (c : Nat) : List Byte := leBytes 8 0x143544B31 ++ List.replicate 48 0 ++ leBytes 4 c

/-- The bytes of that image. -/
@[irreducible] def zeroImage (c : Nat) : List Byte := imageHead c ++ List.replicate 61380 0

/-- The checksum of its opaque regions, which are zero. -/
def zeroSum : Nat := crc32 (List.replicate 12064 0)

theorem length_imageHead (c : Nat) : (imageHead c).length = 60 := by simp [imageHead, length_leBytes]

theorem zeroImage_slice (c off n : Nat) (h : 60 ≤ off) : ((zeroImage c).drop off).take n = List.replicate (min n (61380 - (off - 60))) 0 := by
  have h1 : (imageHead c).drop off = [] := List.drop_eq_nil_of_le (by rw [length_imageHead]; exact h)
  unfold zeroImage
  rw [List.drop_append, h1, List.nil_append, length_imageHead, List.drop_replicate, List.take_replicate]

theorem zeroImage_head (c off n : Nat) (h : off + n ≤ 60) : ((zeroImage c).drop off).take n = ((imageHead c).drop off).take n := by
  have hl := length_imageHead c
  unfold zeroImage
  rw [List.drop_append_of_le_length (by omega), List.take_append_of_le_length (by rw [List.length_drop]; omega)]

theorem zeroImage_numHead (c off n : Nat) (h : off + n ≤ 60) : imgNat (zeroImage c) off n = imgNat (imageHead c) off n := by
  show leNat (((zeroImage c).drop off).take n) = _
  rw [zeroImage_head c off n h]; rfl

/-- A number before the checksum. -/
theorem zeroImage_numPre (c off n : Nat) (h : off + n ≤ 56) :
    imgNat (zeroImage c) off n = imgNat (leBytes 8 0x143544B31 ++ List.replicate 48 0) off n := by
  have hl : (leBytes 8 0x143544B31 ++ List.replicate 48 (0 : Byte)).length = 56 := by
    rw [List.length_append, length_leBytes, List.length_replicate]
  show leNat (((zeroImage c).drop off).take n) = _
  rw [zeroImage_head c off n (by omega)]
  unfold imageHead
  rw [List.drop_append_of_le_length (by omega), List.take_append_of_le_length (by rw [List.length_drop]; omega)]
  rfl

theorem zeroImage_num (c off n : Nat) (h : 60 ≤ off) : imgNat (zeroImage c) off n = 0 := by
  show leNat (((zeroImage c).drop off).take n) = 0
  rw [zeroImage_slice c off n h, leNat_replicate]

theorem zeroImage_none (c off n : Nat) (h : 60 ≤ off) : someByte (zeroImage c) off n = false := by
  unfold someByte
  rw [zeroImage_slice c off n h]
  simp

theorem zeroImage_opaque (c : Nat) :
    (opaqueRegions.map fun r => ((zeroImage c).drop r.1).take r.2).flatten = List.replicate 12064 0 := by
  simp only [opaqueRegions, List.map_cons, List.map_nil, List.flatten_cons, List.flatten_nil, zeroImage_slice c _ _ (by decide : 60 ≤ 0x2940),
    zeroImage_slice c _ _ (by decide : 60 ≤ 0x2A60), zeroImage_slice c _ _ (by decide : 60 ≤ 0x2C60), zeroImage_slice c _ _ (by decide : 60 ≤ 0x3560),
    zeroImage_slice c _ _ (by decide : 60 ≤ 0x3760), zeroImage_slice c _ _ (by decide : 60 ≤ 0x4960), List.append_nil, List.replicate_append_replicate]
  exact congrArg (fun n => List.replicate n 0) (by decide)

theorem zeroImage_snapshot (c off : Nat) (h : 60 ≤ off) : badSnapshot (zeroImage c) off = false := by
  unfold badSnapshot
  simp only [zeroImage_num c (off + 0x808) 8 (by omega), zeroImage_none c (off + 0x810) 0x30 (by omega)]
  rfl

theorem zeroImage_regions (c : Nat) : badRegion (zeroImage c) = false := by
  have h6 : imgNat (zeroImage c) 6 1 = 0 := (zeroImage_numPre c 6 1 (by decide)).trans (by decide +kernel)
  have h7 : imgNat (zeroImage c) 7 1 = 0 := (zeroImage_numPre c 7 1 (by decide)).trans (by decide +kernel)
  have h20 : imgNat (zeroImage c) 0x20 8 = 0 := (zeroImage_numPre c 0x20 8 (by decide)).trans (by decide +kernel)
  have hs : (fun k => badSnapshot (zeroImage c) (0x6100 + 0x840 * k)) = fun _ => false :=
    funext fun k => zeroImage_snapshot c _ (by omega)
  have hv : (fun k => badTags (imgNat (zeroImage c) (0x240 + 0x88 * k + 0x80) 8) 32 ||
      badTags (imgNat (zeroImage c) (0xAC0 + 0x88 * k + 0x80) 8) 32) = fun _ => false :=
    funext fun k => by
      rw [zeroImage_num c (0x240 + 0x88 * k + 0x80) 8 (by omega), zeroImage_num c (0xAC0 + 0x88 * k + 0x80) 8 (by omega)]; decide
  unfold badRegion
  simp only [h6, h7, h20, hs, hv, zeroImage_num c 0x140 8 (by decide), zeroImage_num c 0x1C8 4 (by decide), zeroImage_none c 0x1CC 4 (by decide),
    zeroImage_none c 0x1D4 4 (by decide), zeroImage_none c 0x218 0x28 (by decide), zeroImage_none c 0x3D 3 (by decide),
    zeroImage_none c 0x60A2 6 (by decide), zeroImage_num c 0x60B8 8 (by decide), zeroImage_none c 0x60C0 0x40 (by decide),
    zeroImage_none c 0xE500 0xB00 (by decide), zeroImage_none c (0x1340 + 16 * min 0 64) (0x400 - 16 * min 0 64) (by decide),
    zeroImage_none c (0x1740 + 144 * min 0 32) (0x1200 - 144 * min 0 32) (by decide)]
  rfl

theorem zeroImage_loads : loadFault (zeroImage zeroSum) 0 = none := by
  have h0 : imgNat (zeroImage zeroSum) 0 4 = 0x43544B31 := (zeroImage_numPre zeroSum 0 4 (by decide)).trans (by decide +kernel)
  have h4 : imgNat (zeroImage zeroSum) 4 2 = 1 := (zeroImage_numPre zeroSum 4 2 (by decide)).trans (by decide +kernel)
  have h8 : imgNat (zeroImage zeroSum) 8 8 = 0 := (zeroImage_numPre zeroSum 8 8 (by decide)).trans (by decide +kernel)
  have hc : imgNat (zeroImage zeroSum) 0x38 4 = zeroSum :=
    (zeroImage_numHead zeroSum 0x38 4 (by decide)).trans (leNat_leBytes 4 zeroSum (crc32_lt _))
  unfold loadFault
  simp only [h0, h4, h8, hc, zeroImage_opaque, zeroImage_regions]
  rw [if_neg (by decide), if_neg (by decide), if_neg (by decide), if_neg (fun h => h rfl), if_neg (by decide)]

/-- The handler with that image in the save bay, its checksum field any number, and CTX_STATE 0b10. -/
def imaged (c : Nat) : State :=
  withCtxState (hc.mapMe fun t => { t with spad := { bytes := writeCells [] Config.saveBay (imageHead c), poison := [] } }) 2

theorem readCells_writeCells_nil (a n : Nat) (bs : List Byte) :
    readCells (writeCells [] a bs) a (bs.length + n) = bs ++ List.replicate n 0 := by
  have hl : (bs ++ List.replicate n (0 : Byte)).length = bs.length + n := by rw [List.length_append, List.length_replicate]
  have hr : (readCells (writeCells [] a bs) a (bs.length + n)).length = bs.length + n := by
    unfold readCells; rw [List.length_map, List.length_range]
  refine List.ext_getElem (hr.trans hl.symm) fun k h1 _ => ?_
  rw [hr] at h1
  simp only [readCells, List.getElem_map, List.getElem_range]
  rw [readCell_writeCells [] _ _ (show cellsWf 0 [] = true from rfl) (Nat.zero_le _)]
  by_cases hx : k < bs.length
  · rw [if_pos (by omega), List.getElem_append_left hx, Nat.add_sub_cancel_left, List.getD_eq_getElem?_getD, List.getElem?_eq_getElem hx]; rfl
  · rw [if_neg (by omega), List.getElem_append_right (by omega), List.getElem_replicate]; rfl

theorem imaged_bay (c : Nat) : (imaged c).me.spad.read Config.saveBay 0xF000 = zeroImage c := by
  have h := readCells_writeCells_nil Config.saveBay 61380 (imageHead c)
  rw [length_imageHead] at h
  unfold zeroImage
  exact h

theorem imaged_runs (c : Nat) : ([Instr.ctxload { g := 0, a := 1 }].all fun i => runsB (imaged c) i && ((imaged c).me.priv.active &&
    decide (((imaged c).env i).a = validWord 0) && decide (2 ≤ (imaged c).me.priv.ctxState.toNat))) = true := by rfl

theorem witness_ctxload : (∀ i ∈ [Instr.ctxload { g := 0, a := 1 }], (imaged zeroSum).unhindered i ∧ (imaged zeroSum).calm ∧ (imaged zeroSum).on i ∧
      ((imaged zeroSum).me.priv.active && decide (((imaged zeroSum).env i).a = validWord 0) && decide (2 ≤ (imaged zeroSum).me.priv.ctxState.toNat)) = true) ∧
    loadFault ((imaged zeroSum).me.spad.read Config.saveBay 0xF000) 0 = none :=
  ⟨runs_all (imaged_runs zeroSum), by rw [imaged_bay, zeroImage_loads]⟩

/-- The kernel in slot M0, n1 an address of the scratchpad's last line. -/
def km : State := withN (inSlot kst .m0) 1 (validWord 0x5EFF80)
/-- A register of the kernel VOID. -/
def voidN (s : State) (k : Nat) : State := withN s k zeroVoid
/-- Format M with the address in n1 and an immediate offset. -/
def ma : FormMA := { g := 0, bm := 1, p := false, d := 3, a := 1, b := 1 }
/-- Format M of a vector access at n1, with a stride or an offset of zero. -/
def mv : FormMA := { g := 0, bm := 1, p := false, d := 3, a := 1, b := 0 }
/-- Format M with an index vector, and of the local atomics. -/
def mx : FormDAB := { g := 0, d := 3, a := 1, b := 2 }

theorem witness_ScalarLoads : ∀ i ∈ [Instr.ldS8 ma, .ldZ8 ma, .ldS16 ma, .ldZ16 ma, .ldS32 ma, .ldZ32 ma, .ldZ64 ma],
    km.unhindered i ∧ km.calm ∧ km.on i ∧ ((loadShape i).isSome && decide ((km.env i).address.tag = .valid)) = true :=
  runs_all (p := fun i => (loadShape i).isSome && decide ((km.env i).address.tag = .valid)) (by decide +kernel)

theorem witness_ScalarStores :
    (∀ i ∈ [Instr.stZ8 ma, .stZ16 ma, .stZ32 ma, .stZ64 ma], km.unhindered i ∧ km.calm ∧ km.on i ∧ ((storeShape i).isSome && km.me.spad.wf &&
      decide ((km.env i).address.tag = .valid) && decide ((km.env i).d.tag = .valid)) = true) ∧
    (∀ i ∈ [Instr.stZ8 ma, .stZ16 ma, .stZ32 ma, .stZ64 ma], (voidN km 1).unhindered i ∧ (voidN km 1).calm ∧ (voidN km 1).on i ∧
      decide (((voidN km 1).env i).address.tag = .void) = true) ∧
    (∀ i ∈ [Instr.stZ8 ma, .stZ64 ma], (voidN km 3).unhindered i ∧ (voidN km 3).calm ∧ (voidN km 3).on i ∧
      (decide (((voidN km 3).env i).address.tag = .valid) && decide (((voidN km 3).env i).d.tag = .void)) = true) :=
  ⟨runs_all (p := fun i => (storeShape i).isSome && km.me.spad.wf && decide ((km.env i).address.tag = .valid) && decide ((km.env i).d.tag = .valid)) (by decide +kernel),
   runs_all (p := fun i => decide (((voidN km 1).env i).address.tag = .void)) (by decide +kernel),
   runs_all (p := fun i => decide (((voidN km 3).env i).address.tag = .valid) && decide (((voidN km 3).env i).d.tag = .void)) (by decide +kernel)⟩

/-- Whether the lanes of a vector store do not overlap and neither address nor datum is POISON. -/
def storeLanes (s : State) (i : Instr) : Bool :=
  match vectorStoreShape s i with
  | none => false
  | some f => (List.range 32).all fun l => !(f l).2.isPoison && !((s.env i).lane .D l).tag.isPoison &&
      (List.range 32).all fun m => decide (m ≤ l) || decide ((f l).1 + 4 ≤ (f m).1) || decide ((f m).1 + 4 ≤ (f l).1)

/-- n1 the last vector of the scratchpad, v2 the offsets of its lanes. -/
def kv : State := withSpad km 0x5EFF80 [1, 2, 3] |>.mapMe fun t => { t with vec := { t.vec with v := vset t.vec.v 2 (vmk 32 fun l => { v := BitVec.ofNat 32 (4 * l), tag := .valid }) } }

theorem witness_VectorMemory :
    (∀ i ∈ [Instr.vld mv, .vlds mv, .vldx mx], kv.unhindered i ∧ kv.calm ∧ kv.on i ∧ (vectorLoadShape kv i).isSome = true) ∧
    (∀ i ∈ [Instr.vst mv, .vsts { mv with b := 1 }, .vstx mx], kv.unhindered i ∧ kv.calm ∧ kv.on i ∧ (kv.me.spad.wf && storeLanes kv i) = true) :=
  ⟨runs_all (p := fun i => (vectorLoadShape kv i).isSome) (by decide +kernel), runs_all (p := fun i => kv.me.spad.wf && storeLanes kv i) (by decide +kernel)⟩

theorem witness_LocalAtomics : ∀ i ∈ [Instr.ladd mx, .lminS64 mx, .lminZ64 mx, .lmaxS64 mx, .lmaxZ64 mx, .lxch mx, .lcas mx],
    kv.unhindered i ∧ kv.calm ∧ kv.on i ∧ ((localAtomic i).isSome && kv.me.spad.wf && decide ((kv.env i).tags = .valid) &&
      !kv.me.spad.poison.contains (0x5EFF80 / 8)) = true :=
  runs_all (p := fun i => (localAtomic i).isSome && kv.me.spad.wf && decide ((kv.env i).tags = .valid) && !kv.me.spad.poison.contains (0x5EFF80 / 8)) (by decide +kernel)

/-- A shape of f32 elements in one segment of 40. -/
def shape40 : Shape := { fmt := 0, rowLen := 1, ends := [40] }
/-- The kernel in a slot, h0 and h7 bound to that shape, n1 the address of a record of one segment. -/
def shaped (sl : Slot) : State :=
  (withSpad (withN (inSlot kst sl) 1 (validWord 0x100)) 0x100 ([0, 1] ++ List.replicate 2 0 ++ [1] ++ List.replicate 3 0 ++ [40])).mapMe fun t =>
    { t with shapes := vset (vset t.shapes 7 (some shape40)) 0 (some shape40) }

theorem witness_ShapeOperations :
    (∀ i ∈ [Instr.hbind { g := 0, h := 1, a := 1 }, .hunbind { g := 0, h := 7 }], (shaped .m0).unhindered i ∧ (shaped .m0).calm ∧ (shaped .m0).on i ∧
      (!(shaped .m0).me.priv.active && decide (((shaped .m0).env (.hbind { g := 0, h := 1, a := 1 })).a = validWord 0x100) &&
        decide ((shaped .m0).me.spad.readLe 0x104 4 % 1024 = 1) && !(shaped .m0).me.spad.anyPoison 0x100 12) = true) ∧
    (∀ i ∈ [Instr.vldr { g := 0, h := 7, d := 3, a := 1, b := 2 }], (shaped .m0).unhindered i ∧ (shaped .m0).calm ∧ (shaped .m0).on i ∧
      (decide (vget (shaped .m0).me.shapes 7 = some shape40) && decide (((shaped .m0).env i).a.tag = .valid) && decide (((shaped .m0).env i).b.tag = .valid)) = true) :=
  ⟨runs_all (p := fun _ => !(shaped .m0).me.priv.active && decide (((shaped .m0).env (.hbind { g := 0, h := 1, a := 1 })).a = validWord 0x100) &&
        decide ((shaped .m0).me.spad.readLe 0x104 4 % 1024 = 1) && !(shaped .m0).me.spad.anyPoison 0x100 12) (by decide +kernel),
   runs_all (p := fun i => decide (vget (shaped .m0).me.shapes 7 = some shape40) && decide (((shaped .m0).env i).a.tag = .valid) &&
     decide (((shaped .m0).env i).b.tag = .valid)) (by decide +kernel)⟩

/-- The kernel in slot V0 with f32 values 1.5 and 2 in every lane of v1 and v2, and small numbers in the lanes of v3; m1 true everywhere. -/
def vst0 : State := (shaped .v0).mapMe fun t => { t with vec := { t.vec with
  v := vset (vset (vset t.vec.v 1 (vrep 32 { v := 0x3FC00000, tag := .valid })) 2 (vrep 32 { v := 0x40000000, tag := .valid })) 3
    (vmk 32 fun l => { v := BitVec.ofNat 32 l, tag := .valid }),
  m := vset t.vec.m 1 { vals := BitVec.allOnes 32, voids := 0 } } }
/-- Format VA of v1, v2 and v3. -/
def va : FormVA := { g := 0, m := 0, d := 3, a := 1, b := 2 }
/-- A floating operation of v1, v2 and v3 in a type. -/
def vf (t : BitVec 2) : FormVF := { t := t, g := 0, m := 1, d := 3, a := 1, b := 2 }

theorem witness_LaneResults : ∀ i ∈ [Instr.vmov { g := 0, m := 0, d := 3, a := 1 }, .vand va, .vor va, .vxor va, .vshl va, .vshrZ32 va, .vshrS32 va, .vaddS32 va,
      .vsubS32 va, .vmulS32 va, .vaddsS32 va, .vminS32 va, .vminZ32 va, .vmaxS32 va, .vmaxZ32 va, .vrcpF32 { g := 0, m := 0, d := 3, a := 1 },
      .vrsqF32 { g := 0, m := 0, d := 3, a := 1 }, .vaddF (vf 0), .vsubF (vf 1), .vmulF (vf 2), .vminF (vf 0), .vmaxF (vf 1), .vfma (vf 2), .vfnma (vf 0)],
    vst0.unhindered i ∧ vst0.calm ∧ vst0.on i ∧ ((laneResult i).isSome && i.mask.isSome) = true :=
  runs_all (p := fun i => (laneResult i).isSome && i.mask.isSome) (by decide +kernel)

theorem witness_MaskResults : ∀ i ∈ [Instr.vcmpS32 { g := 0, m := 0, cond := 5, j := 3, a := 1, b := 2 }, .vcmpZ32 { g := 0, m := 0, cond := 0, j := 1, a := 1, b := 2 },
      .vcmpF { t := 2, g := 0, m := 1, cond := 2, j := 2, a := 1, b := 2 }], vst0.unhindered i ∧ vst0.calm ∧ vst0.on i ∧
    ((List.range 32).all fun l => !(((vst0.env i).lane .A l).tag.join ((vst0.env i).lane .B l).tag).isPoison) = true :=
  runs_all (p := fun i => (List.range 32).all fun l => !(((vst0.env i).lane .A l).tag.join ((vst0.env i).lane .B l).tag).isPoison) (by decide +kernel)

/-- Every lane of A and of B is VALID under m0. -/
def lanesValid (s : State) (i : Instr) : Bool :=
  (List.range 32).all fun l => decide (((s.env i).lane .A l).tag = .valid) && decide (((s.env i).lane .B l).tag = .valid) &&
    (vget s.me.vec.m 0).vals.getLsbD l && !(vget s.me.vec.m 0).voids.getLsbD l

theorem witness_LaneMoves :
    (∀ i ∈ [Instr.vsel va, .vperm va, .vbcast va], vst0.unhindered i ∧ vst0.calm ∧ vst0.on i ∧ lanesValid vst0 i = true) ∧
    (∀ i ∈ [Instr.vext { va with b := 16 }, .vins { va with a := 17, b := 16 }], vst0.unhindered i ∧ vst0.calm ∧ vst0.on i ∧
      (decide ((vst0.env i).b.tag = .valid) && decide ((vst0.env (.vext { va with b := 16 })).lane .A 0 = { v := 0x3FC00000, tag := .valid }) &&
        decide ((vst0.env (.vins { va with a := 17, b := 16 })).a.tag = .valid)) = true) ∧
    (∀ i ∈ [Instr.vchk { g := 0, m := 0, a := 1, b := 1 }], vst0.unhindered i ∧ vst0.calm ∧ vst0.on i ∧
      (decide (vst0.me.seg.mode ≠ .decide) && (List.range 32).all fun l => decide ((vst0.env i).lane .A l = (vst0.env i).lane .B l)) = true) :=
  ⟨runs_all (p := lanesValid vst0) (by decide +kernel),
   runs_all (p := fun i => decide ((vst0.env i).b.tag = .valid) && decide ((vst0.env (.vext { va with b := 16 })).lane .A 0 = { v := 0x3FC00000, tag := .valid }) &&
        decide ((vst0.env (.vins { va with a := 17, b := 16 })).a.tag = .valid)) (by decide +kernel),
   runs_all (p := fun i => decide (vst0.me.seg.mode ≠ .decide) && (List.range 32).all fun l => decide ((vst0.env i).lane .A l = (vst0.env i).lane .B l)) (by decide +kernel)⟩

/-- A vchk of v1 and v2, whose lanes differ everywhere. -/
theorem witness_LaneMoves_differs : ∀ i ∈ [Instr.vchk { g := 0, m := 0, a := 1, b := 2 }], vst0.unhindered i ∧ vst0.calm ∧ vst0.on i ∧
    (!vst0.me.priv.active && decide (vst0.me.seg.mode ≠ .decide) && (vget vst0.me.vec.m 0).vals.getLsbD 31 && !(vget vst0.me.vec.m 0).voids.getLsbD 31 &&
      decide (((vst0.env i).lane .A 31).tag = .valid ∧ ((vst0.env i).lane .B 31).tag = .valid ∧ ((vst0.env i).lane .A 31).v ≠ ((vst0.env i).lane .B 31).v)) = true :=
  runs_all (p := fun i => !vst0.me.priv.active && decide (vst0.me.seg.mode ≠ .decide) && (vget vst0.me.vec.m 0).vals.getLsbD 31 && !(vget vst0.me.vec.m 0).voids.getLsbD 31 &&
      decide (((vst0.env i).lane .A 31).tag = .valid ∧ ((vst0.env i).lane .B 31).tag = .valid ∧ ((vst0.env i).lane .A 31).v ≠ ((vst0.env i).lane .B 31).v)) (by decide +kernel)

/-- vcvt of v1 for a pair. -/
def cvtIn (g : BitVec 4) (m : BitVec 3) (pair : BitVec 5) (sat : Bool) : Instr :=
  .vcvt { r := 3, g := g, m := m, d := 3, a := 1, pair := pair, sat := sat }
/-- vcvt of v1 under g0 and m0. -/
def cvt (pair : BitVec 5) (sat : Bool) : Instr := cvtIn 0 0 pair sat

theorem witness_Conversions :
    (∀ i ∈ [cvt 0 true, cvt 6 false, cvt 8 true, cvt 11 false, cvtIn 0 1 12 true, cvt 17 true, cvt 22 false, cvtIn 0 7 25 true],
      vst0.unhindered i ∧ vst0.calm ∧ vst0.on i ∧ true = true) ∧
    (∀ i ∈ [cvtIn 1 0 0 true, cvtIn 1 7 25 false], vst0.unhindered i ∧ vst0.calm ∧ ¬ vst0.on i ∧ true = true) ∧
    26 ≤ (26 : BitVec 5).toNat ∧ 26 ≤ (31 : BitVec 5).toNat :=
  ⟨runs_all (p := fun _ => true) (by decide +kernel), off_all (p := fun _ => true) (by decide +kernel), by decide⟩

/-- R137: a pair of Table 5.8 beyond the last one fails its word check, the last one does not. -/
theorem test_pairs : ((cvt 26 false).wordFault false).isSome = true ∧ (cvt 25 false).wordFault false = none := by decide +kernel

/-- A table descriptor at 0x200: X0 0, table of two entries at 0x210. -/
def tabled : State := withN (withSpad vst0 0x200 ([0, 0, 0, 0, 0, 0, 1, 0x20] ++ [0x10, 2, 0, 0])) 1 (validWord 0x200)

theorem witness_Interpolation : ∀ i ∈ [Instr.vitpF32 { va with b := 1 }, .vitpBf16 { va with b := 1 }], tabled.unhindered i ∧ tabled.calm ∧ tabled.on i ∧
    (decide ((tabled.env i).b = validWord 0x200) && decide (0x210 ≤ tabled.me.img.scratch) && !tabled.me.spad.anyPoison 0x200 16 &&
      (match vitpIndex (laneValue (.flt .f32) ((tabled.env i).lane .A 0).v) (decodeFmt .f32 (tabled.me.spad.readLe 0x200 4))
          (sextN (tabled.me.spad.readLe 0x204 4) 8) (tabled.me.spad.readLe 0x204 4 / 2 ^ 16 % 4096) ((tabled.me.spad.readLe 0x204 4).testBit 28)
          ((tabled.me.spad.readLe 0x204 4).testBit 29) with
        | some (j, _) => decide (tabled.me.spad.readLe 0x208 4 / 8 * 8 + 8 * j + 8 ≤ tabled.me.img.scratch) &&
            !tabled.me.spad.anyPoison (tabled.me.spad.readLe 0x208 4 / 8 * 8 + 8 * j) 8
        | none => false) && !(laneValue (.flt .f32) ((tabled.env i).lane .A 0).v).isNan && !(decodeFmt .f32 (tabled.me.spad.readLe 0x200 4)).isNan) = true :=
  runs_all (p := fun i => decide ((tabled.env i).b = validWord 0x200) && decide (0x210 ≤ tabled.me.img.scratch) && !tabled.me.spad.anyPoison 0x200 16 &&
      (match vitpIndex (laneValue (.flt .f32) ((tabled.env i).lane .A 0).v) (decodeFmt .f32 (tabled.me.spad.readLe 0x200 4))
          (sextN (tabled.me.spad.readLe 0x204 4) 8) (tabled.me.spad.readLe 0x204 4 / 2 ^ 16 % 4096) ((tabled.me.spad.readLe 0x204 4).testBit 28)
          ((tabled.me.spad.readLe 0x204 4).testBit 29) with
        | some (j, _) => decide (tabled.me.spad.readLe 0x208 4 / 8 * 8 + 8 * j + 8 ≤ tabled.me.img.scratch) &&
            !tabled.me.spad.anyPoison (tabled.me.spad.readLe 0x208 4 / 8 * 8 + 8 * j) 8
        | none => false) && !(laneValue (.flt .f32) ((tabled.env i).lane .A 0).v).isNan && !(decodeFmt .f32 (tabled.me.spad.readLe 0x200 4)).isNan) (by decide +kernel)

/-- A descriptor of which the last byte lies at SCRATCH_BYTES. -/
def tabledOut : State := withN vst0 1 (validWord (BitVec.ofNat 64 (vst0.me.img.scratch - 16 + 16)))

theorem witness_Interpolation_outside : ∀ i ∈ [Instr.vitpF32 { va with b := 1 }, .vitpBf16 { va with b := 1 }],
    tabledOut.unhindered i ∧ tabledOut.calm ∧ tabledOut.on i ∧ (decide ((tabledOut.env i).b.tag = .valid) &&
      decide (tabledOut.me.img.scratch < (tabledOut.env i).b.v.toNat / 16 * 16 + 16)) = true :=
  runs_all (p := fun i => decide ((tabledOut.env i).b.tag = .valid) &&
      decide (tabledOut.me.img.scratch < (tabledOut.env i).b.v.toNat / 16 * 16 + 16)) (by decide +kernel)

/-- A segmented operation on h0, its segment and offset in n2: 8 elements of the 40 are left from offset 32 on. -/
def hs : FormHDAB := { g := 0, h := 0, d := 3, a := 1, b := 2 }
/-- The kernel whose n2 names segment 0 from element 32 on. -/
def seg32 : State := withN vst0 2 (validWord (BitVec.ofNat 64 (32 * 2 ^ 32)))

theorem witness_SegmentedResults : ∀ i ∈ [Instr.vssum hs, .vsmin hs, .vsmax hs, .vsmean hs, .vsvar hs, .vsscan hs, .vssmx hs],
    seg32.unhindered i ∧ seg32.calm ∧ seg32.on i ∧ ((segmentedResult i).isSome && decide (vget seg32.me.shapes 0 = some shape40) &&
      decide ((seg32.env i).b.tag = .valid) && (List.range 8).all fun l => decide (((seg32.env i).lane .A l).tag = .valid)) = true :=
  runs_all (p := fun i => (segmentedResult i).isSome && decide (vget seg32.me.shapes 0 = some shape40) &&
      decide ((seg32.env i).b.tag = .valid) && (List.range 8).all fun l => decide (((seg32.env i).lane .A l).tag = .valid)) (by decide +kernel)

/-- The kernel in slot X, n1 a number, n2 an address beyond its code, n3 a format word. -/
def kx (v : Word) : State := withN (withN (withN (inSlot kst .x) 1 (validWord v)) 2 (validWord 0x2000)) 3 (validWord 0x3F44)

theorem witness_ConfigurationWrites : ∀ i ∈ [Instr.xnest { g := 0, f := 0, sel := 0, a := 1 }, .xnest { g := 0, f := 5, sel := 7, a := 1 }, .xbase { g := 0, sel := 10, a := 1 },
      .xfmt { g := 0, a := 3 }, .xsrc { g := 0, sel := 1 }, .xbmp { g := 0, sel := 0, a := 1 }, .xbmp { g := 0, sel := 2, a := 63 }, .xsdiag { g := 0, f := 7, sel := 1 },
      .xsdiag { g := 0, f := 0, sel := 0 }],
    (kx 64).unhindered i ∧ (kx 64).calm ∧ (kx 64).on i ∧ ((configured i (kx 64).me.mx.cfg ((kx 64).env i).a.v.toNat).isSome &&
      (((kx 64).sole i).sources.isEmpty || decide (((kx 64).env i).a.tag = .valid))) = true :=
  runs_all (p := fun i => (configured i (kx 64).me.mx.cfg ((kx 64).env i).a.v.toNat).isSome &&
      (((kx 64).sole i).sources.isEmpty || decide (((kx 64).env i).a.tag = .valid))) (by decide +kernel)

/-- The kernel in slot X with one step of 64 rows configured. -/
def oneStep : State := (kx 15).mapMe fun t => { t with mx := { t.mx with cfg := { t.mx.cfg with base := vset (vset t.mx.cfg.base 0 0) 1 0x2000 } } }

theorem witness_MatrixCommands :
    (∀ i ∈ [Instr.xzero { g := 0, a := 1 }, .xdrain { g := 0, a := 2, b := 62 }, .xwait { g := 0 }], (kx 15).unhindered i ∧ (kx 15).calm ∧ (kx 15).on i ∧
      (decide (((kx 15).env (.xzero { g := 0, a := 1 })).a = validWord 15) && decide (((kx 15).env (.xdrain { g := 0, a := 2, b := 62 })).a.tag = .valid) &&
        decide (((kx 15).env (.xdrain { g := 0, a := 2, b := 62 })).b.tag = .valid)) = true) ∧
    (∀ i ∈ [Instr.xgo { g := 0, f := 0, sel := 0 }, .xgo { g := 0, f := 1, sel := 63 }], oneStep.unhindered i ∧ oneStep.calm ∧ oneStep.on i ∧
      (decide (oneStep.me.mx.cfg.steps ≠ 0) && !oneStep.me.mx.cfg.sparse) = true) :=
  ⟨runs_all (p := fun _ => decide (((kx 15).env (.xzero { g := 0, a := 1 })).a = validWord 15) && decide (((kx 15).env (.xdrain { g := 0, a := 2, b := 62 })).a.tag = .valid) &&
        decide (((kx 15).env (.xdrain { g := 0, a := 2, b := 62 })).b.tag = .valid)) (by decide +kernel),
   runs_all (p := fun _ => decide (oneStep.me.mx.cfg.steps ≠ 0) && !oneStep.me.mx.cfg.sparse) (by decide +kernel)⟩

/-- A stream binding of a register, bound by the bundle at 0. -/
def boundStream (k kind : Nat) (isWrite isLocal : Bool) (serial : Nat) : Stream :=
  { serial := serial, cmd := 0, reg := k,
    pat := { home := 0, cls := 1, levels := [(4, 8)], isLocal := isLocal, isVector := false, isWrite := isWrite, kind := kind, base := 0x1000 },
    bindAddr := 0, bindCycle := 0, scope := 0, presented := true, gate := none, buf := [], popped := 0, filled := 0, reserved := 0, queue := [], idx := [],
    idxTotal := 0, rets := [], due := [], got := [], gone := 0, loc := none, fault := none, reported := false }
/-- The kernel in slot Q, n1 the address 0x100, s7 a gather stream and s6 a return stream. -/
def kq : State := (withN (inSlot kst .q) 1 (validWord 0x100)).mapMe fun t =>
  { t with streams := { t.streams with regs := vset (vset t.streams.regs 7 (some (boundStream 7 1 false true 0))) 6 (some (boundStream 6 2 false false 1)), next := 2 } }
/-- The same with a pattern descriptor of one level of four local words at 0x100. -/
def kqPat : State := withSpad kq 0x100 ([0x60, 0, 0, 0] ++ List.replicate 5 0 ++ [0x10] ++ List.replicate 6 0 ++ [4, 0, 0, 0, 8])

theorem witness_StreamCommands :
    (∀ i ∈ [Instr.sbind { g := 0, h := 0, a := 1 }], kqPat.unhindered i ∧ kqPat.calm ∧ kqPat.on i ∧
      (decide ((kqPat.env i).a = validWord 0x100) && !kqPat.me.spad.anyPoison 0x100 64) = true) ∧
    (∀ i ∈ [Instr.sunbind { g := 0, h := 7 }, .gpush { g := 0, h := 7, a := 1 }], kq.unhindered i ∧ kq.calm ∧ kq.on i ∧
      (decide ((kq.env (.gpush { g := 0, h := 7, a := 1 })).a.tag = .valid) &&
        ((vget (kq.popped (.gpush { g := 0, h := 7, a := 1 })).streams.regs 7).map fun (st : Stream) => decide (st.pat.kind = 1)).getD false) = true) :=
  ⟨runs_all (p := fun i => decide ((kqPat.env i).a = validWord 0x100) && !kqPat.me.spad.anyPoison 0x100 64) (by decide +kernel),
   runs_all (p := fun _ => decide ((kq.env (.gpush { g := 0, h := 7, a := 1 })).a.tag = .valid) &&
        ((vget (kq.popped (.gpush { g := 0, h := 7, a := 1 })).streams.regs 7).map fun (st : Stream) => decide (st.pat.kind = 1)).getD false) (by decide +kernel)⟩

/-- The kernel in slot Q with a transfer descriptor of 64 bytes at 0x100: local to global, from 0x1000. -/
def kxfer (w0 : List Byte) (dst : List Byte) : State :=
  withSpad (withSpad (withSpad (withSpad kq 0x100 w0) 0x108 [0, 0x10]) 0x110 dst) 0x130 [64]
/-- A copy from the scratchpad, one to a remote scratchpad, and a collective contribution. -/
def kcopy : State := kxfer [0x10] [0, 0, 0, 1]
/-- A send to rank 0. -/
def ksend : State := kxfer [0x10, 0, 8] [0, 0x20]

theorem witness_TransferCommands :
    (∀ i ∈ [Instr.copy { g := 0, a := 1, b := 63 }, .copy { g := 0, a := 1, b := 62 }, .rsend { g := 0, a := 1 }], kcopy.unhindered i ∧ kcopy.calm ∧ kcopy.on i ∧
      (decide ((kcopy.env i).joined = .valid) && decide ((kcopy.env i).a.v = 0x100) && !kcopy.me.spad.anyPoison 0x100 0x38) = true) ∧
    (∀ i ∈ [Instr.send { g := 0, a := 1, b := 63 }, .send { g := 0, a := 1, b := 62 }], ksend.unhindered i ∧ ksend.calm ∧ ksend.on i ∧
      (decide ((ksend.env i).joined = .valid) && decide ((ksend.env i).a.v = 0x100) && !ksend.me.spad.anyPoison 0x100 0x38) = true) :=
  ⟨runs_all (p := fun i => decide ((kcopy.env i).joined = .valid) && decide ((kcopy.env i).a.v = 0x100) && !kcopy.me.spad.anyPoison 0x100 0x38) (by decide +kernel),
   runs_all (p := fun i => decide ((ksend.env i).joined = .valid) && decide ((ksend.env i).a.v = 0x100) && !ksend.me.spad.anyPoison 0x100 0x38) (by decide +kernel)⟩

/-- The kernel in slot Q, n1 semaphore 63 of rank 0 and n2 a count of 2^32 - 1. -/
def ksem : State := withN (withN (inSlot kst .q) 1 (validWord 63)) 2 (validWord 0xFFFFFFFF)
/-- The handler in slot Q, its n1 and n2 the same. -/
def hsem : State := withN (withN (inSlot hst .q) 1 (validWord 63)) 2 (validWord 0xFFFFFFFF)

theorem witness_SemaphoreCommands :
    (∀ i ∈ [Instr.ssig { g := 0, hi := 0, a := 1, b := 2 }, .ssigR { g := 0, hi := 0, a := 1, b := 2 }, .sinit { g := 0, a := 1, b := 2 }],
      ksem.unhindered i ∧ ksem.calm ∧ ksem.on i ∧ (!ksem.me.priv.active && decide ((ksem.env i).joined = .valid)) = true) ∧
    (∀ i ∈ [Instr.ssig { g := 0, hi := 0, a := 1, b := 2 }, .sinit { g := 0, a := 1, b := 2 }],
      hsem.unhindered i ∧ hsem.calm ∧ hsem.on i ∧ (hsem.me.priv.active && decide ((hsem.env i).joined = .valid)) = true) :=
  ⟨runs_all (p := fun i => !ksem.me.priv.active && decide ((ksem.env i).joined = .valid)) (by decide +kernel),
   runs_all (p := fun i => hsem.me.priv.active && decide ((hsem.env i).joined = .valid)) (by decide +kernel)⟩

/-- A global atomic without and with a return stream. -/
def atom (ret : BitVec 6) : FormDAB := { g := 0, d := ret, a := 1, b := 2 }

theorem witness_AtomicCommands : ∀ i ∈ [Instr.aadd (atom 63), .aadd (atom 60), .aminS64 (atom 60), .aminZ64 (atom 63), .amaxS64 (atom 63), .amaxZ64 (atom 63), .aand (atom 63),
      .aor (atom 63), .axor (atom 63), .axch (atom 63), .afaddF32 (atom 63), .afaddBf16 (atom 60), .acas { g := 0, h := 6, d := 3, a := 1, b := 2 }],
    kq.unhindered i ∧ kq.calm ∧ kq.on i ∧ ((atomicOf i).isSome && decide ((kq.env i).joined = .valid) && (vget (kq.popped i).streams.regs 6).isSome) = true :=
  runs_all (p := fun i => (atomicOf i).isSome && decide ((kq.env i).joined = .valid) && (vget (kq.popped i).streams.regs 6).isSome) (by decide +kernel)

theorem witness_OtherCommands :
    (∀ i ∈ [Instr.fence { g := 0, a := 1 }, .launch { g := 0, a := 1 }, .pref { g := 0, a := 1 }], kq.unhindered i ∧ kq.calm ∧ kq.on i ∧
      (!kq.me.priv.active && decide ((kq.env i).joined = .valid) && !kq.me.spad.anyPoison 0x100 0x140) = true) ∧
    (∀ i ∈ [Instr.fence { g := 0, a := 1 }], hsem.unhindered i ∧ hsem.calm ∧ hsem.on i ∧ (hsem.me.priv.active && decide ((hsem.env i).joined = .valid)) = true) :=
  ⟨runs_all (p := fun i => !kq.me.priv.active && decide ((kq.env i).joined = .valid) && !kq.me.spad.anyPoison 0x100 0x140) (by decide +kernel),
   runs_all (p := fun i => hsem.me.priv.active && decide ((hsem.env i).joined = .valid)) (by decide +kernel)⟩


/-! ## Events: what their hypotheses ask, as a computation -/

/-- A change of the acting tile. -/
def on1 (s : State) (f : Tile → Tile) : State := s.mapMe f

/-- The context that issues goes on at once, nothing else falls due, and the command queue is empty. -/
def readyB (s : State) : Bool :=
  (if s.me.priv.active then !s.me.priv.parked && s.me.priv.saving.isNone && !s.me.priv.rftDone else s.me.clear && !s.me.checkerHeld) &&
  s.me.eng.queue.isEmpty && s.me.eng.released.isEmpty && calmB s

theorem idle_of {s : State} (h : s.me.eng.queue.isEmpty = true ∧ s.me.eng.released.isEmpty = true) : s.me.transfersOnly :=
  ⟨(by rw [List.isEmpty_iff.1 h.1]; intro a h; cases h), List.isEmpty_iff.1 h.2⟩

theorem ready_of {s : State} (h : readyB s = true) : (s.kernelReady ∨ s.handlerReady) ∧ s.me.transfersOnly ∧ s.steady := by
  unfold readyB at h
  simp only [Bool.and_eq_true] at h
  refine ⟨?_, idle_of ⟨h.1.1.2, h.1.2⟩, (calm_of h.2).1⟩
  cases hp : s.me.priv.active with
  | false =>
    have h1 := h.1.1.1
    rw [hp] at h1
    simp only [Bool.false_eq_true, if_false, Bool.and_eq_true, Bool.not_eq_true'] at h1
    exact .inl ⟨hp, h1.1, h1.2⟩
  | true =>
    have h1 := h.1.1.1
    rw [hp] at h1
    simp only [if_true, Bool.and_eq_true, Bool.not_eq_true', Option.isNone_iff_eq_none] at h1
    exact .inr ⟨hp, h1.1.1, h1.1.2, h1.2⟩


/-! ## Cycles of a tile -/

/-- A position with cycles still to spend after its last issue. -/
def waitsAt (m : Mode) (w b : Nat) : Position := { Position.fresh 0 with mode := m, waits := w, bubbles := b }
/-- The kernel before a wait cycle, and before a bubble cycle. -/
def kwait : State := on1 kst fun t => { t with k := { t.k with pos := waitsAt .cont 2 0 } }
def kbub : State := on1 kst fun t => { t with k := { t.k with pos := waitsAt .xfer 0 3 } }
/-- The handler before a wait cycle, and before a bubble cycle. -/
def hwait : State := on1 hst fun t => { t with priv := { t.priv with shadow := { t.priv.shadow with pos := waitsAt .cont 2 0 } } }
def hbub : State := on1 hst fun t => { t with priv := { t.priv with shadow := { t.priv.shadow with pos := waitsAt .xfer 0 3 } } }

theorem witness_EmptyCycles_wait : ∀ s ∈ [kwait, hwait],
    (s.kernelReady ∨ s.handlerReady) ∧ s.me.transfersOnly ∧ s.steady ∧ s.me.inp.upsets = [] ∧ s.me.ctx.pos.waiting = true :=
  fun s h => by
    have h1 : ∀ s ∈ [kwait, hwait], readyB s = true ∧ s.me.inp.upsets = [] ∧ s.me.ctx.pos.waiting = true := by decide +kernel
    have := ready_of (h1 s h).1
    exact ⟨this.1, this.2.1, this.2.2, (h1 s h).2⟩

theorem witness_EmptyCycles_bubble : ∀ s ∈ [kbub, hbub],
    (s.kernelReady ∨ s.handlerReady) ∧ s.me.transfersOnly ∧ s.steady ∧ s.me.inp.upsets = [] ∧ s.me.ctx.pos.bubbling = true :=
  fun s h => by
    have h1 : ∀ s ∈ [kbub, hbub], readyB s = true ∧ s.me.inp.upsets = [] ∧ s.me.ctx.pos.bubbling = true := by decide +kernel
    have := ready_of (h1 s h).1
    exact ⟨this.1, this.2.1, this.2.2, (h1 s h).2⟩

/-- R71, R165: a wait cycle leaves one fewer, a bubble cycle too, and the schedule cycle advances. -/
theorem test_empty_cycles :
    (∀ s ∈ [kwait, hwait], after (exec .waitCycle s) fun u => decide (u.me.ctx.cycle = 1 ∧ u.me.ctx.pos.waits = 1)) ∧
    (∀ s ∈ [kbub, hbub], after (exec .bubbleCycle s) fun u => decide (u.me.ctx.cycle = 1 ∧ u.me.ctx.pos.bubbles = 2)) := by decide +kernel

/-- A context at cycle 5 with one result of cycle 4. -/
def arrives (r : Result) (s : State) : State :=
  on1 s fun t => t.setCtx { t.ctx with cycle := 5, infl := [{ slot := .s0, issued := 2, last := 4, res := r, place := none }] }

theorem witness_EmptyCycles_arrival :
    ∀ s ∈ [arrives (.scalar (validWord 7) 3) kst, arrives (.scalar (validWord 7) 63) hst,
        arrives (.guards 0 { val := false, void := false } { val := true, void := false }) kst, arrives (.vector (vrep 32 { v := 9, tag := .valid }) 15) kst],
      s.me.ctx.infl.length = 1 ∧ (∀ e ∈ s.me.ctx.infl, e.last < s.me.ctx.cycle) ∧ s.me.checker = none := by decide +kernel

/-- R50, R61, R62: a result is pushed and named, a write of g0 is discarded. -/
theorem test_arrivals :
    (after (exec .resultArrival (arrives (.scalar (validWord 7) 3) kst)) fun u =>
      decide (vget u.me.k.n 3 = validWord 7 ∧ vget u.me.k.sq 0 = validWord 7 ∧ u.me.k.infl = [])) ∧
    (after (exec .resultArrival (arrives (.guards 0 { val := false, void := false } { val := true, void := false }) kst)) fun u =>
      decide (vget u.me.k.g 0 = { val := true, void := false } ∧ vget u.me.k.g 1 = { val := true, void := false })) ∧
    (after (exec .resultArrival (arrives (.vector (vrep 32 { v := 9, tag := .valid }) 15) kst)) fun u =>
      decide (vget (vget u.me.vec.v 15) 31 = { v := 9, tag := .valid } ∧ vget (vget u.me.vec.vq 0) 0 = { v := 9, tag := .valid })) := by decide +kernel

theorem witness_EmptyCycles_arrivals :
    ∀ s ∈ [arrives (.vectorPush vvoid 3) kst, arrives (.masks 1 0xFF 0x1) kst, arrives (.bind 1 shape40) kst],
      s.me.ctx.infl.length = 1 ∧ (∀ e ∈ s.me.ctx.infl, e.last < s.me.ctx.cycle) ∧ s.me.checker = none ∧ s.me.priv.active = false := by decide +kernel

/-- R63, R107, R231: a mask pair whose lane 0 is VOID, and the entry that a bind fills. -/
theorem test_more_arrivals :
    (after (exec .resultArrival (arrives (.masks 1 0xFF 0x1) kst)) fun u =>
      decide (vget u.me.vec.m 2 = { vals := 0xFE, voids := 1 } ∧ vget u.me.vec.m 3 = { vals := 0xFFFFFF00, voids := 1 })) ∧
    (after (exec .resultArrival (arrives (.bind 1 shape40) kst)) fun u => decide (vget u.me.shapes 1 = some shape40)) := by decide +kernel

/-- The kernel before waitw, its deadline 3 ns. -/
def kwaitw : State := withN (State.reset.withFetchWord 32 (encode (.waitw { g := 0, a := 1 })).toNat) 1 (validWord 3)

theorem witness_EmptyCycles_deadline : kwaitw.waitsWall = true := by decide +kernel

theorem witness_EmptyCycles_nop : kst.unhindered .nop ∧ kst.steady :=
  ⟨free_of (by decide +kernel), (calm_of (by decide +kernel)).1⟩

/-- R204: at 1.5 GHz the fifth clock period after the one at 0 is the first whose start finds 3 ns of wall time. -/
theorem test_deadline : after (exec .waitwDeadline kwaitw) (fun u => decide (vget u.me.counters.freeze 6 = 5 ∧ u.me.k.cycle = 0 ∧ u.waitsWall = false)) = true := by
  decide +kernel

/-! ## The matrix engine and the presentation of commands -/

/-- An engine command of the bundle at 0, cycle 0. -/
def cmdOf (b : CmdBody) : Cmd :=
  { id := 0, addr := 0, cycle := 0, scope := 0, segNo := 1, gate := none, late := 0, ckCopy := none, matched := false, operands := [], body := b }
/-- A transfer of 64 bytes of the scratchpad from 0x1000 to global memory at 0x10000. -/
def xfer64 : Transfer :=
  { isSend := false, isRsend := false, dir := 0, src := 0x10000, dst := 0x1000, dims := [(64, 1, 1)], cls := 0, tagw := false, sig := false,
    remote := false, rank := 0, sem := 0, count := 0, tag := 0, tagOff := 0, group := 0, rfmt := 0, redop := 0 }
/-- A matrix command number 0 with its start fixed at cycle 9. -/
def mxOf (o : MxOp) (sparse : Bool) : MxCmd :=
  { n := 0, cmd := 0, issue := 0, addr := 0, op := o, sparse := sparse, start := 9, fixed := true, clkLeft := none, segNo := 1, brows := [], arows := [],
    wait := [], presented := true, done := false, waited := false, signalled := false, gate := none }
/-- The kernel with a command within the checker lag, the engine at a cycle. -/
def kcmd (b : CmdBody) (cyc : Nat) : State := on1 kst fun t => { t with eng := { t.eng with lag := [cmdOf b] }, mx := { t.mx with cyc := cyc } }
/-- The kernel with one matrix command, the engine at a cycle, and entry 3 × 4096 of the accumulator 1.0. -/
def kmx (x : MxCmd) (cyc : Nat) : State :=
  on1 kst fun t => { t with mx := { t.mx with queue := [x], cyc := cyc, acc := t.mx.acc.put 12288 { v := 0x3F800000, tag := .valid } } }
/-- The kernel after the last cycle of its work item. -/
def ended (s : State) : State := on1 s fun t => { t with run := t.run.map fun r => { r with itemEnded := true } }

theorem witness_MatrixCycles_presentation : ∀ b ∈ [CmdBody.xfer xfer64, .ssig none 1 1],
    (kcmd b 5).me.winding = false ∧ (kcmd b 5).me.eng.lag = [cmdOf b] ∧ (cmdOf b).cycle + 5 ≤ (kcmd b 5).me.mx.cyc ∧
    ((cmdOf b).late = 0 ∨ (kcmd b 5).me.img.coverage = 0) ∧ (cmdOf b).ckCopy = none ∧ (kcmd b 5).me.seg.number ≤ (cmdOf b).segNo ∧
    (kcmd b 5).me.eng.queue = [] ∧ (kcmd b 5).me.eng.released = [] ∧ ((∃ x, b = .xfer x ∧ x.isRsend = false) ∨ b.isHeld = true) := by
  intro b hb
  have h : ∀ b ∈ [CmdBody.xfer xfer64, .ssig none 1 1],
      (kcmd b 5).me.winding = false ∧ (kcmd b 5).me.eng.lag = [cmdOf b] ∧ (cmdOf b).cycle + 5 ≤ (kcmd b 5).me.mx.cyc ∧
      ((cmdOf b).late = 0 ∨ (kcmd b 5).me.img.coverage = 0) ∧ (cmdOf b).ckCopy = none ∧ (kcmd b 5).me.seg.number ≤ (cmdOf b).segNo ∧
      (kcmd b 5).me.eng.queue = [] ∧ (kcmd b 5).me.eng.released = [] := by decide +kernel
  obtain ⟨h1, h2, h3, h4, h5, h6, h7, h8⟩ := h b hb
  refine ⟨h1, h2, h3, h4, h5, h6, h7, h8, ?_⟩
  simp only [List.mem_cons, List.not_mem_nil, or_false] at hb
  rcases hb with rfl | rfl
  · exact .inl ⟨xfer64, rfl, rfl⟩
  · exact .inr rfl

/-- R170: a command of cycle 0 is presented at cycle 5 and not at cycle 4. -/
theorem test_presentation :
    (after (exec .engineCommandPresentation (kcmd (.xfer xfer64) 5)) fun u => decide (u.me.eng.lag = [] ∧ u.me.eng.queue.length = 1)) ∧
    (after (exec .engineCommandPresentation (kcmd (.ssig none 1 1) 5)) fun u => decide (u.me.eng.lag = [] ∧ u.me.eng.held.length = 1)) ∧
    (after (exec .engineCommandPresentation (kcmd (.ssig none 1 1) 4)) fun u => decide (u.me.eng.lag.length = 1)) := by decide +kernel

theorem witness_MatrixCycles_dense :
    let s := ended (kmx (mxOf (.drain 0x1000 3 1 0 256 false) false) 9)
    s.me.winding = true ∧ s.me.mx.over_ = false ∧ s.me.eng.lag = [] ∧ s.me.inp.upsets = [] ∧ s.me.eng.queue.isEmpty = true ∧ s.me.eng.released.isEmpty = true := by
  decide +kernel

theorem witness_MatrixCycles_zero :
    let s := kmx (mxOf (.zero 3) false) 10
    s.me.mx.queue = [mxOf (.zero 3) false] ∧ (mxOf (.zero 3) false).start < s.me.mx.cyc ∧ (mxOf (.zero 3) false).fixed = true ∧
      (mxOf (.zero 3) false).done = false := by decide +kernel

/-- R260: xzero leaves every entry of its block zero. -/
theorem test_zero : after (exec .matrixBlockZero (kmx (mxOf (.zero 3) false) 10)) (fun u =>
    decide (u.me.mx.acc.get 12288 = { v := 0, tag := .valid } ∧ (u.me.mx.queue.map MxCmd.done) = [true])) = true := by decide +kernel

/-- A drain of block 3 to 0x1000 as BF16 whose first row waits. -/
def drainOf : MxCmd :=
  { mxOf (.drain 0x1000 3 1 0 256 false) false with wait := [(12, { v := 0x3F800000, tag := .valid } :: List.replicate 63 { v := 0, tag := .valid })] }

theorem witness_MatrixCycles_drain :
    let s := kmx drainOf 13
    s.me.mx.queue = [drainOf] ∧ drainOf.sparse = false ∧ drainOf.fixed = true ∧ drainOf.done = false ∧ drainOf.wait.map Prod.fst = [12] ∧
      12 < s.me.mx.cyc ∧ s.me.spad.wf = true ∧ s.me.inp.stuck = [] := by
  decide +kernel

/-- A sparse operation of one step with a completion signal. -/
def sparseGo (clk : Option Nat) : MxCmd :=
  { mxOf (.go { MxCfg.reset with afmt := 2, bfmt := 2, rowsM1 := 0, abmpOn := true } none (some 5) 0) true with clkLeft := clk }

theorem witness_MatrixCycles_sparse :
    (let s := kmx (sparseGo none) 9
     s.me.mx.queue = [sparseGo none] ∧ (sparseGo none).sparse = true ∧ (sparseGo none).presented = true ∧ (sparseGo none).done = false ∧
     (sparseGo none).clkLeft = none ∧ ({ MxCfg.reset with afmt := 2, bfmt := 2, rowsM1 := 0, abmpOn := true } : MxCfg).steps ≠ 0) ∧
    (let s := kmx (sparseGo (some 0)) 9
     s.me.mx.queue = [sparseGo (some 0)] ∧ (sparseGo (some 0)).sparse = true ∧ (sparseGo (some 0)).done = false ∧
     (sparseGo (some 0)).signalled = false ∧ s.me.eng.queue.isEmpty = true ∧ s.me.eng.released.isEmpty = true ∧
     (sparseGo (some 0)).segNo = s.me.seg.number) ∧
    (let x := { sparseGo (some 0) with segNo := 7 }
     let s := kmx x 9
     s.me.mx.queue = [x] ∧ x.sparse = true ∧ x.done = false ∧ x.clkLeft = some 0 ∧ x.signalled = false ∧ s.me.eng.queue.isEmpty = true ∧
     s.me.eng.released.isEmpty = true ∧ x.segNo ≠ s.me.seg.number) := by decide +kernel

/-- R255: a sparse operation of one step with no candidate lasts 16 + 16 + 8 clk. -/
theorem test_sparse : after (exec .sparseMatrixStart (kmx (sparseGo none) 9)) (fun u => decide (u.me.mx.queue.map MxCmd.clkLeft = [some 40])) = true := by
  decide +kernel


/-! ## Engines -/

/-- A leaf that maps the page at 0 to frame 3 of die 0, with every permission. -/
def leaf3 : Leaf := { va := 0, bits := 16, entry := 0x3001F }
/-- The kernel with a stream in s0, the page at 0 in both caches, 0x0807060504030201 at scratchpad 0x1000 and 0x77 at the same place of frame 3. -/
def kstr (st : Stream) : State :=
  let s := withSpad kst 0x1000 [1, 2, 3, 4, 5, 6, 7, 8]
  { on1 s fun t => { t with streams := { t.streams with regs := vset t.streams.regs 0 (some st), next := 1 },
                            xlat := { t.xlat with streamTlb := [leaf3], copyTlb := [leaf3] } } with mem := s.mem.put 0x31000 [0x77] }
/-- Frame 3 of die 0 from an offset on. -/
def frame3 (off : Nat) : Loc := { host := false, pa := 0x30000 + off }
/-- Whether a request of the first tile of some bytes may perform at a location. -/
def clearedAs (s : State) (id : Nat) (l : Loc) (n : Nat) : Bool :=
  match (s.tile 0).askedOf id with
  | some q => decide (s.cleared q = some l ∧ q.req.n = n ∧ (s.tile 0).inp.transit = [])
  | none => false
/-- The hypotheses that every clause about a stream has. -/
def strTurn (st : Stream) : Bool :=
  decide (vget ((kstr st).tile 0).streams.regs 0 = some st ∧ ((kstr st).tile 0).streams.find st.serial = some st ∧ st.pat.kind ≠ 2) &&
    ((kstr st).tile 0).streamTurn st
/-- The first stream register after an event. -/
def strAfter (u : State) (p : Stream → Bool) : Bool := ((vget (u.tile 0).streams.regs 0).map p).getD false

/-- An index of a gather or scatter stream, VOID. -/
def voidIndex : GIndex := { cmd := 0, val := zeroVoid, addr := 0, gate := none, presented := true }
/-- A write stream whose first element stands filled. -/
def filledStream (kind : Nat) (isLocal : Bool) (x : Scalar) : Stream :=
  { boundStream 0 kind true isLocal 0 with reserved := 1, queue := [{ pos := 0, val := some (.scalar x), after := 0, order := 0 }], idx := [voidIndex], idxTotal := 1 }

/-- A read stream over global memory whose first element's request has passed its home die. -/
def globalStream : Stream := { boundStream 0 0 false false 0 with loc := some (frame3 0x1000) }
/-- One of vectors, whose first element starts in the middle of a 64-byte unit. -/
def vectorStream : Stream :=
  { globalStream with pat := { globalStream.pat with isVector := true, base := 0x1030 }, loc := some (frame3 0x1030) }

theorem witness_StreamElements_fill :
    (let st := boundStream 0 0 false true 0
     strTurn st = true ∧ st.nextElem = some (.fill (some 0x1000)) ∧ st.pat.isLocal = true) ∧
    (let st := globalStream
     strTurn st = true ∧ st.nextElem = some (.fill (some 0x1000)) ∧ st.pat.isLocal = false ∧
     clearedAs (kstr st) (streamId 0) (frame3 0x1000) 8 = true ∧ st.pat.size = 8) ∧
    (let st := vectorStream
     strTurn st = true ∧ st.nextElem = some (.fill (some 0x1030)) ∧ st.pat.isLocal = false ∧
     clearedAs (kstr st) (streamId 0) (frame3 0x1030) 16 = true ∧ st.pat.size = 128) ∧
    (let st := { boundStream 0 1 false true 0 with idx := [voidIndex], idxTotal := 1 }
     strTurn st = true ∧ st.nextElem = some (.fill none)) := by decide +kernel

/-- A result that fills the second place of a write stream as it arrives. -/
def placed : State :=
  on1 (kstr { boundStream 0 0 true true 0 with
    reserved := 2, queue := [{ pos := 0, val := none, after := 0, order := 0 }, { pos := 1, val := none, after := 0, order := 0 }] })
    fun t => { t with k := { t.k with cycle := 5, infl := [{ slot := .s0, issued := 2, last := 4, res := .scalar (validWord 7) 16, place := some (0, 1) }] } }

theorem witness_EmptyCycles_place : placed.me.ctx.infl.length = 1 ∧ (∀ e ∈ placed.me.ctx.infl, e.last < placed.me.ctx.cycle ∧ e.place = some (0, 1) ∧
    e.res.elem = some (.scalar (validWord 7))) ∧ placed.me.checker = none ∧
    after (exec .resultArrival placed) (fun u => strAfter u fun st => decide (st.queue.map Reserved.val = [none, some (.scalar (validWord 7))])) = true := by decide +kernel

/-- R65, R273: the elements that the three streams above receive. -/
theorem test_fills :
    (after (exec (.streamElementFill 0 0) (kstr (boundStream 0 0 false true 0))) fun u => strAfter u fun st =>
      decide (st.buf = [.scalar (validWord 0x0807060504030201)] ∧ st.filled = 1)) ∧
    (after (exec (.streamElementFill 0 0) (kstr globalStream)) fun u => strAfter u fun st =>
      decide (st.buf = [.scalar (validWord 0x77)])) ∧
    (after (exec (.streamElementFill 0 0) (kstr vectorStream)) fun u => strAfter u fun st => decide (st.buf = [] ∧ st.got.length = 16)) ∧
    (after (exec (.streamElementFill 0 0) (kstr { boundStream 0 1 false true 0 with idx := [voidIndex], idxTotal := 1 })) fun u => strAfter u fun st =>
      decide (st.buf = [.scalar zeroVoid])) := by decide +kernel

/-- A write stream of vectors over global memory, its first element filled and due from the middle of a 64-byte unit on. -/
def filledVector : Stream :=
  { boundStream 0 0 true false 0 with
    pat := { (boundStream 0 0 true false 0).pat with isVector := true, base := 0x1030 }, reserved := 1, loc := some (frame3 0x1030),
    queue := [{ pos := 0, val := some (.vector (vrep 32 { v := 9, tag := .valid })), after := 0, order := 0 }] }

theorem witness_StreamElements_drainUnit :
    strTurn filledVector = true ∧ filledVector.nextElem = some (.drain (some 0x1030) (.vector (vrep 32 { v := 9, tag := .valid }))) ∧
    clearedAs (kstr filledVector) (streamId 0) (frame3 0x1030) 16 = true ∧ filledVector.pat.size = 128 ∧ (kstr filledVector).mem.wf = true ∧
    after (exec (.streamElementDrain 0 0) (kstr filledVector)) (fun u => strAfter u (fun st => decide (st.gone = 16 ∧ st.queue.length = 1)) &&
      decide (readCells u.mem.bytes 0x31030 5 = [9, 0, 0, 0, 9] ∧ readCell u.mem.bytes 0x31040 = 0)) = true := by decide +kernel

theorem witness_StreamElements_drain :
    (let st := filledStream 1 true (validWord 9)
     strTurn st = true ∧ st.nextElem = some (.drain none (.scalar (validWord 9))) ∧ (kstr st).me.eng.queue.isEmpty = true ∧
     (kstr st).me.eng.released.isEmpty = true) ∧
    (let st := filledStream 0 true (validWord 9)
     strTurn st = true ∧ st.nextElem = some (.drain (some 0x1000) (.scalar (validWord 9))) ∧ ((kstr st).tile 0).spad.wf = true ∧
     ((kstr st).tile 0).inp.stuck = []) ∧
    (let st := { filledStream 0 false (validWord 9) with loc := some (frame3 0x1000) }
     strTurn st = true ∧ st.nextElem = some (.drain (some 0x1000) (.scalar (validWord 9))) ∧
     clearedAs (kstr st) (streamId 0) (frame3 0x1000) 8 = true ∧ (kstr st).mem.wf = true) ∧
    (let st := filledStream 0 true { v := 0, tag := .poison { unit := 6, place := 0x30040 } }
     strTurn st = true ∧ st.nextElem = some (.drain (some 0x1000) (.scalar { v := 0, tag := .poison { unit := 6, place := 0x30040 } })) ∧
     ((kstr st).tile 0).openElem st = true) := by decide +kernel

/-- R66, R416: what the four drains leave. -/
theorem test_drains :
    (after (exec (.streamElementDrain 0 0) (kstr (filledStream 1 true (validWord 9)))) fun u => strAfter u fun st => st.queue.isEmpty) ∧
    (after (exec (.streamElementDrain 0 0) (kstr (filledStream 0 true (validWord 9)))) fun u => decide (readCells (u.tile 0).spad.bytes 0x1000 8 = [9, 0, 0, 0, 0, 0, 0, 0])) ∧
    (after (exec (.streamElementDrain 0 0) (kstr { filledStream 0 false (validWord 9) with loc := some (frame3 0x1000) })) fun u =>
      decide (readCells u.mem.bytes 0x31000 2 = [9, 0])) ∧
    (after (exec (.streamElementDrain 0 0) (kstr (filledStream 0 true { v := 0, tag := .poison { unit := 6, place := 0x30040 } }))) fun u =>
      decide ((u.tile 0).seg.pendEvents.map Event.check = [.poison])) := by decide +kernel

/-- The local drain of `witness_StreamElements_drain` is not held; the word that its POISON element names is the first. -/
theorem witness_StreamElements_drainHeld :
    (kstr (filledStream 0 true (validWord 9))).drainHeld 0 (filledStream 0 true (validWord 9)) 0x1000 = false ∧
    ((Elem.scalar { v := 0, tag := .poison { unit := 6, place := 0x30040 } }).words.findSome? fun w =>
      match w.2.2 with | .poison o => some o | _ => none) = some { unit := 6, place := 0x30040 } := by decide +kernel

/-- The kernel with one accepted command, the page at 0 in its copy cache. -/
def kact (a : Active) : State :=
  let s := withSpad kst 0x1000 [1, 2, 3, 4, 5, 6, 7, 8]
  { on1 s fun t => { t with eng := { t.eng with queue := [a] }, xlat := { t.xlat with copyTlb := [leaf3] } } with mem := s.mem.put 0x32000 [5] }
/-- A copy of 64 bytes between global 0x2000 and scratchpad 0x1000, by direction. -/
def copyOf (dir : Nat) : Transfer :=
  if dir = 0 then { xfer64 with dir := 0, src := 0x2000, dst := 0x1000 } else { xfer64 with dir := dir, src := 0x1000, dst := 0x2000 }
/-- An accepted transfer; read to the end already, its bytes ones, when asked for. -/
def actOf (x : Transfer) (read checked : Bool) : Active :=
  { Active.start { cmdOf (.xfer x) with segNo := 0 } with
    rd := if read then 1 else 0, got := if read then (List.range 64).map fun k => (k, 1) else [],
    loc := if checked then some (frame3 0x2000) else none }
/-- The hypotheses that every clause about a request of a transfer has. -/
def reqTurn (a : Active) (x : Transfer) (acc : Access) (g : Bool) : Bool :=
  ((kact a).tile 0).turn a && decide (a.done = false ∧ a.fault = none) && decide ((a.nextReq x).map (fun r => (r.access, r.isGlobal, r.n)) = some (acc, g, 64)) &&
    decide (((kact a).tile 0).inp.transit = []) && cellsWf 0 a.got

/-- A contribution of 64 bytes whose result goes to global 0x2000. -/
def resultOf : Transfer := { copyOf 1 with isRsend := true }
/-- Whether the cache gives a request of the first tile, with every permission, a location. -/
def locatedAs (s : State) (id : Nat) (l : Loc) : Bool :=
  match (s.tile 0).askedOf id with
  | some q => decide (q.fault = none ∧ (s.tile 0).denied q = none ∧ (s.tile 0).locOf q = some l)
  | none => false

theorem witness_EngineRequests_performs :
    (reqTurn (actOf (copyOf 1) false false) (copyOf 1) .read false = true) ∧
    (reqTurn (actOf (copyOf 0) false true) (copyOf 0) .read true = true ∧ (copyOf 0).leaves = false ∧
      clearedAs (kact (actOf (copyOf 0) false true)) 0 (frame3 0x2000) 64 = true) ∧
    (reqTurn (actOf (copyOf 0) true false) (copyOf 0) .write false = true ∧
      (kact (actOf (copyOf 0) true false)).targetTile 0 none = some 0 ∧ ((kact (actOf (copyOf 0) true false)).tile 0).spad.wf = true ∧
      ((kact (actOf (copyOf 0) true false)).tile 0).inp.stuck = []) ∧
    (reqTurn (actOf (copyOf 1) true true) (copyOf 1) .write true = true ∧
      clearedAs (kact (actOf (copyOf 1) true true)) 0 (frame3 0x2000) 64 = true ∧
      (kact (actOf (copyOf 1) true true)).mem.wf = true) ∧
    (reqTurn (actOf resultOf true false) resultOf .write true = true ∧ locatedAs (kact (actOf resultOf true false)) 0 (frame3 0x2000) = true) := by decide +kernel

/-- R299: a unit read joins the command, a unit written reaches the scratchpad or memory. -/
theorem test_requests :
    (after (exec (.globalRequestPerform 0 0) (kact (actOf (copyOf 0) false true))) fun u =>
      decide ((u.tile 0).eng.queue.map (fun b => (b.rd, b.wr, readCells b.got 0 2)) = [(1, 0, [5, 0])])) ∧
    (after (exec (.globalRequestPerform 0 0) (kact (actOf (copyOf 0) true false))) fun u =>
      decide ((u.tile 0).eng.queue.map (fun b => (b.wr, b.done)) = [(1, true)] ∧ readCells (u.tile 0).spad.bytes 0x103F 2 = [1, 0])) ∧
    (after (exec (.globalRequestPerform 0 0) (kact (actOf (copyOf 1) true true))) fun u =>
      decide (readCells u.mem.bytes 0x3203F 2 = [1, 0])) := by decide +kernel

/-- A transfer done, with a tag word at 0x3000 and a signal of 2 to semaphore 4. -/
def doneXfer (tagw sig : Bool) : Active :=
  { actOf { copyOf 0 with tagw := tagw, tag := 0xAB, tagOff := 0x3000, sig := sig, sem := 4, count := 2 } true false with wr := 1, done := true }

theorem witness_EngineRequests_completes : ∀ c ∈ [(true, true), (false, false)],
    let a := doneXfer c.1 c.2
    let d : Transfer := { copyOf 0 with tagw := c.1, tag := 0xAB, tagOff := 0x3000, sig := c.2, sem := 4, count := 2 }
    ((kact a).tile 0).mayComplete a d = true ∧ (kact a).targetTile 0 d.target = some 0 ∧ ((kact a).tile 0).run.isSome = true ∧
      ((kact a).tile 0).spad.wf = true ∧ ((kact a).tile 0).inp.stuck = [] ∧ (kact a).me.eng.released = [] := by decide +kernel

/-- R282: the tag word is written, the signal sent, the command gone. -/
theorem test_completion : after (exec (.transferCompletion 0 0) (kact (doneXfer true true))) (fun u =>
    decide (readCells (u.tile 0).spad.bytes 0x3000 2 = [0xAB, 0] ∧ (u.tile 0).eng.queue = [] ∧
      u.signals.map (fun g => (g.target, g.change.sem, g.change.op)) = [(0, 4, .raise 2)])) = true := by decide +kernel

theorem witness_EngineRequests_completion : ∀ c ∈ [(true, true), (false, false)],
    (kact (doneXfer c.1 c.2)).completes 0 (doneXfer c.1 c.2) { copyOf 0 with tagw := c.1, tag := 0xAB, tagOff := 0x3000, sig := c.2, sem := 4, count := 2 } = true := by
  decide +kernel

/-- The kernel with a signal of 3 in flight to its semaphore 63. -/
def ksig (ctx : BitVec 2) (log : List SigEntry) : State :=
  { on1 kst fun t => { t with priv := { t.priv with ctxState := ctx, sigLog := log } } with
    signals := [{ target := 0, launch := 0, gang := 0, change := { sem := 63, op := .raise 3, prod := none, order := 0 } }] }
/-- An entry of the signal log. -/
def sigEntry : SigEntry := { src := 5, st := true, sem := 1, count := 1 }

theorem witness_EngineRequests_signals :
    ((ksig 0 []).me.run.map (fun r => (r.launch, r.gang, r.img.nsems)) = some (0, 0, 64) ∧ (ksig 0 []).me.priv.ctxState.toNat < 2) ∧
    (2 ≤ (ksig 2 []).me.priv.ctxState.toNat ∧ (ksig 2 []).me.priv.sigLog.length < 8) ∧
    (2 ≤ (ksig 3 (List.replicate 8 sigEntry)).me.priv.ctxState.toNat ∧ 8 ≤ (ksig 3 (List.replicate 8 sigEntry)).me.priv.sigLog.length) := by decide +kernel

/-- R342: a signal to a saved context is logged; a ninth entry is lost. -/
theorem test_signals :
    (after (exec (.semaphoreSignalArrival 0) (ksig 0 [])) fun u => decide ((u.tile 0).sems.pend.map SemChange.sem = [63] ∧ u.signals = [])) ∧
    (after (exec (.semaphoreSignalArrival 0) (ksig 2 [])) fun u => decide ((u.tile 0).priv.sigLog.map (fun e => (e.sem, e.st, e.count)) = [(63, true, 3)])) ∧
    (after (exec (.semaphoreSignalArrival 0) (ksig 3 (List.replicate 8 sigEntry))) fun u => (u.tile 0).priv.sigLost) := by decide +kernel

/-- The kernel with an add of 2^64 - 3 on global 0x2000 (holding 5), its old value to the stream of binding 0. -/
def katomic : State :=
  let s := kact { Active.start { cmdOf (.atomic .add 0x2000 0xFFFFFFFFFFFFFFFD 0 0 (some 0)) with segNo := 0 } with loc := some (frame3 0x2000) }
  on1 s fun t => { t with streams := { t.streams with
    regs := vset t.streams.regs 6 (some { boundStream 6 2 false false 0 with rets := [{ cmd := 0, released := false, val := none }] }), next := 1 } }

theorem witness_EngineRequests_atomic :
    clearedAs katomic 0 (frame3 0x2000) 8 = true ∧ katomic.atomicServes 0 (homeCluster 0x32000) 0 = true ∧
    katomic.mem.wf = true ∧ (∀ j < 8, katomic.mem.poison.contains ((0x32000 + j) / 8) = false) := by decide +kernel

/-- R276, R288: the word is replaced, and the old value stands in its place of the return stream. -/
theorem test_atomic : after (exec (.globalAtomicPerform 0 0) katomic) (fun u =>
    decide (readCells u.mem.bytes 0x32000 8 = [2, 0, 0, 0, 0, 0, 0, 0] ∧ (u.tile 0).eng.queue = [] ∧
      (vget (u.tile 0).streams.regs 6).map (fun st => st.rets) = some [{ cmd := 0, released := false, val := some (validWord 5) }])) = true := by decide +kernel


/-! ## Translation, homes and migration -/

/-- The host's windows reached, and a change of the first partition. -/
def booted (s : State) : State := { s with boot := { s.boot with booted := true } }
def onPart (s : State) (f : Part → Part) : State := s.setPart 0 (f (s.part 0))
/-- A change of the first partition's translation registers. -/
def onXl (s : State) (f : PartXlat → PartXlat) : State := onPart s fun p => { p with xl := f p.xl }
/-- Five tables at 0x100000 to 0x104000 of device memory, which map the page at 0x20000 to frame 3. -/
def tables (m : Store) : Store :=
  (List.range 4).foldl (fun m l => m.put (0x100000 + 0x1000 * l) (leBytes 8 (0x101001 + 0x1000 * l))) (m.put 0x104010 (leBytes 8 0x3001F))
/-- The kernel with the tables, and their root in force. -/
def kpt (s : State) : State := onXl { s with mem := tables s.mem } fun x => { x with root := 0x100000 }

theorem witness_TranslationEvents_walk :
    let tbl := fun l => 0x100000 + 0x1000 * l
    let shift := fun l => if l < 4 then 48 - 9 * l else 16
    let a := fun l => tbl l + 8 * (0x20123 / 2 ^ shift l % (if l < 4 then 512 else 32))
    let e := fun l => BitVec.ofNat 64 ((kpt kst).mem.readLe (a l) 8)
    (∀ l < 5, populated (a l) = true ∧ (kpt kst).mem.anyPoison (a l) 8 = false ∧ (e l).getLsbD 0 = true ∧ (e l).getLsbD 1 = decide (l = 4) ∧
      entryBad l (e l) = false) ∧
    (∀ l < 4, tbl (l + 1) = (e l).toNat / 2 ^ 8 % 2 ^ 40 * 2 ^ 8) ∧ leafOutside (e 4) = false := by decide +kernel

/-- R388: the walk of the tables above, hand-followed. -/
theorem test_walk : (walk (kpt kst).mem 0x100000 0x20123).leaf = some (0x3001F, 16, 0x104010) ∧
    (walk (kpt kst).mem 0x100000 0x30000).leaf = none ∧ (walk (kpt kst).mem 0x100000 0x30000).detail = 1 := by decide +kernel

/-- R388: a leaf of 1 GiB in the third table, and one of 2 MiB in the fourth. -/
def bigLeaf (n : Nat) : Store := (kpt kst).mem.put (0x100000 + 0x1000 * n) (leBytes 8 0x4000001F)
theorem witness_TranslationEvents_bigWalk : ∀ n ∈ [2, 3],
    let tbl := fun l => 0x100000 + 0x1000 * l
    let shift := fun l => if l < 4 then 48 - 9 * l else 16
    let a := fun l => tbl l + 8 * (0x20123 / 2 ^ shift l % (if l < 4 then 512 else 32))
    let e := fun l => BitVec.ofNat 64 ((bigLeaf n).readLe (a l) 8)
    (∀ l < 5, l ≤ n → populated (a l) = true ∧ (bigLeaf n).anyPoison (a l) 8 = false ∧ (e l).getLsbD 0 = true ∧ (e l).getLsbD 1 = decide (l = n) ∧
      entryBad l (e l) = false) ∧
    (∀ l < 4, l < n → tbl (l + 1) = (e l).toNat / 2 ^ 8 % 2 ^ 40 * 2 ^ 8) ∧ leafOutside (e n) = false ∧
    (walk (bigLeaf n) 0x100000 0x20123).leaf = some (0x4000001F, 48 - 9 * n, 0x100000 + 0x1000 * n) := by decide +kernel

/-- The kernel with a copy that reads global 0x20000, nothing cached, and translation in a mode. -/
def kmiss (mode : BitVec 2) (copy : Option Miss) : State :=
  onXl (on1 (kpt kst) fun t => { t with
    eng := { t.eng with queue := [actOf { copyOf 0 with src := 0x20000 } false false] }, xlat := { t.xlat with copyMiss := copy } }) fun x => { x with walkMode := mode, missBase := 0x20000 }
/-- A miss that stands for it. -/
def missOf (mode : Nat) : Miss :=
  { va := 0x20000, write := false, atomic := false, sreg := 0, mode := mode, root := 0x100000, raised := false, priv := false }
/-- The first request that misses: its command and address. -/
def missAt (s : State) : Option (Nat × Nat) := ((s.tile 0).firstMiss true).map fun p => (p.1.id, p.2)

theorem witness_TranslationEvents_miss : ∀ mode ∈ [(0 : BitVec 2), 1, 2],
    ((kmiss mode none).tile 0).xlat.miss true = none ∧ missAt (kmiss mode none) = some (0, 0x20000) := by
  decide +kernel

/-- The handler of the tile whose copy engine's miss the walk registers show. -/
def kfill (v : Nat) : State :=
  on1 (kmiss 1 (some (missOf v))) fun t => { t with priv := { t.priv with active := true }, xlat := { t.xlat with walkInfo := 1 } }

/-- The host, HFILL_SEL naming that miss, which stands in the miss ring. -/
def khfill : State :=
  onXl (booted (kmiss 2 (some { missOf 2 with raised := true }))) fun x => { x with hfillTile := 0, hfillEngine := true, missStanding := 1 }

theorem witness_TranslationEvents_ends :
    (((kmiss 0 (some (missOf 0))).tile 0).xlat.miss true = some (missOf 0) ∧ (missOf 0).mode = 0 ∧ ((kmiss 0 (some (missOf 0))).die 0).walker = [] ∧
      (walk (kpt kst).mem 0x100000 0x20000).leaf = some (0x3001F, 16, 0x104010)) ∧
    (khfill.fillTarget (.window 0) = some (0, true, 2) ∧ (khfill.tile 0).xlat.miss true = some { missOf 2 with raised := true }) ∧
    ((kfill 1).fillTarget (.handler 0) = some (0, true, 1) ∧ ((kfill 1).tile 0).xlat.miss true = some (missOf 1) ∧ (match fillLeaf 0x3001F with | .ok p => decide (p = (0x3001F, 16)) | .error _ => false) = true ∧
      (match fillLeaf 0x30010 with | .ok _ => false | .error d => decide (d = 5)) = true ∧
      (((kfill 1).tile 0).awaits true (missOf 1)).map Asked.id = some 0 ∧ missAt (kfill 1) = some (0, 0x20000)) := by decide +kernel

/-- R393, R394, R396: a walk ends in an entry of the cache; a refused fill ends in fault 0x5. -/
theorem test_walk_ends :
    (after (exec (.translationWalkComplete 0 true) (kmiss 0 (some (missOf 0)))) fun u =>
      decide ((u.tile 0).xlat.copyTlb = [{ va := 0x20000, bits := 16, entry := 0x3001F }] ∧ (u.tile 0).xlat.copyMiss = none)) ∧
    (after (exec (.walkFill (.handler 0) 0x30010) (kfill 1)) fun u => decide ((u.tile 0).eng.queue.map (fun b => b.fault) = [some (1, 5)])) ∧
    (after (exec (.translationMiss 0 true) (kmiss 2 none)) fun u =>
      decide ((u.tile 0).xlat.copyMiss = some { missOf 2 with raised := true } ∧ (u.part 0).xl.missHead = 1)) := by decide +kernel

theorem witness_TranslationEvents_shoot :
    (booted kst).originPart (.window 0) = some 0 ∧ invalidation 0x4000000000000000 = .all ∧
    (onXl kst fun x => { x with xlBusy := true }).oldWalk 0 = false ∧ ((onXl kst fun x => { x with xlBusy := true }).part 0).xl.xlBusy = true ∧
    (on1 kst fun t => { t with xlat := { t.xlat with walkPending := true } }).me.xlat.walkPending = true := by decide +kernel

/-- The kernel with the copy above held by a fault. -/
def kfault (standing : Bool) : State :=
  on1 kst fun t => { t with eng := { t.eng with queue := [{ actOf (copyOf 0) false false with fault := some (3, 1) }] },
                            priv := { t.priv with ef := { t.priv.ef with standing := standing } } }

theorem witness_FaultEvents_fault : ∀ b ∈ [true, false], ((kfault b).tile 0).faultOf 0 = some (3, 1) ∧ ((kfault b).tile 0).faultReported 0 = false := by
  decide +kernel

/-- R396: an engine fault writes its registers and raises cause 0x20; while one stands it does not. -/
theorem test_fault :
    (after (exec (.engineFault 0 0) (kfault false)) fun u =>
      decide ((u.tile 0).priv.ef.kind = 3 ∧ (u.tile 0).priv.ef.va = 0x2000 ∧ (u.tile 0).priv.async.map Async.cause = [0x20])) ∧
    (after (exec (.engineFault 0 0) (kfault true)) fun u => decide ((u.tile 0).priv.async = [])) := by decide +kernel

theorem witness_FaultEvents_resume :
    (on1 kst fun t => { t with priv := { t.priv with active := true } }).me.priv.active = true ∧
    ((booted kst).window 0 = true ∧ ((booted kst).part 0).tiles.getLsbD 0 = true ∧ (1 : Word).getLsbD 0 = true ∧ (0 : TileNo).val = (1 : Word).toNat / 2 ^ 16 % 2 ^ 11) := by
  decide +kernel

/-- The kernel with a copy that reads global 0x2000, translated, its frame of an owner. -/
def khome (owner : Nat) : State :=
  let s := kact (actOf (copyOf 0) false false)
  s.setDie 0 { s.die 0 with frames := putFrame [] { Frame.fresh 3 with owner := owner } }

theorem witness_FaultEvents_home : ∀ owner ∈ [0, 0x10],
    (((khome owner).tile 0).askedOf 0).any (fun a => decide (((khome owner).tile 0).locOf a = some (frame3 0x2000)) && a.loc.isNone && a.fault.isNone &&
      (((khome owner).tile 0).denied a).isNone) = true ∧
    (khome owner).migrating (frame3 0x2000) = false ∧ ((khome owner).die (homeDie 0x32000)).down = false ∧
    ((khome owner).die (homeDie 0x32000)).refusals.length < 8 ∧ (khome owner).partOf 0 = 0 ∧
    (khome owner).homeCheck 0 (frame3 0x2000) false = (if owner = 0 then none else some 1) := by decide +kernel

/-- R397: the owner's request is let through; another's is refused and logged. -/
theorem test_home :
    (after (exec (.homeDieRequest 0 0) (khome 0)) fun u => decide ((u.tile 0).eng.queue.map (fun b => (b.loc, b.fault)) = [(some (frame3 0x2000), none)])) ∧
    (after (exec (.homeDieRequest 0 0) (khome 0x10)) fun u =>
      decide ((u.tile 0).eng.queue.map (fun b => (b.loc, b.fault)) = [(none, some (3, 1))] ∧ (u.die 0).refusals.map (fun r => (r.1, r.2.2.1, r.2.2.2)) = [(0, 1, 0x32000)])) := by
  decide +kernel

theorem witness_FaultEvents_log :
    let s := (booted kst).setDie 0 { kst.die 0 with refusals := [(7, 1, 2, 0x32000)] }
    s.hostUp = true ∧ (s.die s.myDie).refusals = [(7, 1, 2, 0x32000)] := by decide +kernel

/-- The kernel with the tables, migration in host mode, and one entry, frame 9 of die 0, in the last of the four places of that die's free ring at
0x110000. -/
def kmig (m : Option Migration) : State :=
  let s := onXl (booted (kpt kst)) fun x => { x with migMode := 2 }
  { s.setDie 0 { s.die 0 with freeBase := 0x110000, freeSlots := 4, freeHead := 3, freeCount := 1, mig := m } with
    mem := s.mem.put 0x110018 (leBytes 8 0x90000) }
/-- The migration of the page at 0x20000 from frame 3 to frame 9. -/
def migOf (spoiled : Bool) : Migration :=
  { part := 0, va := 0x20000, old := 0x30000, new := 0x90000, leaf := 0x3001F, leafAddr := 0x104010, spoiled := spoiled }

theorem witness_FrameEvents_command :
    (kmig none).originPart (.window 0) = some 0 ∧ ((kmig none).part 0).xl.migMode = 2 ∧ (kmig none).migBusy 0 = false ∧
    (walk (kmig none).mem ((kmig none).part 0).xl.root 0x20000).leaf = some (0x3001F, 16, 0x104010) ∧ leafHost 0x3001F = false ∧
    (0x3001F : Word).getLsbD 6 = false ∧ ((kmig none).part 0).hasDie 0 = true ∧ ((kmig none).die (homeDie 0x30000)).mig = none ∧
    ((kmig none).die 0).freeCount ≠ 0 ∧ populated ((kmig none).mem.readLe (0x110000 + 8 * (3 % 4)) 8 / 2 ^ 16 * 2 ^ 16) = true := by decide +kernel

/-- R402: MIG_CMD of the page at 0x20000 to die 0. -/
theorem test_migration_starts : after (exec (.migCmd (.window 0) 0x20000) (kmig none)) (fun u =>
    decide ((u.die 0).mig = some (migOf false) ∧ (u.die 0).freeCount = 0 ∧ (u.die 0).freeHead = 0 ∧ u.migBusy 0 = true)) = true := by decide +kernel

theorem witness_FrameEvents_halving :
    let s := (onXl kst fun x => { x with migDecay := 1 }).setDie 0 { kst.die 0 with frames := putFrame [] { Frame.fresh 3 with owner := 0, counts := vrep 12 7 } }
    (s.part 0).xl.migDecay ≠ 0 ∧ framesWf 0 (s.die 0).frames = true ∧
    after (exec (.migDecayHalving 0 0) s) (fun u => decide (vget ((u.die 0).frameOf 3).counts 11 = 3)) = true := by decide +kernel

theorem witness_FrameEvents_completes : ∀ b ∈ [true, false],
    ((kmig (some (migOf b))).die (kmig (some (migOf b))).myDie).mig = some (migOf b) ∧
    BitVec.ofNat 64 ((kmig (some (migOf b))).mem.readLe 0x104010 8) = (migOf b).leaf ∧ (kmig (some (migOf b))).mem.wf = true ∧
    (migOf b).old + 2 ^ 16 ≤ (migOf b).new ∧ (kmig (some (migOf b))).heldWrites = [] ∧ (∀ p : PartNo, ((kmig (some (migOf b))).part p).xl.migCmd = none) := by decide +kernel

/-- R401: the leaf of a migrated page names its new frame, and its bytes stand there; a spoiled copy changes nothing. -/
theorem test_migration_ends :
    (after (exec .migrationComplete { kmig (some (migOf false)) with mem := (kmig none).mem.put 0x30005 [0x44] }) fun u =>
      decide (u.mem.readLe 0x104010 8 = 0x9001F ∧ readCell u.mem.bytes 0x90005 = 0x44 ∧ u.mem.readLe 0x110000 8 = 0x30000 ∧ (u.part 0).xl.migResult = 0)) ∧
    (after (exec .migrationComplete (kmig (some (migOf true)))) fun u => decide (u.mem.readLe 0x104010 8 = 0x3001F ∧ u.mem.readLe 0x110000 8 = 0x90000 ∧ (u.part 0).xl.migResult = 3)) := by
  decide +kernel

/-- The migration of frame 3 spoiled, the write that the host made to it held, the free ring of the new frame's die full. -/
def kheld : State :=
  let s := kmig (some (migOf true))
  { s.setDie 0 { s.die 0 with freeCount := 4 } with
    heldWrites := [{ part := none, loc := { host := false, pa := 0x30010 }, bytes := [(7, false), (8, false)], waiters := [] }] }

theorem witness_FrameEvents_held :
    (kheld.die kheld.myDie).mig = some (migOf true) ∧ kheld.mem.wf = true ∧ homeDie 0x30010 = kheld.myDie ∧
    (∀ p : PartNo, (kheld.part p).xl.migCmd = none) ∧ (kheld.die (homeDie 0x90000)).freeSlots ≤ (kheld.die (homeDie 0x90000)).freeCount ∧
    after (exec .migrationComplete kheld) (fun u => decide (readCells u.mem.bytes 0x30010 2 = [7, 8] ∧ u.heldWrites = [] ∧ (u.part 0).xl.migResult = 3)) = true := by
  decide +kernel

theorem witness_FrameEvents_set :
    (booted kst).hostUp = true ∧ homeDie 0x30000 = 0 ∧ populated 0x30000 = true ∧ framesWf 0 ((booted kst).die 0).frames = true ∧
    after (exec (.frameSet 0 0x0001000000030051) (booted kst)) (fun u =>
      decide (((u.die 0).frameOf 4).owner = 5 ∧ ((u.die 0).frameOf 4).wp = true ∧ ((u.die 0).frameOf 5).owner = 0x10)) = true ∧
    after (exec (.freePush 0 0x30000) (booted (kst.setDie 0 { kst.die 0 with freeBase := 0x110000, freeSlots := 1 })))
      (fun u => decide ((u.die 0).freeCount = 1 ∧ u.mem.readLe 0x110000 8 = 0x30000)) = true := by
  decide +kernel


/-! ## Launches -/

/-- A change of the launch, and of the run of the first tile. -/
def onLaunch (s : State) (f : Launch → Launch) : State := { s with launches := s.launches.map f }
def onRun (s : State) (f : Run → Run) : State := on1 s fun t => { t with run := t.run.map f }
/-- A change of the first die. -/
def onDie (s : State) (f : Die → Die) : State := s.setDie 0 (f (s.die 0))
/-- Frame 3 of die 0 belongs to the first partition. -/
def owned (s : State) : State := onDie s fun d => { d with frames := putFrame d.frames { Frame.fresh 3 with owner := 0 } }
/-- A launch record of one field of an extent, its image at 0x20400, up to its last byte that is not zero. -/
def recBytes (extent : Nat) : List Byte :=
  leBytes 8 0x20400 ++ leBytes 8 0x1010100000 ++ leBytes 8 1 ++ leBytes 8 extent
/-- The first tile empty in the first partition, with tables and a queue that holds one entry at 0x20000: a record, its image at 0x400 behind it. -/
def kqueue (m : List Byte) : State :=
  let img := leBytes 4 0x4F454843 ++ leBytes 4 1 ++ leBytes 8 0x800000000 ++ leBytes 8 0x4000000000 ++ leBytes 8 0x0001000100000020 ++ leBytes 4 64
  let s := owned (kpt (booted (State.reset.setPart 0 (Part.withTiles 1))))
  onPart { s with mem := (s.mem.put 0x30000 m).put 0x30400 img } fun p => { p with enable := true, queues := vset p.queues 0 { vget p.queues 0 with base := 0x20000, en := true, tail := 1 } }

/-- The record above as its fields. -/
def recOf (extent : Nat) : LaunchRec :=
  { image := 0x20400, dieMask := 1, prio := 0, f := 1, s := 0, g := 1, nstage := 0, ngate := 0, doneEn := false, recEn := false, widths := [1], extents := [extent],
    mailbox := vrep 16 0, gates := [], doneSig := (0, 0, 0), recAddr := 0, tag := 0, slice := 0, stages := [] }

theorem witness_LaunchEvents_accept :
    (∀ m ∈ [[], recBytes 0, recBytes 1], (kqueue m).takesHost 0 = true ∧ (kqueue m).nextEntry 0 = some (0, 0)) ∧
    recordCode ((kqueue []).privBytes 0 0x20000 0x140) false = some 0x11 ∧
    (∀ n ∈ [0, 1, 2], recordCode ((kqueue (recBytes n)).privBytes 0 0x20000 0x140) false = none ∧
      recordOf ((kqueue (recBytes n)).privBytes 0 0x20000 0x140) = recOf n ∧ (recOf n).items = n) ∧
    (kqueue (recBytes 1)).laterCode 0 (recOf 1) ((kqueue (recBytes 1)).privBytes 0 0x20400 64) = none ∧
    (kqueue (recBytes 2)).laterCode 0 (recOf 2) ((kqueue (recBytes 2)).privBytes 0 0x20400 64) = some 0x18 := by decide +kernel

/-- R362, R366: an entry of zeros leaves the queue refused with 0x11. -/
theorem test_accept : after (exec .launchAccept (kqueue [])) (fun u =>
    decide (u.launches.map (fun l => l.ending.map fun e => (e.status, e.code)) = [some (1, 0x11)] ∧ (vget (u.part 0).queues 0).head = 1)) = true := by decide +kernel

theorem witness_LaunchEvents_qtail : (booted kst).window 0 = true ∧ kst.window 0 = false ∧
    after (exec (.qtail 0 0 2) (booted kst)) (fun u => (vget (u.part 0).queues 0).err) = true := by decide +kernel

/-- The queue's state with a child in the sump. -/
def ksump : State := onDie (kqueue []) fun d => { d with sump := [{ part := 0, tile := 0, cmd := 0, record := recBytes 1 }] }

theorem witness_LaunchEvents_sump :
    (ksump.die ksump.myDie).sump.length = 1 ∧ 1 ≤ ksump.poolFree ksump.myDie ∧ ksump.hostSumped ksump.myDie = false ∧
    after (exec .sumpAdmit ksump) (fun u => decide ((u.die 0).sump = [] ∧ u.launches.map Launch.sumped = [true])) = true := by decide +kernel

/-- One launch that waits for a gate semaphore of the first tile to hold 2; it holds n. -/
def kgate (n : BitVec 32) : State :=
  (onLaunch kst fun l => { l with eligible := false, record := { l.record with gates := [(0, 3, 2)] } }).setGate 0 3 n

/-- R365: a gate of 2 is satisfied by 5, which it lowers to 3, and not by 1. -/
theorem witness_LaunchEvents_eligible :
    ((kgate 5).launches.map fun l => (l.eligible, l.ending.isNone, l.record.gates)) = [(false, true, [(0, 3, 2)])] ∧
    after (exec .launchEligible (kgate 5)) (fun u => decide (u.launches.map Launch.eligible = [true] ∧ u.gate 0 3 = 3)) = true ∧
    after (exec .launchEligible (kgate 1)) (fun u => decide (u.launches.map Launch.eligible = [false] ∧ u.gate 0 3 = 1)) = true := by decide +kernel

/-- R364: GATE_SIG and GATE_INIT of semaphore 15 of the first tile. -/
theorem witness_LaunchEvents_gates :
    (booted kst).window 0 = true ∧ (booted kst).gateTile 0 0 = true ∧ (booted kst).gateTile 0 1 = false ∧
    after (exec (.gateSig 0 0xFFFFFFFF0000000F) ((booted kst).setGate 0 15 9)) (fun u => decide (u.gate 0 15 = 0xFFFFFFFF)) = true ∧
    after (exec (.gateInit 0 0x70000000F) ((booted kst).setGate 0 15 9)) (fun u => decide (u.gate 0 15 = 7)) = true := by decide +kernel

theorem witness_LaunchEvents_create :
    ((kst.part 1).created = false ∧ (∀ q : PartNo, (kst.part q).created = true → (kst.part q).tiles &&& 0x60 = 0) ∧
    (0x60 : BitVec 1152).getLsbD 5 = true ∧ (∀ k < 5, (0x60 : BitVec 1152).getLsbD k = false)) ∧ (booted kst).hostUp = true := by decide +kernel

/-- The first tile empty, one launch in the pool of its die, eligible, of a gang of some tiles. -/
def kplace (extent : Nat) (f : Launch → Launch) : State :=
  let r : LaunchRec := { (default : LaunchRec) with f := 1, g := 1, s := 0, widths := [1], extents := [extent], dieMask := 1 }
  { owned (kpt (booted (State.reset.setPart 0 (Part.withTiles 1)))) with launches := [f { placedLaunch 0 with record := r, nextGang := 0, gangs := [] }] }

theorem witness_PlacementEvents_starved :
    (kplace 2 id).launches.length = 1 ∧ ((kplace 2 id).starved 0) = (kplace 2 id).launch 0 ∧ ((kplace 2 id).launch 0).isSome = true := by decide +kernel

theorem witness_PlacementEvents_placed :
    (kplace 1 id).starved 0 = none ∧ ((kplace 1 id).nextPlacement 0).map (fun p => (p.gang, p.tiles, p.launch.id)) = some (none, [0], 0) ∧
    ((kplace 1 id).nextPlacement 0).map Placement.launch = (kplace 1 id).launch 0 := by decide +kernel

/-- R370: the gang stands on the tile; with too few tiles the launch ends with code 0x18. -/
theorem test_placement :
    (after (exec .gangPlacement (kplace 1 id)) fun u => decide ((u.tile 0).run.map (fun r => (r.gang, r.rank, r.resident)) = some (0, 0, false) ∧
      u.launches.map (fun l => (l.nextGang, l.gangs.map Gang.ranks)) = [(1, [[.onTile 0]])])) ∧
    (after (exec .gangPlacement (kplace 2 id)) fun u => decide (u.launches.map (fun l => l.ending.map Ending.code) = [some 0x18])) := by decide +kernel

/-- A run placed and not resident, its body 64 bytes behind the image at a global address, with bytes copied already or none. -/
def kstage (image staged : Nat) : State :=
  onRun (onLaunch (on1 (owned (kpt { kst with mem := kst.mem.put 0x30440 [0x66] })) fun t => { t with priv := { t.priv with ctxState := 0b11 } }) fun l =>
    { l with record := { l.record with image := image } }) fun r => { r with resident := false, started := false, staged := staged, img := { r.img with bodyLen := 64, scratch := 128, entry := 8 } }

theorem witness_PlacementEvents_resident :
    (kstage 0x20400 1).me.run.map (fun r => (r.resident, r.staged, ((kstage 0x20400 1).residencyCopies r).length)) = some (false, 1, 1) ∧
    (kstage 0x20400 0).me.run.map (fun r => (r.staged, (kstage 0x20400 0).residencyCopies r)) = some (0, [(0x20440, 64, 0)]) ∧
    (match (kstage 0x20400 0).fetchPages 0 0x20440 64 with | .ok l => decide (l = [({ host := false, pa := 0x30440 }, 64)]) | .error _ => false) = true ∧
    (kstage 0x30400 0).me.run.map (fun r => (r.staged, (kstage 0x30400 0).residencyCopies r)) = some (0, [(0x30440, 64, 0)]) ∧
    (match (kstage 0x30400 0).fetchPages 0 0x30440 64 with | .ok _ => false | .error f => decide (f.1 = 1 ∧ f.2.1 = 1)) = true ∧
    (∀ s ∈ [kstage 0x20400 1, kstage 0x20400 0, kstage 0x30400 0], s.me.priv.ef.standing = false ∧ s.me.priv.active = false ∧ s.me.priv.ctxState = 0b11 ∧
      s.me.spad.wf = true ∧ s.me.inp.stuck = [] ∧ s.heldAt .read (frame3 0x440) = false) ∧
    (onDie (kstage 0x20400 0) fun d => { d with down := true }).heldAt .read (frame3 0x440) = true := by decide +kernel

/-- R152, R373, R374: the copy, the zeroed rest and the state at a run's start; a fault parks the tile. -/
theorem test_resident :
    (after (exec .runResident (kstage 0x20400 0)) fun u => decide (u.me.run.map Run.resident = some true ∧ u.me.k.pos.addr = 8 ∧
      readCell u.me.spad.bytes 0 = 0x66 ∧ readCell u.me.spad.bytes 1 = 0 ∧ u.me.priv.ctxState = 0)) ∧
    (after (exec .runResident (kstage 0x30400 0)) fun u => decide (u.me.run.map Run.resident = some false ∧ u.me.priv.ef.standing = true)) := by decide +kernel

theorem witness_PlacementEvents_start :
    let s := onRun kst fun r => { r with started := false }
    (s.me.run.bind fun r => s.gangOf r).any s.gangReady = true ∧
    after (exec .gangStart s) (fun u => decide (u.me.run.map Run.started = some true)) = true := by decide +kernel

/-- The kernel after its last cycle: its final segment open or committed, of a run of some items. -/
def kitem (drained : Bool) (items : Nat) : State := onRun (ended kst) fun r => { r with drained := drained, items := items }

theorem witness_PlacementEvents_items :
    (∀ c ∈ [(false, 1), (true, 2), (true, 1)], (kitem c.1 c.2).me.mayCommit = true ∧ ((kitem c.1 c.2).launch 0).isSome = true) ∧
    (kitem false 1).me.seg.mode = .run ∧ (kitem true 2).me.settled = true ∧ (kitem true 1).me.settled = true ∧
    (kitem true 1).launches.map (fun l => l.gangs.map fun g => (g.index, g.ranks)) = [[(0, [.onTile 0])]] ∧ (kitem true 1).cur = 0 := by decide +kernel

/-- R207, R376: a commit, the next item, the end of a run and of its gang. -/
theorem test_items :
    (after (exec .workItemComplete (kitem false 1)) fun u => decide (u.me.run.map Run.drained = some true)) ∧
    (after (exec .workItemComplete (kitem true 2)) fun u => decide (u.me.run.map (fun r => (r.item, r.itemEnded)) = some (1, false) ∧ u.launches.map Launch.itemsDone = [1])) ∧
    (after (exec .workItemComplete (kitem true 1)) fun u => decide (u.me.run = none ∧ u.launches.map Launch.gangs = [[]])) := by decide +kernel

/-- A launch whose gangs have ended, with a completion record at a global address and a signal of 4 to gate semaphore 2 of the first tile. -/
def kdone (recEn : Bool) : State :=
  kplace 1 fun l => { l with nextGang := 1, record := { l.record with recEn := recEn, recAddr := 0x20040, doneEn := true, doneSig := (0, 2, 4), tag := 0x99 } }

theorem witness_PlacementEvents_completes : ∀ b ∈ [true, false],
    ((kdone b).launch 0).any (fun l => (l.outcome.map Ending.status) = some 0 && !(kdone b).completionHeld l && l.gangs.isEmpty) = true ∧
    (match (kdone b).privWalk 0 0x20040 with
      | .ok l => decide (l.loc 0x20040 = { host := false, pa := 0x30040 }) && ((kdone b).homeCheck 0 (l.loc 0x20040) true).isNone &&
          !(kdone b).migrating (l.loc 0x20040) | .error _ => false) = true ∧
    (kdone b).mem.wf = true ∧ (kdone b).boot.marches = [] := by decide +kernel

/-- R375: the record's TAG, the signal, and the launch gone. -/
theorem test_launch_completes : after (exec (.launchCompletion 0) (kdone true)) (fun u =>
    decide (u.launches = [] ∧ u.gate 0 2 = 4 ∧ readCells u.mem.bytes 0x30040 8 = [0, 0, 0, 0, 0x99, 0, 0, 0])) = true := by decide +kernel

/-- The completion record's fields are within their widths. -/
theorem witness_PlacementEvents_record : ((kdone true).launch 0).any (fun l => decide (l.id = 0 ∧ l.part = 0 ∧ l.preempts < 2 ^ 16 ∧ l.record.recAddr % 64 = 0) &&
    (match l.outcome with
     | some e => decide (e.status < 2 ^ 8 ∧ e.code < 2 ^ 8 ∧ e.cause < 2 ^ 8 ∧ e.unitKind < 2 ^ 8 ∧ e.unitPlace < 2 ^ 16)
     | none => false)) = true := by decide +kernel

/-- The launch of the first tile, asked to be pre-empted already or not. -/
def kpre (held : Bool) : State :=
  onPart (onRun (onLaunch (booted kst) fun l => { l with heldPreempt := held, gangs := l.gangs.map fun g => { g with asked := held } }) fun r => { r with sc := 4096 })
    fun p => { p with ctxSlots := 1 }

/-- The same launch, its tile's handler running. -/
def handling : State := on1 (kpre false) fun t => { t with priv := { t.priv with active := true } }

theorem witness_PreemptEvents_commands :
    (∀ b ∈ [true, false], (kpre b).window 0 = true ∧ ((kpre b).tagged 0 7).map Launch.id = [0] ∧ ((kpre b).launch 0).map Launch.heldPreempt = some b ∧
      ((kpre b).launches.any fun l => l.gangs.any Gang.isResident) = true) ∧
    ((kplace 1 id).window 0 = true ∧ ((kplace 1 id).tagged 0 7).map (fun l => (l.id, l.gangs, l.ending)) = [(0, [], none)]) := by decide +kernel

theorem witness_PreemptEvents_kills :
    ((kpre false).launches.map (fun l => (l.gangs.map Gang.ranks, l.ending)) = [([[.onTile 0]], none)] ∧
      (kpre false).me.run.map (fun r => (r.launch, r.gang)) = some (0, 0) ∧ (kpre false).me.priv.active = false) ∧
    (handling.window 0 = true ∧ (handling.tagged 0 7).map Launch.id = [0] ∧
      handling.launches.map (fun l => (l.gangs.map fun g => (g.index, g.ranks), l.ending)) = [([(0, [.onTile 0])], none)] ∧
      handling.me.run.map (fun r => (r.launch, r.gang)) = some (0, 0) ∧ handling.me.priv.active = true ∧ handling.me.priv.parked = false) ∧
    (kst.window 0 = false ∧ (kpre false).tagged 0 0x100000000 = []) := by decide +kernel

/-- R384, R346: PREEMPT asks and a second one undoes it; KILL ends the run with its code, a run whose tile's handler runs at its next boundary; a
child with the tag that waits in the sump is gone. -/
theorem test_commands :
    (after (exec (.kill 0 7) handling) fun u => decide (u.me.run.map Run.killed = some true ∧ u.launches.map (fun l => l.gangs.length) = [1])) ∧
    (after (exec (.kill 0 0) ksump) fun u => decide ((u.die 0).sump = [])) ∧ (after (exec (.kill 0 0x100000000) ksump) fun u => decide ((u.die 0).sump.length = 1)) ∧
    (after (exec (.preempt 0 0) (kpre false)) fun u => decide (u.launches.map (fun l => (l.heldPreempt, l.gangs.map Gang.asked)) = [(true, [true])])) ∧
    (after (exec (.preempt 0 0) (kpre true)) fun u => decide (u.launches.map (fun l => (l.heldPreempt, l.gangs.map Gang.asked)) = [(false, [false])])) ∧
    (after (exec (.kill 0 7) (kpre false)) fun u => decide (u.me.run = none ∧ u.me.priv.ctxState = 3 ∧
      u.launches.map (fun l => (l.gangs, l.ending.map fun e => (e.status, e.killCode))) = [([], some (2, 7))])) := by decide +kernel

/-- The gang of the first tile with a slice that ends at 1 ns; another launch waits for its tile or not. -/
def kslice (wanted : Bool) : State :=
  let s := onLaunch kst fun l => { l with record := { l.record with slice := 2 }, gangs := l.gangs.map fun g => { g with sliceEnd := 1 } }
  { s with wall := 5000, launches := s.launches ++ (if wanted then [{ placedLaunch 1 with gangs := [], nextGang := 0 }] else []) }

theorem witness_PreemptEvents_slice : ∀ b ∈ [true, false],
    (let s := kslice b
     (s.me.run.bind fun r => s.gangOf r).any (fun g => decide (g.sliceEnd ≠ 0 ∧ g.sliceEnd ≤ s.ns ∧ s.gangHalted g = false ∧ g.isResident = true) &&
       ((s.launch 0).map fun l => s.sliceWanted l g) = some b)) = true := by decide +kernel

/-- R378: a slice that an equal entry waits for expires; else it begins again, 2048 ns from now. -/
theorem test_slice :
    (after (exec .sliceExpiry (kslice true)) fun u => decide ((u.me.run.bind fun r => u.gangOf r).map (fun g => (g.expired, g.sliceEnd)) = some (true, 1))) ∧
    (after (exec .sliceExpiry (kslice false)) fun u => decide ((u.me.run.bind fun r => u.gangOf r).map (fun g => (g.expired, g.sliceEnd)) = some (false, 2053))) := by
  decide +kernel

theorem witness_PreemptEvents_saving :
    ((kpre true).nextPreempt 0).map (fun p => (p.1.id, p.2.index, p.2.ranks)) = some (0, 0, [.onTile 0]) ∧
    (((kpre true).nextPreempt 0).map Prod.fst = (kpre true).launch 0) ∧ ((kpre true).part 0).freeSlot = some 0 := by decide +kernel

/-- A gang saved in slot 3, its tile free again. -/
def ksaved : State :=
  kplace 1 fun l => { l with nextGang := 1, gangs := [{ index := 0, ranks := [.saved 3], since := 0, residentAt := none, sliceEnd := 0, paused := none, expired := false, ordered := true, asked := false }] }

theorem witness_PreemptEvents_restore :
    (ksaved.nextPlacement 0).map (fun p => (p.gang.map Gang.ranks, p.tiles, p.launch.id)) = some (some [.saved 3], [0], 0) ∧
    (ksaved.nextPlacement 0).map Placement.launch = ksaved.launch 0 := by decide +kernel

/-- R380, R383: the rank is asked to save itself by cause 0x22 in slot 0; a saved one enters its handler by 0x24. -/
theorem test_preemption :
    (after (exec .gangPreemption (kpre true)) fun u => decide (u.me.priv.async.map Async.cause = [0x22] ∧
      u.launches.map (fun l => (l.preempts, l.gangs.map Gang.ranks)) = [(1, [[.saving 0 0]])])) ∧
    (after (exec .gangRestore ksaved) fun u => decide (u.me.priv.active = true ∧ u.me.priv.trap.cause = 0x24 ∧ u.me.priv.trap.value = 0x30000 ∧
      u.me.priv.shadow.pos.addr = 0x900)) := by decide +kernel


/-! ## Margins and resets -/

/-- The first tile empty in the first partition, its windows reached, the tile's margins set. -/
def kempty (f : Margin → Margin) : State := on1 (booted (State.reset.setPart 0 (Part.withTiles 1))) fun t => { t with margin := f t.margin }

theorem witness_MarginEvents_mode :
    ((kempty id).window 0 = true ∧ ((kempty id).part 0).tiles.getLsbD 0 = true ∧ (kempty id).partOf 0 = 0 ∧ ((kempty id).tile 0).idle = true ∧
      ((kempty id).die 0).nvFallback = false) ∧ ((booted kst).window 0 = true ∧ ((booted kst).tile 0).idle = false) := by decide +kernel

/-- R407: mode 2 and a fixed clock of 900 MHz; mode 3 and 700 MHz leave theirs. -/
theorem test_mode :
    (after (exec (.modeSet 0 0x03840012) (kempty id)) fun u => decide ((u.part 0).modeSet = 2 ∧ (u.part 0).fixedMhz = 900 ∧ (u.part 0).triage = true ∧ (u.tile 0).margin.mode = 2)) ∧
    (after (exec (.modeSet 0 0x02BC0003) (kempty id)) fun u => decide ((u.part 0).modeSet = 0 ∧ (u.part 0).fixedMhz = 1300)) := by decide +kernel

theorem witness_MarginEvents_hset : ∀ mode ∈ [(2 : BitVec 2), 0],
    (kempty fun m => { m with mode := mode }).window 0 = true ∧ ((kempty fun m => { m with mode := mode }).part 0).tiles.getLsbD 0 = true ∧
    (((kempty fun m => { m with mode := mode }).tile 0).margin.mode = 2 ↔ mode = 2) ∧
    after (exec (.hset 0 1000) (kempty fun m => { m with mode := mode })) (fun u => decide ((u.tile 0).margin.mhz = if mode = 2 then 1000 else 0)) = true := by
  decide +kernel

theorem witness_MarginEvents_quarantine :
    ((booted kst).hostUp = true ∧ (booted kst).me.run.map (fun r => (r.launch, r.gang)) = some (0, 0)) ∧
    after (exec (.quarantine 0 0) (booted kst)) (fun u => decide ((u.tile 0).margin.state = 3 ∧ (u.tile 0).run = none ∧
      u.launches.map (fun l => (l.gangs, l.ending.isSome)) = [([], true)])) = true := by decide +kernel

/-- R409: TBUDGET of 0 and thresholds out of order change nothing. -/
theorem test_thresholds :
    [(true, 7), (true, 0), (false, 0x300000001), (false, 0x300000003)].map (fun c => after (exec (.governorThresholds 0 c.1 c.2) (booted kst)) fun u =>
      decide ((u.die 0).tbudget = if c.2 = 7 then 7 else 12) && decide (((u.die 0).replayHi, (u.die 0).replayLo) = if c.2 = 0x300000001 then (3, 1) else (2000, 250))) =
    [true, true, true, true] := by decide +kernel

/-- The tile in reclaim mode with replays in 10^6 clk. -/
def kmeasure (replays mv : Nat) : State := kempty fun m => { m with replays := replays, clks := 1000000, mv := mv, floor := 600 }

theorem witness_MarginEvents_measure :
    (∀ c ∈ [(0, 0), (1, 1)], dieOf 0 = (kmeasure c.1 700).myDie ∧ ((kmeasure c.1 700).tile 0).margin.mode = 0 ∧
      ((kmeasure c.1 700).tile 0).margin.replays * 10 ^ 9 / ((kmeasure c.1 700).tile 0).margin.clks ≤ ((kmeasure c.1 700).die 0).replayHi) ∧
    (∀ _ : 0 < Config.ceilMv 0, ((kmeasure 3 0).tile 0).margin.mv < Config.ceilMv 0 ∧
      ((kmeasure 3 0).die 0).replayHi < ((kmeasure 3 0).tile 0).margin.replays * 10 ^ 9 / ((kmeasure 3 0).tile 0).margin.clks) := by
  refine ⟨by decide +kernel, fun h => ⟨?_, by decide +kernel⟩⟩
  have e : ((kmeasure 3 0).tile 0).margin.mv = 0 := by decide +kernel
  rw [e]; exact h

/-- R408: with VCEIL at 702 mV, a rate of 0 lowers the voltage by 5 mV, one of 1000 leaves it, and one of 3000 raises it to VCEIL. -/
theorem test_measure : [0, 1, 3].map (fun n => (((kmeasure n 700).tile 0).margin.measure Die.reset 702).mv) = [695, 700, 702] := by decide +kernel

theorem witness_ResetEvents_command :
    (let s := booted kst
     let v : Word := 0x1000000000000001
     s.hostUp = true ∧ v.getLsbD 0 = true ∧ s.gallery.resetBusy = false ∧ v.toNat / 2 ^ 60 = 1 ∧ (0 : TileNo).val = v.toNat / 2 ^ 32 % 2 ^ 16) ∧ kst.hostUp = false := by
  decide +kernel

/-- R433: a tile reset loses the run and the scratchpad, and keeps the handler store. -/
theorem test_reset : after (exec (.resetCmd 0x1000000000000001) (on1 (booted kst) fun t => { t with priv := { t.priv with handlers := [(0, 1)] } })) (fun u =>
    decide ((u.tile 0).run = none ∧ (u.tile 0).spad = { bytes := [], poison := [] } ∧ (u.tile 0).priv.handlers = [(0, 1)] ∧ u.gallery.resetBusy = true ∧
      u.launches.map (fun l => l.ending.map fun e => (e.status, e.cause)) = [some (3, 8)])) = true := by decide +kernel

/-- R433: the end of a die's reset puts it out of reset; a die that the boot refused stays. -/
theorem test_resetDone : [false, true].map (fun refused =>
    let s := onDie (booted kst) fun d => { d with down := true, refused := refused }
    after (exec .resetDone { s with gallery := { s.gallery with resetBusy := true, resetWord := 0x5000000000000001 } }) fun u =>
      decide (u.gallery.resetBusy = false) && ((u.die 0).down == refused)) = [true, true] := by decide +kernel

/-- The kernel with a global atomic of 0x20000, which the tables map to cluster 0 of die 0. -/
def kstuck : State := on1 (kpt kst) fun t => { t with eng := { t.eng with queue := [Active.start (cmdOf (.atomic .add 0x20000 1 0 0 none))] } }

theorem witness_ResetEvents_atomics :
    (∀ p : PartNo, (kstuck.part p).rings.errSlots = 0) ∧ kstuck.atomicAt 0 (homeCluster 0x30000) 0 = true ∧
    kstuck.me.priv.active = false ∧ kstuck.me.run.map (fun r => (r.launch, r.gang)) = some (0, 0) ∧ kstuck.launches.map (fun l => l.gangs.map fun g => (g.index, g.ranks)) = [[(0, [.onTile 0])]] := by
  decide +kernel


/-! ## The host and the Gallery die -/

/-- The Gallery die lost: the management interface reaches device memory. -/
def lostGallery : State := { booted kst with gallery := { kst.gallery with lost := true } }

/-- R436, R437: a host write of three bytes lands in die 1 at the offset of its range; one beyond the range changes nothing. -/
theorem witness_HostEvents_memory :
    (let off := 0x1800000005
     (booted kst).hostUp = true ∧ off + 3 ≤ 12 * 0x1800000000 ∧ off % 0x1800000000 + 3 ≤ 0x1800000000 ∧ (booted kst).mem.wf = true ∧
     after (exec (.hostMemWrite off [7, 8, 9]) (booted kst)) (fun u => decide (u.mem.bytes = [(0x100000000005, 7), (0x100000000006, 8), (0x100000000007, 9)]) &&
       after (exec (.hostMemRead off 3) u) (fun w => decide (w.hostData = [7, 8, 9]))) = true) ∧
    kst.hostUp = false ∧ 12 * 0x1800000000 < 12 * 0x1800000000 - 1 + [7, (8 : Byte)].length ∧
    (lostGallery.boot.booted = true ∧ lostGallery.gallery.lost = true ∧ lostGallery.hostUp = false ∧
      after (exec (.hostMemWrite 8 [7]) lostGallery) (fun u => decide (u.mem.bytes = [(8, 7)])) = true) ∧
    (kst.boot.booted = false ∨ kst.gallery.lost = false) := by decide +kernel

/-- R437: a host write of a frame that migrates is held, and spoils the copy. -/
theorem witness_HostEvents_migrating :
    let s := kmig (some (migOf false))
    s.hostUp = true ∧ (0x30010 : Nat) % 2 ^ 16 + 2 ≤ 2 ^ 16 ∧ (s.die (homeDie 0x30010)).mig = some (migOf false) ∧ (migOf false).old = 0x30010 / 2 ^ 16 * 2 ^ 16 ∧
    after (exec (.hostMemWrite 0x30010 [7, 8]) s) (fun u => decide (u.heldWrites.map (fun w => (w.loc.pa, w.bytes.map Prod.fst)) = [(0x30010, [7, 8])] ∧
      (u.die 0).mig = some (migOf true) ∧ readCell u.mem.bytes 0x30010 = 0)) = true := by decide +kernel

/-- A window register of each kind: the first and last of an array, and one of each table. -/
theorem witness_HostEvents_windows :
    ([(Window.package, (0x000 : BitVec 17)), (.package, 0x168), (.package, 0x6C8), (.package, 0xC00), (.package, 0xE00), (.partition 0, 0x8E0),
      (.partition 0, 0x000), (.partition 0, 0x008), (.partition 0, 0x010), (.partition 0, 0x038), (.partition 0, 0x10910), (.partition 0, 0x10918)].all fun c =>
        (windowBits c.1 c.2.toNat).isSome && ((windowBits c.1 c.2.toNat).map fun m =>
          after (exec (.windowRegisterWrite c.1 c.2 0x0123456789ABCDEF) (booted kst)) fun u => decide (u.windowRead c.1 c.2.toNat = 0x0123456789ABCDEF &&& m)) = some true) = true ∧
    (booted kst).hostUp = true ∧ (booted kst).window 0 = true ∧ kst.hostUp = false := by decide +kernel

/-- The handler of the first tile, two reports of 0x140 bytes in the ring. -/
def kring : State :=
  onPart (on1 (booted kst) fun t => { t with priv := { t.priv with active := true } }) fun p =>
    { p with rings := { p.rings with ringPages := 1, ringHead := 0x280, starts := [(0, true), (0x140, true)], errHead := 5 } }

/-- R323, R432: a tail moves to the head or to the start of a report, and nowhere else; ERR_TAIL not beyond its head. -/
theorem witness_HostEvents_tails :
    (kring.tile 0).priv.active = true ∧ (kring.part (kring.partOf 0)).rings.ringHead = 0x280 ∧
    [(0x280 : Word), 0x140, 0x100].map (fun v => after (exec (.ringTail 0 v) kring) fun u => decide ((u.part 0).rings.ringTail = if v = 0x100 then 0 else v)) = [true, true, true] ∧
    kring.window 0 = true ∧
    [(5 : Word), 6].map (fun v => after (exec (.errTail 0 v) kring) fun u => decide ((u.part 0).rings.errTail = if v = 6 then 0 else v)) = [true, true] := by decide +kernel

/-- The first tile with a step mark whose report stands to be written, the ring of some pages and a head. -/
def kreport (pages : Nat) (head : Word) : State :=
  onPart (on1 kst fun t => { t with survey := { t.survey with due := [({ id := 3, addr := 0x40, cycle := 9, wall := 100, counters := [] }, none, 0, 0, 0, 0)] } }) fun p =>
    { p with rings := { p.rings with ringPages := pages, ringHead := head } }

/-- R323: a report of 128 bytes is left out without a ring, enters one page at 0x80, and is dropped where 128 bytes are no longer free. -/
theorem witness_HostEvents_report :
    (kreport 1 0x80).me.survey.due.length = 1 ∧ (kreport 1 0x80).me.survey.due.map (fun d => ((kreport 1 0x80).reportBytes 0 0
      { mark := d.1, ref := d.2.1, start := d.2.2.1, startCycle := d.2.2.2.1, kernelId := d.2.2.2.2.1, wid := d.2.2.2.2.2 } false).length) = [128] ∧
    [(0, (0 : Word), (0 : Word), (0 : Word)), (1, 0x80, 0x100, 0), (1, 0x1000, 0x1000, 1)].map (fun c => after (exec .surveyReportWrite (kreport c.1 c.2.1)) fun u =>
      decide ((u.part 0).rings.ringHead = c.2.2.1 ∧ (u.part 0).rings.ringDrops = c.2.2.2 ∧ u.me.survey.due = [])) = [true, true, true] := by decide +kernel

/-- A report of 128 bytes before a ring of one page at 0x20000, with a head, a tail and the starts behind it, that overwrites or not. -/
def kover (wraps : Bool) (head tail : Word) (starts : List (Word × Bool)) : State :=
  owned (onPart (kpt (booted (kreport 1 head))) fun p =>
    { p with rings := { p.rings with ringBase := 0x20000, ringOverwrite := wraps, ringTail := tail, starts := starts } })
/-- What a report leaves: the head, the tail and the count of the dropped. -/
def ringAfter (s : State) : Option (Word × Word × Word) :=
  match exec .surveyReportWrite s with
  | .next u => some ((u.part 0).rings.ringHead, (u.part 0).rings.ringTail, (u.part 0).rings.ringDrops)
  | _ => none

/-- R323: room; a pad of 64 bytes; a full ring that drops the report; one that overwrites, the oldest report passed over; a ring whose reports are all
passed over for one that needs a pad. -/
theorem witness_HostEvents_ring :
    ringAfter (kover false 0x80 0 [(0, true)]) = some (0x100, 0, 0) ∧
    ringAfter (kover false 0xFC0 0xF00 [(0xF00, true)]) = some (0x1080, 0xF00, 0) ∧
    ringAfter (kover false 0x1040 0x40 [(0x40, true), (0x100, true)]) = some (0x1040, 0x40, 1) ∧
    ringAfter (kover true 0x1040 0x40 [(0x40, true), (0x100, true)]) = some (0x10C0, 0x100, 1) ∧
    (∀ s ∈ [kover false 0x80 0 [(0, true)], kover false 0xFC0 0xF00 [(0xF00, true)]],
      s.mem.wf = true ∧ (s.part (s.partOf s.cur)).rings.ringPages ≠ 0 ∧
      [(0x20080 : Nat), 0x20FC0].all (fun va => match s.privWalk 0 va with
        | .ok l => !(l.loc va).host && (s.homeCheck 0 (l.loc va) true).isNone && !s.migrating (l.loc va) && decide ((l.loc va).pa = va + 0x10000)
        | .error _ => false) = true) := by decide +kernel

/-- R445: 1000 ns ahead of the grandmaster, the rate falls by the most that it may, 200 ppm. -/
theorem witness_FabricEvents_time :
    kst.gallery.lost = false ∧ ({ kst with wall := 2000000 } : State).masterNow = 2000 ∧
    after (exec (.wallTimeDiscipline (.grandmaster 1000)) { kst with wall := 2000000 }) (fun u =>
      decide (u.gallery.wtPpm = -200 ∧ u.gallery.wtOffset = 1000 ∧ u.gallery.wtLocked = true ∧ u.masterNow = 2000)) = true ∧
    after (exec (.ualinkPortState 15 true 7) kst) (fun u => decide ((vget u.gallery.ports 15).up = true ∧ (vget u.gallery.ports 15).peer = 7)) = true := by decide +kernel

/-- A contribution of one F32 element to group 0 from a place, its result to 0x20080. -/
def contrib (place : BitVec 16) (tile : Option (TileNo × Nat)) (x : Nat) : Contribution :=
  { tile := tile, place := place, group := 0, part := 0, dst := 0x20080, rfmt := 0, redop := 0, data := leBytes 4 x, scope := 4, gate := none,
    at_ := if tile.isSome then [(frame3 0x80, 0x20080, 4)] else [], clk := 0 }
/-- The rsend of the first tile, sent. -/
def rsendAct : Active :=
  { Active.start (cmdOf (.xfer { xfer64 with isRsend := true, dims := [(4, 1, 1)] })) with rd := 1, sent := true }
/-- Group 0 of some members and validity, 1.0 from place 5 counted in it or nothing, and the first tile's 2.0 in flight from a place. -/
def kgroup (valid : Bool) (members : Nat) (counted : Bool) (place : BitVec 16) : State :=
  let s := on1 (owned (kpt (booted kst))) fun t => { t with eng := { t.eng with queue := [rsendAct] } }
  { s with gallery := { s.gallery with
      groups := [{ num := 0, valid := valid, part := 0, members := members, peers := 0, rounds := 0, open_ := if counted then [contrib 5 none 0x3F800000] else [], held := [] }],
      contributions := [contrib place (some (0, 0)) 0x40000000] } }

/-- The closing contribution from a peer, as the other one. -/
def kpeers : State :=
  let s := kgroup true 2 true 0
  { s with gallery := { s.gallery with contributions := [contrib 0 none 0x40000000] } }

theorem witness_FabricEvents_groups :
    (∀ s ∈ [kgroup false 2 false 0, kgroup true 3 true 0, kgroup true 3 true 5, kgroup true 2 true 0],
      s.gallery.lost = false ∧ s.gallery.contributions.length = 1 ∧ (s.gallery.contributions.all fun c => s.contributionStands c) = true ∧
      (s.gallery.group 0).held = [] ∧ s.me.eng.queue = [rsendAct]) ∧
    (kgroup false 2 false 0).gallery.refuses ((kgroup false 2 false 0).gallery.group 0) (contrib 0 (some (0, 0)) 0x40000000) = true ∧
    (∀ s ∈ [kgroup true 3 true 0, kgroup true 3 true 5, kgroup true 2 true 0], (s.gallery.contributions.all fun c => s.gallery.refuses (s.gallery.group 0) c) = false) ∧
    (kpeers.gallery.lost = false ∧ (kpeers.gallery.contributions.all fun c => kpeers.contributionStands c && !kpeers.gallery.refuses (kpeers.gallery.group 0) c) = true ∧
      kpeers.peerPages 0 0x20080 4 = [(frame3 0x80, 0x20080, 4)]) ∧
    ((kgroup true 2 true 0).homeCheck 0 (frame3 0x80) true = none ∧ (kgroup true 2 true 0).migrating (frame3 0x80) = false) ∧
    (reduceRound 0 0 [contrib 5 none 0x3F800000, contrib 0 (some (0, 0)) 0x40000000]).length = 4 ∧ (kgroup true 2 true 0).mem.wf = true := by decide +kernel

/-- R442, R443: refused; counted; held for the next round; and 1.0 + 2.0 = 3.0 at the result's frame. -/
theorem test_groups :
    (after (exec (.rsendContribution (.flight 0)) (kgroup false 2 false 0)) fun u => decide (u.me.eng.queue.map (fun a => (a.sent, a.fault)) = [(false, some (3, 4))])) ∧
    (after (exec (.rsendContribution (.flight 0)) (kgroup true 3 true 0)) fun u => decide ((u.gallery.group 0).open_.length = 2 ∧ u.gallery.contributions = [])) ∧
    (after (exec (.rsendContribution (.flight 0)) (kgroup true 3 true 5)) fun u => decide ((u.gallery.group 0).held.length = 1)) ∧
    (after (exec (.rsendContribution (.flight 0)) (kgroup true 2 true 0)) fun u =>
      decide ((u.gallery.group 0).rounds = 1 ∧ readCells u.mem.bytes 0x30080 4 = leBytes 4 0x40400000 ∧ u.me.eng.queue.map (fun a => a.done) = [true])) := by decide +kernel

/-- R443: GROUP_CFG discards the open round, whose contributor has the fault. -/
theorem witness_FabricEvents_configures :
    let s := kgroup true 2 false 0
    let s1 := { s with gallery := { s.gallery with groups := [{ num := 0, valid := true, part := 0, members := 2, peers := 0, rounds := 0, open_ := [contrib 0 (some (0, 0)) 0], held := [] }] } }
    s1.hostUp = true ∧ (s1.gallery.group s1.gallery.groupSel).held = [] ∧ (s1.gallery.group s1.gallery.groupSel).open_.map Contribution.tile = [some (0, 0)] ∧
    after (exec (.groupCfg 0x8000000300000000) s1) (fun u =>
      decide ((u.gallery.group 0).members = 3 ∧ (u.gallery.group 0).open_ = [] ∧ u.me.eng.queue.map (fun a => a.fault) = [some (3, 4)])) = true := by decide +kernel


/-! ## Debugging and bring-up -/

/-- The kernel with a change of its debug state, its partition's window reached. -/
def kdbg (f : Debug → Debug) : State := on1 (booted kst) fun t => { t with dbg := f t.dbg }

theorem witness_DebugEvents_commands :
    ((kdbg id).window 0 = true ∧ ((kdbg id).part 0).tiles.getLsbD 0 = true ∧ ((kdbg id).tile 0).dbg.stopKind = 0) ∧
    (kst.window 0 = false ∧ ((kdbg id).part 0).tiles.getLsbD 1 = false) := by decide +kernel

/-- R449, R451, R453: stop tile asks; release and single issue let a stopped tile go on; a die halt asks a tile with a run. -/
theorem test_debug_commands :
    (after (exec (.dbgStopTile 0 0) (kdbg id)) fun u => (u.tile 0).dbg.askStop) ∧
    (after (exec (.dbgReleaseTile 0 0) (kdbg fun d => { d with stopKind := 3 })) fun u => decide ((u.tile 0).dbg.stopKind = 0 ∧ (u.tile 0).dbg.skip = true)) ∧
    (after (exec (.dbgSingleIssue 0 0) (kdbg fun d => { d with stopKind := 2 })) fun u => decide ((u.tile 0).dbg.stopKind = 0 ∧ (u.tile 0).dbg.single = true)) ∧
    (after (exec (.dbgHaltDie 0 0) (kdbg id)) fun u => (u.tile 0).dbg.askHalt && !(u.tile 1).dbg.askHalt && (u.die 0).halted) ∧
    (after (exec (.dbgReleaseDie 0 0) (kdbg fun d => { d with stopKind := 4 })) fun u => decide ((u.tile 0).dbg.stopKind = 0)) := by decide +kernel

/-- The kernel stopped, its dump address 0x20000, which the tables map to frame 3 of its partition. -/
def kdump : State := on1 (owned (kpt (booted kst))) fun t => { t with dbg := { t.dbg with stopKind := 3, dump := 0x20000 } }

theorem witness_DebugEvents_dump :
    kdump.window 0 = true ∧ (kdump.part 0).tiles.getLsbD 0 = true ∧ (kdump.tile 0).dbg.stopKind ≠ 0 ∧ (0x20000 : Nat) % 2 ^ 16 + 0xF000 ≤ 2 ^ 16 ∧
    (match kdump.privWalk 0 0x20000 with
      | .ok l => !(l.loc 0x20000).host && decide ((l.loc 0x20000).pa = 0x30000) && (kdump.homeCheck 0 (l.loc 0x20000) true).isNone | .error _ => false) = true ∧
    kdump.mem.wf = true ∧ kdump.migrating (frame3 0) = false ∧ (kdump.tile 0).k.infl = [] := by decide +kernel

/-- The kernel stopped, an image with the MAGIC of a dump at its dump address, 0x55 as its n1, and unused memory behind. -/
def kpatch (stop : Nat) : State :=
  on1 { kdump with mem := (kdump.mem.put 0x30000 (leBytes 4 0x43544B44)).put 0x30048 [0x55] } fun t => { t with dbg := { t.dbg with stopKind := stop } }

theorem witness_DebugEvents_patch :
    (kpatch 3).window 0 = true ∧ ((kpatch 3).part 0).tiles.getLsbD 0 = true ∧ ((kpatch 3).tile 0).dbg.stopKind ≠ 0 ∧
    leNat (((kpatch 3).privBytes 0 ((kpatch 3).tile 0).dbg.dump 0xF000).take 4) = 0x43544B44 ∧ ((kpatch 0).tile 0).dbg.stopKind = 0 := by decide +kernel

/-- A launch that may complete, divergence detection in a mode. -/
def kdiv (mode : BitVec 2) : State := onPart (kplace 1 fun l => { l with nextGang := 1, dirty := [] }) fun p => { p with rings := { p.rings with divMode := mode } }

/-- R457: in log mode the launch entry is written; with detection off nothing is. -/
theorem witness_DebugEvents_hash :
    (∀ mode ∈ [(0 : BitVec 2), 1, 3], ((kdiv mode).launch 0).map (fun l => (l.outcome.isSome, l.hashed)) = some (true, false)) ∧
    after (exec (.divergenceHash 0) (kdiv 1)) (fun u => decide ((u.part 0).rings.divWritten = 1 ∧ u.launches.map Launch.hashed = [true])) = true ∧
    after (exec (.divergenceHash 0) (kdiv 0)) (fun u => decide ((u.part 0).rings.divWritten = 0)) = true ∧
    (booted kst).originPart (.window 0) = some 0 := by decide +kernel

/-- Divergence detection in a mode, its log at 0x20100, its reference at 0x20200, its report at 0x20300, with bytes of the reference. -/
def klog (mode : BitVec 2) (ref : List Byte) : State :=
  onPart { kdiv mode with mem := (kdiv mode).mem.put 0x30200 ref } fun p =>
    { p with rings := { p.rings with divLog := 0x20100, divRef := 0x20200, divRpt := 0x20300, divStop := true } }
/-- The launch entry of that launch: kind 1 and zeros. -/
def refOf : List Byte := leBytes 8 (2 ^ 56) ++ leBytes 24 0
/-- Whether the partition reaches an address of the page that the tables map, with the frame its own. -/
def reaches (s : State) (va : Nat) : Bool :=
  match s.privWalk 0 va with
  | .ok l => !(l.loc va).host && (s.homeCheck 0 (l.loc va) true).isNone && !s.migrating (l.loc va)
  | .error _ => false

/-- A difference found already. -/
def kdiverged : State := onPart (klog 2 []) fun p => { p with diverged := true }
/-- The hypotheses that the clauses about one launch's hash share. -/
def hashable (s : State) : Bool :=
  decide ((s.launch 0).map (fun l => (l.id, l.outcome.isSome, l.hashed, l.part, l.dirty)) = some (0, true, false, 0, [])) && decide (s.mem.wf = true) &&
    reaches s 0x20100 && reaches s 0x20300

theorem witness_DebugEvents_compare : [klog 1 [], klog 2 refOf, klog 2 [], kdiverged].map hashable = [true, true, true, true] := by decide +kernel

/-- R457, R458: the log entry; a reference that is equal; one of no kind, the first to differ; and one after another has been reported. -/
theorem test_divergence :
    (after (exec (.divergenceHash 0) (klog 1 [])) fun u => decide (readCells u.mem.bytes 0x30100 9 = [0, 0, 0, 0, 0, 0, 0, 1, 0])) ∧
    (after (exec (.divergenceHash 0) (klog 2 refOf)) fun u => decide ((u.part 0).diverged = false ∧ (u.part 0).divNext = 1 ∧ u.launches.map Launch.divHeld = [false])) ∧
    (after (exec (.divergenceHash 0) (klog 2 [])) fun u => decide ((u.part 0).diverged = true ∧ (u.part 0).divNext = 0 ∧ u.launches.map Launch.divHeld = [true] ∧
      readCell u.mem.bytes 0x30300 = 4)) ∧
    (after (exec (.divergenceHash 0) kdiverged) fun u => decide ((u.part 0).rings.divMissed = 1)) := by decide +kernel

/-- R457: the entries of a launch with a dirty page that holds no POISON. -/
theorem witness_DebugEvents_entries :
    (placedLaunch 0).divEntry.bytes.length = 32 ∧ leNat ((placedLaunch 0).divEntry.bytes.take 8) = 2 ^ 56 + (placedLaunch 0).dirty.length := by decide +kernel

/-- A firmware image of a kind with no body, security version 2, signed with the private key 5 (the signatures made outside the model). -/
def signedImage (kind a b c : Nat) : List Byte :=
  leBytes 48 (0x4307BE1411B7FD216AE3B1B17E32D94C3896AC51A760B038000000000000000000000000000000020000000046574B31 + kind * 2 ^ 32) ++
  leBytes 48 0x8B6FBB4A44858469FF5B5A7BEDA0051724726CEDFC43E0D5BB99848F1D21AD5FB656FE7BFDE4E27DAE1F663BFC70C4C ++
  leBytes 48 0x6D0CED901D0DF039F93506A97F16AAEB01B19B5EC68A1620FB2D41D29FABEB2C0D77C2517624C1FBF4847F23DF6DC90A ++
  leBytes 48 a ++ leBytes 48 b ++ leBytes 24 c
/-- Images of the Gallery's firmware, a governor's, and the handler store. -/
def galleryImage : List Byte :=
  signedImage 1 0x5713F542D5EB852956427D59E922B3CA23E21D8B51F0349904663472E169B3F2BC3BBDF19C259E00C95BB79455C4997
    0xA26E9C35728504B8C797EF951C68C518F161CFBB57DCE3360D4B8B719485C5EF213F33A4C81156A6448AF8DAEA3627EC
    0x2DA6C416E008A7B53E360A14F23D2D41C2009D06BDA4293D
def governorImage : List Byte :=
  signedImage 2 0xD6E72548B93D68E3B0403696F5F99B08FC5669B7F518606C904663472E169B3F2BC3BBDF19C259E00C95BB79455C4997
    0xF82F8803DB6F28540262C212FF0DE934AA25C7396AD88709F1E7C1663C4AF6863C92ECF5213320074BC0AE3CAF3AF7C0
    0x879E4583C03C36C9AFBF33C5AF620D0D7C79EA5616EF459B
def storeImage : List Byte :=
  signedImage 3 0x2B60D702E15181AA168C9A0FEDB482BD04B0F2EF9BE6F246904663472E169B3F2BC3BBDF19C259E00C95BB79455C4997
    0xDD661BB2E3F4DBAF22DC9930C35B4FC71F688585E73CAD33DDA752EA2F0609723A4C3C94800A0EFC73338B6FD53E793A
    0x6BFAEC71C26CBEA3E6A0B5CCD82F6B346ECEF22C265FABE2
/-- The SHA-384 digest of their public key (made outside the model). -/
def signedRoot : List Byte :=
  leBytes 48 0xD6F68A594243A07D68B88B4162C0E784AD50AACF521C1395482D95E74B38144F50EC929C3D6F0612638126761F64E325
/-- Flash with that image alone, fuses with its key's digest and a minimum version of 1. -/
def bootOf : Boot := { Boot.reset with images := [galleryImage], rootHash := signedRoot, svnMin := vrep 3 1 }

/-- R470: the image is accepted; one of a lower version than the fused minimum, and no image at all, are not. -/
theorem witness_BootEvents_accepts : bootOf.accepts 0 = true ∧ bootOf.accepts 13 = false ∧ bootOf.accepts (dieOf 0 + 1) = false := by decide +kernel
/-- Flash with images of the Gallery, the governor of die 0 and the handler store. -/
def bootAll : Boot := { bootOf with images := galleryImage :: governorImage :: (List.replicate 11 [] ++ [storeImage]) }
theorem witness_BootEvents_acceptsDie : bootAll.accepts 1 = true := by decide +kernel
theorem witness_BootEvents_acceptsStore : bootAll.accepts 13 = true := by decide +kernel
theorem witness_BootEvents_acceptsAll : bootAll.accepts 0 = true := witness_BootEvents_accepts.1

/-- R475, R480: a clean row count keeps the tile; a failing row takes the lowest free spare and asks for a second march; a second failure excludes. -/
theorem witness_BootEvents_marched :
    let m := State.reset.me.margin
    m.state = 0 ∧ repaired m.repair 0x2F4 = false ∧ (vget m.repair 0).getLsbD 15 = false ∧
    m.marched 0 false (1, [0x2F4]) = ({ m with repair := vset m.repair 0 0x82F4 }, true) ∧
    m.marched 0 true (1, [0x2F4]) = ({ m with state := 2, repair := vset m.repair 0 0x82F4 }, false) ∧ m.marched 0 false (0, []) = (m, false) := by decide +kernel

/-- R480, 24 Table 24.7: a run whose STATUS is not zero; a second row that fails where a first is held already. -/
theorem witness_BootEvents_status :
    let m := State.reset.me.margin
    (m.marched 3 false (1, [0x2F4])).1.state = 2 ∧ (m.marched 3 false (1, [0x2F4])).1.repair = m.repair ∧
    (({ m with state := 5, before := 1 } : Margin).marched 3 false (0, [])).1.state = 1 ∧
    (m.marched 0 false (17, [0x2F4])).1.state = 2 ∧ repaired (m.marched 0 false (2, [0x2F4, 0xFFF])).1.repair 0xFFF = true := by decide +kernel

/-- 24 Table 24.5, Table 24.4: the two row bundles word by word, and the length of the code. -/
theorem test_marchCode :
    marchRow0 = [0x1C80061B, 0x50001400, 0x50002400, 0x0E07F043, 0x16045043] ∧ marchRow1 = [0x1C001403, 0x4E009804, 0x52002102] ∧
    marchCode.length = 135 := by decide +kernel

/-- R363: the launch record of a die's march is well formed. -/
theorem test_marchRecord : recordCode (marchRecord 11 96) false = none ∧ (recordOf (marchRecord 11 96)).extents = [96] := by decide +kernel

theorem test_version : ({ bootOf with svnMin := vrep 3 3 } : Boot).accepts 0 = false := by decide +kernel

theorem witness_BootEvents_report :
    ({ Boot.reset with firmwareOk := true } : Boot).firmwareOk = true ∧ State.reset.gallery.lost = false ∧ State.reset.boot.firmwareOk = false := by decide +kernel

/-- A service command with the device's serial number; whether one is signed is the configuration's to say (log 9). -/
def service (a : ServiceAction) : ServiceCommand := { serial := Config.serial, counter := 1, action := a, sig := 0 }
theorem witness_BootEvents_service : ∀ a ∈ [ServiceAction.raiseSvn 0 3, .returnTile 0], Config.serviceSigned (service a) = true →
    ({ State.reset with boot := { Boot.reset with firmwareOk := true } } : State).boot.firmwareOk = true ∧ (service a).serial = Config.serial ∧
    ({ State.reset with boot := { Boot.reset with firmwareOk := true } } : State).boot.svcCounter < (service a).counter := by
  intro a _ _
  exact ⟨rfl, rfl, Nat.zero_lt_one⟩


/-! ## Segments, causes and contexts -/

/-- A change of the segment of the first tile. -/
def onSeg (s : State) (f : Segment → Segment) : State := on1 s fun t => { t with seg := f t.seg }
/-- A class 4 event of cycle 0, taken after it. -/
def evOf (c : Check) : Event :=
  { check := c, takenAfter := 0, addr := 0, cycle := 0, slot := 0, locs := [], copyA := [], copyB := [], unit := 1, detail := 0, doubles := 0 }
/-- The kernel before an entry that is asked for: of a coverage, its segment plain or with a decision pending, a command held. -/
def kentry (cover : Nat) (m : SegMode) (held : List Cmd) : State :=
  onSeg (onRun (on1 kst fun t => { t with eng := { t.eng with held := held } }) fun r => { r with img := { r.img with coverage := cover } }) fun g =>
    { g with pendingEntry := true, mode := m, recorded := if m = .decide then some (evOf .checker) else none }

theorem witness_SegmentEvents_entry : ∀ s ∈ [kentry 0 .run [], kentry 1 .run [cmdOf (.xfer xfer64)], kentry 0 .decide []],
    s.me.priv.active = false ∧ s.me.clear = true ∧ s.me.entryNeeded = true ∧ s.me.seg.pendEvents = [] ∧ s.me.seg.verdict = none ∧ s.me.mx.queue = [] ∧ s.me.eng.lag = [] ∧ s.me.eng.queue = [] ∧
    s.me.eng.released = [] ∧ (s.me.seg.mode = .run ∨ (s.me.seg.mode = .decide ∧ s.me.seg.recorded.isSome = true)) := by
  decide +kernel

/-- R418, R426: an entry frees what was held, freezes 4 clk of a covered kernel, and gives a pending decision verdict 0x4. -/
theorem test_entry :
    (after (exec .segmentEntry (kentry 0 .run [])) fun u => decide (u.me.seg.number = (kentry 0 .run []).me.seg.number + 1 ∧ vget u.me.counters.freeze 3 = 0 ∧ u.me.seg.chk.isSome = true)) ∧
    (after (exec .segmentEntry (kentry 1 .run [cmdOf (.xfer xfer64)])) fun u => decide (u.me.eng.held = [] ∧ u.me.eng.queue.length = 1 ∧ vget u.me.counters.freeze 3 = 4)) ∧
    (after (exec .segmentEntry (kentry 0 .decide [])) fun u => decide (u.me.seg.lastVerdict = 4 ∧ u.me.seg.mode = .run)) := by decide +kernel

/-- A decision pending on a POISON event whose issue has not been reached again. -/
theorem witness_SegmentEvents_decide :
    (kentry 0 .decide []).me.seg.recorded.map Event.check = some .checker ∧
    (let s := onSeg (kentry 0 .decide []) fun g => { g with recorded := some (evOf .poison), reached := false }
     s.me.entryNeeded = true ∧ s.me.seg.reached = false ∧ after (exec .segmentEntry s) (fun u => decide (u.me.seg.lastVerdict = 4)) = true) := by decide +kernel

/-- The kernel with n1 changed in its open segment, the line at 0x40 logged, and an event due. -/
def kevent (m : SegMode) (log : List Undo) : State :=
  onSeg (withSpad (withN (on1 kst fun t => { t with mx := { t.mx with cyc := 1 } }) 1 (validWord 77)) 0x40 [9]) fun g => { g with mode := m, pendEvents := [evOf .checker], undo := log }
/-- The logged line: 7 in its first byte. -/
def undoOf : Undo := { line := 1, bytes := 7 :: List.replicate 63 0, poison := List.replicate 8 false }

theorem witness_SegmentEvents_rewind :
    (∀ s ∈ [kevent .run [], kevent .run [undoOf], kevent .unprot []], s.me.live = true ∧ s.me.seg.pendEvents = [evOf .checker] ∧ (evOf .checker).takenAfter < s.me.mx.cyc ∧
      s.me.seg.events < 2 ∧ s.me.seg.chk.isSome = true ∧ s.me.spad.wf = true) ∧ undoOf.bytes.length = 64 := by decide +kernel

/-- R423, R426: a rewind restores register and line, and spends 8 clk and one for the line; an unprotected segment has verdict 0xC. -/
theorem test_rewind :
    (after (exec .segmentRewind (kevent .run [undoOf])) fun u => decide (vget u.me.k.n 1 = validWord 0 ∧ readCell u.me.spad.bytes 0x40 = 7 ∧ u.me.seg.mode = .decide ∧
      u.me.seg.rewinds = 1 ∧ u.me.margin.clks = 9)) ∧
    (after (exec .segmentRewind (kevent .unprot [])) fun u => decide (u.me.seg.lastVerdict = 0xC)) := by decide +kernel

/-- The kernel with a verdict reached, the handler to be told of a fatal one or not. -/
def kverdict (code : Nat) (told : Bool) : State :=
  onSeg (on1 kst fun t => { t with mx := { t.mx with cyc := 1 }, priv := { t.priv with errTrapEn := told } }) fun g =>
    { g with mode := .decide, verdict := some (code, evOf .checker), recorded := some (evOf .checker) }

theorem witness_SegmentEvents_verdict :
    (∀ c ∈ [(1, false), (8, true), (8, false)], (kverdict c.1 c.2).me.live = true ∧ (kverdict c.1 c.2).me.seg.mode = .decide ∧
      (kverdict c.1 c.2).me.seg.verdict = some (c.1, evOf .checker) ∧ (evOf .checker).takenAfter < (kverdict c.1 c.2).me.mx.cyc ∧ (kverdict c.1 c.2).me.stopDue = none) ∧
    (let s := kverdict 8 false
     s.me.priv.errTrapEn = false ∧ (s.part (s.partOf s.cur)).triage = false ∧ s.me.run.map (fun r => (r.launch, r.gang)) = some (0, 0) ∧
     s.launches.map (fun l => (l.ending, l.gangs.map fun g => (g.index, g.ranks))) = [(none, [(0, [.onTile 0])])]) := by decide +kernel

/-- R427, R428, R430: a transient verdict lets the tile run; a fatal one waits for the handler, or ends the launch and quarantines. A transient one
compares voltages with VCEIL, which the configuration leaves open. -/
theorem test_verdict :
    (after (exec .deciderVerdict (kverdict 8 true)) fun u => decide (u.me.seg.fatal.isSome = true ∧ u.me.priv.async.map Async.cause = [0x23])) ∧
    (after (exec .deciderVerdict (kverdict 8 false)) fun u => decide (u.me.run = none ∧ u.me.margin.state = 3 ∧ u.launches.map (fun l => l.ending.map Ending.status) = [some 3])) := by
  decide +kernel

/-- The kernel with a change of its privileged state. -/
def kpriv (f : Priv → Priv) : State := on1 kst fun t => { t with priv := f t.priv }
/-- An after-issue cause 0x10 of cycle 3, and an asynchronous one. -/
def afterOf : After := { cause := 0x10, sub := 0, slot := 2, value := 5, addr := 0x40, cycle := 3 }
def asyncOf (c : Nat) : Async := { cause := c, value := 6, addr := 0, cycle := 0, sub := 0 }
/-- The kernel after a bundle that passed the last address of a level, 0x30. -/
def kpassed : State := on1 kst fun t => { t with k := { t.k with pos := { Position.fresh 0x20 with mode := .cont, choice := .passed 0x30 4 } } }
/-- The kernel with a firmware miss of its copy engine. -/
def kwalk : State := on1 kst fun t => { t with xlat := { t.xlat with copyMiss := some (missOf 1) } }

theorem witness_BoundaryTraps_causes :
    ((kpriv fun p => { p with after := [afterOf] }).me.trapDue = true ∧ afterOf.cause < 0x20) ∧
    (kpassed.me.trapDue = true ∧ kpassed.me.running = true ∧ kpassed.me.priv.after = [] ∧ kpassed.me.resolve.2 = some { addr := 0x20, cycle := 4, last := 0x30 }) ∧
    (∀ c ∈ [0x20, 0x21, 0x23], let s := kpriv fun p => { p with async := [asyncOf c] }
      s.me.trapDue = true ∧ s.me.priv.after = [] ∧ s.me.resolve.2 = none ∧ s.me.stopDue = none ∧ s.me.asyncDue = some (asyncOf c)) ∧
    (kwalk.me.trapDue = true ∧ kwalk.me.priv.after = [] ∧ kwalk.me.resolve.2 = none ∧ kwalk.me.stopDue = none ∧ kwalk.me.asyncDue = none ∧
      kwalk.me.xlat.firmware = some (missOf 1, true)) := by decide +kernel

/-- R346, R348: CAUSE, TRAP_ADDR, the handler's entry at 64 × CAUSE and 6 clk. -/
theorem test_causes :
    (after (exec .trapTaken (kpriv fun p => { p with after := [afterOf] })) fun u => decide (u.me.priv.active = true ∧ u.me.priv.trap.cause = 0x10 ∧ u.me.priv.trap.addr = 0x40 ∧
      u.me.priv.shadow.pos.addr = 0x400 ∧ u.me.margin.clks = 6)) ∧
    (after (exec .trapTaken kpassed) fun u => decide (u.me.priv.trap.cause = 1 ∧ u.me.priv.trap.sub = 0xB ∧ u.me.priv.trap.value = 0x30 ∧ u.me.priv.trap.addr = 0x20)) ∧
    (after (exec .trapTaken (kpriv fun p => { p with async := [asyncOf 0x21] })) fun u => decide (u.me.priv.trap.async = true ∧ u.me.priv.shadow.pos.addr = 0x840 ∧ u.me.priv.async = [])) ∧
    (after (exec .trapTaken kwalk) fun u => decide (u.me.priv.walkEntry = true ∧ u.me.xlat.walkVa = 0x20000 ∧ u.me.priv.shadow.pos.addr = 0xC00)) := by decide +kernel

/-- R344: the watchdog's limit of 1 is 1024 ns; it names the semaphore. -/
theorem witness_BoundaryTraps_watchdog :
    (let s := kpriv fun p => { p with wdogEn := true, wdogLimit := 1, wdogNs := 1024, waitSem := some 9 }
     s.me.running = true ∧ s.me.priv.wdogEn = true ∧ s.me.priv.wdogLimit ≠ 0 ∧ s.me.priv.wdogLimit.toNat * 1024 ≤ s.me.priv.wdogNs ∧ s.me.priv.waitSem = some 9 ∧
     after (exec .semaphoreWaitWatchdog s) (fun u => decide (u.me.priv.async.map (fun a => (a.cause, a.value)) = [(0x21, 9)])) = true) ∧
    kst.me.priv.wdogEn = false := by decide +kernel

theorem witness_BoundaryTraps_stops :
    ([fun d => { d with brkCode := some 5 }, fun d => { d with single := true }, fun d => { d with askStop := true }, fun d => { d with askHalt := true },
      fun (d : Debug) => { d with comps := vset d.comps 0 { en := true, cyc := true, addr := 0, cycle := 0 } }].all fun (f : Debug → Debug) =>
      let s := kdbg f
      decide (s.me.dbg.stopKind = 0 ∧ s.me.running = true ∧ s.me.earlierItem = false ∧ s.me.aboutToIssue = some 0 ∧ s.me.k.cycle = 0)) = true ∧
    (kdbg fun d => { d with stopKind := 3 }).me.resident = true := by decide +kernel

/-- R449: the STOP_KIND of each, in the order of 22 Table 22.1. -/
theorem test_stops :
    [(1, fun d => { d with brkCode := some 5 }), (5, fun d => { d with single := true }), (3, fun d => { d with askStop := true }), (4, fun d => { d with askHalt := true }),
      (2, fun (d : Debug) => { d with comps := vset d.comps 0 { en := true, cyc := true, addr := 0, cycle := 0 } })].map (fun (c : Nat × (Debug → Debug)) =>
      after (exec .debugStop (kdbg c.2)) fun u => decide (u.me.dbg.stopKind = c.1)) = List.replicate 5 true := by decide +kernel

/-- Comparator 3 alone, the lower ones of another address, off, or of another cycle; and a stop asked for while a released single issue is still to be made. -/
def kcomp : State := kdbg fun d => { d with comps := vmk 4 fun k => { en := k ≠ 1, cyc := k = 2, addr := if k = 0 then 8 else 0, cycle := if k = 2 then 7 else 0 } }
theorem witness_BoundaryTraps_comparator :
    (kcomp.me.dbg.stopKind = 0 ∧ kcomp.me.running = true ∧ kcomp.me.earlierItem = false ∧ kcomp.me.aboutToIssue = some 0 ∧ kcomp.me.dbg.skip = false ∧
      kcomp.me.dbg.single = false ∧ kcomp.me.dbg.brkCode = none ∧ kcomp.me.dbg.askStop = false ∧ kcomp.me.dbg.askHalt = false) ∧
    after (exec .debugStop kcomp) (fun u => decide (u.me.dbg.stopKind = 2 ∧ u.me.dbg.stopValue = 3)) = true ∧
    [(3, fun d => { d with single := true, skip := true, askStop := true }), (4, fun (d : Debug) => { d with single := true, skip := true, askHalt := true })].map
      (fun (c : Nat × (Debug → Debug)) => after (exec .debugStop (kdbg c.2)) fun u => decide (u.me.dbg.stopKind = c.1)) = [true, true] := by decide +kernel

/-- The handler with a ctxsave under way. -/
def hsave : State := on1 hst fun t => { t with priv := { t.priv with saving := some 0xABCD } }

theorem witness_ContextEvents_save :
    hsave.me.priv.saving = some 0xABCD ∧ hsave.gangDrained hsave.cur = true ∧ hsave.me.spad.wf = true ∧ hst.me.priv.saving = none := by decide +kernel

/-- The handler with a transfer of 64 bytes between the scratchpad and a global address. -/
def hectl (minor va : Nat) : State :=
  on1 (owned (kpt { hst with mem := hst.mem.put 0x30040 [0x21] })) fun t =>
    { t with spad := t.spad.put 0 [0x43], priv := { t.priv with ctxState := 0b10, ectl := [{ minor := minor, va := va, len := 64, moved := 0, addr := 0, cycle := 0, fault := none }] } }
/-- What its pages are. -/
def ectlAt (minor va : Nat) : Option (List (Loc × Nat)) × Nat :=
  match (hectl minor va).ectlPages ((hectl minor va).partOf (hectl minor va).cur) { minor := minor, va := va, len := 64, moved := 0, addr := 0, cycle := 0, fault := none } with
  | .ok l => (some l, 0)
  | .error f => (none, f.1)

theorem witness_ContextEvents_ectl :
    ectlAt 2 0x20040 = (some [({ host := false, pa := 0x30040 }, 64)], 0) ∧ ectlAt 3 0x20040 = (some [({ host := false, pa := 0x30040 }, 64)], 0) ∧
    ectlAt 3 0x30040 = (none, 1) ∧ (hectl 3 0x30040).me.priv.ef.standing = false ∧ (hectl 2 0x20040).mem.wf = true ∧ (hectl 3 0x20040).me.spad.wf = true ∧
    (∀ minor ∈ [2, 3], (hectl minor 0x20040).me.inp.stuck = [] ∧ (hectl minor 0x20040).heldAt .write (frame3 0x40) = false ∧
      (hectl minor 0x20040).heldAt .read (frame3 0x40) = false) := by decide +kernel

/-- R359: bytes out, bytes in, and a fault that the handler's registers show. -/
theorem test_ectl :
    (after (exec .ectlTransferComplete (hectl 2 0x20040)) fun u => decide (readCell u.mem.bytes 0x30040 = 0x43 ∧ u.me.priv.ectl = [])) ∧
    (after (exec .ectlTransferComplete (hectl 3 0x20040)) fun u => decide (readCell u.me.spad.bytes 0 = 0x21 ∧ u.me.priv.ectl = [])) ∧
    (after (exec .ectlTransferComplete (hectl 3 0x30040)) fun u => decide (u.me.priv.ef.kind = 1 ∧ u.me.priv.ef.handler = true ∧ u.me.priv.ef.va = 0x30040 ∧ u.me.priv.ectl.length = 1)) := by
  decide +kernel

/-- One page of 64 bytes, and four pages in a row: the byte to which each byte of the transfer goes. -/
def onePage (n : Nat) : List (Loc × Nat) := [({ host := false, pa := 0x30000 }, n)]
def fourPages : List (Loc × Nat) := (List.range 4).map fun k => ({ host := false, pa := 0x30000 + 0x10000 * k }, 0x10000)
theorem pageByte_onePage (n j : Nat) : pageByte (onePage n) j = if j < n then some (0x30000 + j) else none := by
  simp [pageByte, onePage]
theorem pageByte_fourPages (j : Nat) : pageByte fourPages j = if j < 0x40000 then some (0x30000 + j) else none := by
  have h : fourPages = [({ host := false, pa := 0x30000 }, 0x10000), ({ host := false, pa := 0x40000 }, 0x10000), ({ host := false, pa := 0x50000 }, 0x10000),
    ({ host := false, pa := 0x60000 }, 0x10000)] := by decide
  rw [h]
  simp only [pageByte]
  repeat' split
  all_goals first | omega | (simp only [Option.some.injEq]; omega) | rfl

/-- The handler with a transfer at the start of the page at 0x20000, which the tables map with the three behind it to frames 3 to 6 of its partition. -/
def hmoves (minor len : Nat) : State :=
  let s := owned (kpt hst)
  let m := (List.range 3).foldl (fun (m : Store) k => m.put (0x104018 + 8 * k) (leBytes 8 (0x4001F + 0x10000 * k))) s.mem
  let s1 := onDie { s with mem := m } fun d =>
    { d with frames := (List.range 3).foldl (fun fs k => putFrame fs { Frame.fresh (4 + k) with owner := 0 }) d.frames }
  on1 s1 fun t => { t with priv := { t.priv with ctxState := 0b10, ectl := [{ minor := minor, va := 0x20000, len := len, moved := 0, addr := 0, cycle := 0, fault := none }] } }
theorem witness_ContextEvents_moves : ∀ c ∈ [(0, 0xF000), (1, 0xF000), (2, 64), (3, 64), (4, 0x40000), (5, 0x40000)],
    let s := hmoves c.1 c.2
    let ls := if c.2 = 0x40000 then fourPages else onePage c.2
    s.me.priv.ectl.map (fun e => (e.minor, e.len, e.fault)) = [(c.1, c.2, none)] ∧
    (s.me.priv.ectl.map fun e => match s.ectlPages (s.partOf s.cur) e with | .ok l => some l | .error _ => none) = [some ls] ∧
    (∀ l ∈ ls, l.1.host = false ∧ s.heldAt (if c.1 % 2 = 0 then .write else .read) l.1 = false) ∧
    s.me.inp.stuck = [] ∧ s.mem.wf = true ∧ s.me.spad.wf = true := by decide +kernel

/-- The kill of the work item with code n2, 0x12345. -/
def killOf : Instr := .ectlKill { g := 0, a := 63, b := 2 }
def hkill : State := withN (on1 (inSlot hst .q) fun t => { t with priv := { t.priv with ctxState := 0b10 } }) 2 (validWord 0x12345)

theorem witness_ContextEvents_kill :
    hkill.me.priv.active = true ∧ hkill.unhindered killOf ∧ hkill.steady ∧ hkill.on killOf ∧ (hkill.env killOf).joined = .valid ∧ hkill.me.seg.fatal = none ∧
    hkill.me.run.map (fun r => (r.launch, r.gang)) = some (0, 0) ∧ hkill.launches.map (fun l => (l.ending, l.gangs.map fun g => (g.index, g.ranks))) = [(none, [(0, [.onTile 0])])] := by
  have h : runsB hkill killOf = true := by decide +kernel
  simp only [runsB, Bool.and_eq_true] at h
  exact ⟨by decide +kernel, free_of h.1.1, (calm_of h.1.2).1, h.2, by decide +kernel, by decide +kernel, by decide +kernel, by decide +kernel⟩

/-- R359: the launch ends with STATUS 2 and the low 16 bits of B. -/
theorem test_kill : after (exec killOf hkill) (fun u => decide (u.me.run = none ∧ u.me.priv.ctxState = 3 ∧
    u.launches.map (fun l => l.ending.map fun e => (e.status, e.killCode)) = [some (2, 0x2345)])) = true := by decide +kernel

/-- R349, R342: RESUME moves the kernel in MODE 0b00 only; the log gives its oldest entry and LOST. -/
theorem witness_ContextEvents_registers :
    (hst.tile 0).priv.active = true ∧ (kst.tile 0).priv.active = false ∧
    [(0x80 : Word), 0x80000000080].map (fun v => after (exec (.resumeWrite 0 v) hst) fun u => decide ((u.tile 0).k.pos.addr = if v = 0x80 then 0x80 else 0)) = [true, true] ∧
    after (exec .signalLog (kpriv fun p => { p with sigLog := [sigEntry], sigLost := true })) (fun u =>
      decide (u.hostData = leBytes 8 0xC000000500000041 ∧ u.me.priv.sigLog = [] ∧ u.me.priv.sigLost = false)) = true := by decide +kernel

/-! ## Frames, checks, encoding and the step -/

/-- Every operation of a list issues, on or off, and meets a further condition. -/
theorem issues_all {s : State} {l : List Instr} {p : Instr → Bool} (h : (l.all fun i => freeB s i && calmB s && p i) = true) :
    ∀ i ∈ l, s.unhindered i ∧ s.calm ∧ p i = true := by
  intro i hi
  have := List.all_eq_true.1 h i hi
  simp only [Bool.and_eq_true] at this
  exact ⟨free_of this.1.1, calm_of this.1.2, this.2⟩

/-- An addition on and off, a compare, and a push without a register. -/
def framed : List Instr := [.add sa, .add { sa with g := 1 }, .cmpS64 (sp 0 0), .mov { g := 0, d := 63, a := 1 }]

theorem witness_RegisterFrame : (∀ i ∈ framed, kst.unhindered i ∧ kst.calm ∧ i.isSlot = true) ∧
    ∀ i ∈ framed, (∀ f, i ≠ .rft f) ∧ (∀ f, i ≠ .ctxload f) ∧ (∀ f, i ≠ .ectlKill f) := by
  refine ⟨issues_all (by decide +kernel), ?_⟩
  intro i hi
  simp only [framed, List.mem_cons, List.not_mem_nil, or_false] at hi
  rcases hi with rfl | rfl | rfl | rfl <;> exact ⟨nofun, nofun, nofun⟩

/-- The kernel before hunbind of h1, a bind of it and one of h2 in flight. -/
def binding : State :=
  on1 (inSlot kst .m0) fun t => { t with k := { t.k with infl := [{ slot := .m0, issued := 0, last := 39, res := .bind 1 shape40, place := none },
    { slot := .m0, issued := 0, last := 39, res := .bind 2 shape40, place := none }] } }
theorem witness_RegisterFrame_hunbind : ∀ i ∈ [Instr.hunbind { g := 0, h := 1 }], binding.unhindered i ∧ binding.calm ∧ binding.on i ∧
    (i.isSlot && !binding.me.priv.active) = true :=
  runs_all (p := fun i => i.isSlot && !binding.me.priv.active) (by decide +kernel)

/-- R109: the bind of h1 is discarded, that of h2 stays. -/
theorem test_hunbind : after (exec (.hunbind { g := 0, h := 1 }) binding) (fun u =>
    decide ((u.me.k.infl.map InFlight.res).filter (fun r => decide (r ≠ .unbind 1)) = [.bind 2 shape40])) = true := by decide +kernel

/-- A load of four bytes, which stores nothing, and a store of them. -/
theorem witness_MemoryFrame : (∀ i ∈ [Instr.ldZ32 ma, .stZ32 ma], km.unhindered i ∧ km.calm ∧ i.isSlot = true) ∧
    (∀ i ∈ [Instr.ldZ32 ma, .stZ32 ma], (∀ f, i ≠ .rft f) ∧ (∀ f, i ≠ .ectlKill f) ∧ (∀ f, i ≠ .wrctl f) ∧ (∀ f, i ≠ .setctl f) ∧
      (∀ f, i ≠ .clrctl f)) ∧
    storeShape (.ldZ32 ma) = none ∧ vectorStoreShape km (.ldZ32 ma) = none ∧ localAtomic (.ldZ32 ma) = none := by
  refine ⟨issues_all (by decide +kernel), ?_, by decide +kernel, by decide +kernel, by decide +kernel⟩
  intro i hi
  simp only [List.mem_cons, List.not_mem_nil, or_false] at hi
  rcases hi with rfl | rfl <;> exact ⟨nofun, nofun, nofun, nofun, nofun⟩

/-- An operation that names no register of a system unit, and the semaphore wait, which does. -/
def systemFramed : List Instr := [.nop, .chkctl { g := 0, cmp := true }, semw 0]

theorem witness_SystemFrame : (∀ i ∈ systemFramed, sem3.unhindered i ∧ sem3.calm ∧ (i.isSlot && !sem3.me.priv.active && decide (i.streamReg ≠ some 0) &&
      decide (specStream (destSpec i.dest) ≠ some 0) && (sem3.sole i).sources.isEmpty) = true) ∧
    ∀ i ∈ systemFramed, (∀ f, i ≠ .rft f) ∧ (∀ f, i ≠ .ctxload f) ∧ (∀ f, i ≠ .ectlKill f) ∧ (∀ f, i ≠ .hunbind f) ∧
      (∀ f, i ≠ .wrctl f) ∧ (∀ f, i ≠ .setctl f) ∧ (∀ f, i ≠ .clrctl f) ∧ (∀ f, i ≠ .xlinv f) ∧ (∀ f, i ≠ .rdctl f) := by
  refine ⟨issues_all (by decide +kernel), ?_⟩
  intro i hi
  simp only [systemFramed, List.mem_cons, List.not_mem_nil, or_false] at hi
  rcases hi with rfl | rfl | rfl <;> exact ⟨nofun, nofun, nofun, nofun, nofun, nofun, nofun, nofun, nofun⟩

/-- Operations under g1, which is false at reset: one and two cycles of latency, a vector, a guard pair. -/
theorem witness_OffOperations :
    (∀ i ∈ [Instr.add { sa with g := 1 }, .mul { sa with g := 1 }, .cmpS64 (sp 1 0), .trap { g := 1, imm := 5 }],
      kst.unhindered i ∧ kst.calm ∧ ¬ kst.on i ∧ i.isSlot = true) ∧
    (∀ i ∈ [Instr.vand { g := 1, m := 0, d := 3, a := 1, b := 2 }],
      (inSlot kst .v0).unhindered i ∧ (inSlot kst .v0).calm ∧ ¬ (inSlot kst .v0).on i ∧ i.isSlot = true) ∧
    pushes (.add { sa with g := 1 }) = some (false, 1) ∧ pushes (.vand { g := 1, m := 0, d := 3, a := 1, b := 2 }) = some (true, 2) ∧
    writesPair (.cmpS64 (sp 1 0)) = some 7 ∧ atomicOf (.add { sa with g := 1 }) = none :=
  ⟨off_all (p := fun i => i.isSlot) (by decide +kernel), off_all (p := fun i => i.isSlot) (by decide +kernel), by decide +kernel, by decide +kernel,
    by decide +kernel, by decide +kernel⟩

/-- An addition whose G field is beyond the sixteen guards' encodings is impossible; one whose result goes to a specifier that Table 5.5 marks
illegal for D is not. -/
def badDest : Instr := .add { g := 0, k := false, d := 62, a := 1, b := 2 }

theorem witness_IssueTraps_word : badDest.isSlot = true ∧ (∀ f, badDest ≠ .rft f) ∧ kst.me.priv.active = false ∧
    badDest.wordFault kst.curExt.isSome = some 8 :=
  ⟨rfl, nofun, by decide +kernel, by decide +kernel⟩

/-- R343: the trap registers of that bundle: cause 1, sub-cause 8, slot S0, the word. -/
theorem test_wordTrap : after (exec badDest kst) (fun u => decide (u.me.priv.trap.cause = 1 ∧ u.me.priv.trap.sub = 8 ∧ u.me.priv.trap.slot = 0 ∧
    u.me.priv.trap.value = 0x0403E042 ∧ u.me.priv.active = true ∧ u.me.priv.shadow.pos.addr = 0x40)) = true := by decide +kernel

/-- Register n31 of an image that declares sixteen registers. -/
def few : State := on1 kst fun t => { t with run := t.run.map fun r => { r with img := { r.img with nregs := 16 } } }
def toN31 : Instr := .add { g := 0, k := false, d := 31, a := 1, b := 2 }

theorem witness_IssueTraps_check : toN31.isSlot = true ∧ (∀ f, toN31 ≠ .rft f) ∧ few.me.priv.active = false ∧ toN31.wordFault few.curExt.isSome = none ∧
    (checkAll (aloneBatch toN31 (slotSem toN31) few) few).cands = [{ cause := 2, sub := 1, slot := 0, value := 31 }] ∧
    (checkAll (aloneBatch toN31 (slotSem toN31) few) few).short = [] ∧ boundCands few.me few.curHdr = [] ∧ few.curSlot.idx = 0 :=
  ⟨rfl, nofun, by decide +kernel, by decide +kernel, by decide +kernel, by decide +kernel, by decide +kernel, by decide +kernel⟩

theorem witness_IssueTraps_privileged : (inSlot kst .c).me.priv.active = false ∧
    (∀ i ∈ [Instr.wrctl { g := 0, cr := 0x110, a := 32 }, .setctl { g := 0, cr := 0x110, a := 32 }, .clrctl { g := 0, cr := 0x110, a := 47 }],
      i.wordFault (inSlot kst .c).curExt.isSome = none) ∧
    (Instr.rdctl { g := 0, d := 63, cr := 0x100 }).wordFault kst.curExt.isSome = none ∧
    boundCands (inSlot kst .c).me (inSlot kst .c).curHdr = [] ∧ boundCands kst.me kst.curHdr = [] := by decide +kernel

/-- An address at the end of the declared scratchpad, read from the newest queue age. -/
def beyond : State := on1 (inSlot kst .m0) fun t => t.setCtx { t.ctx with sq := pushWindow t.ctx.sq (validWord 0x5F0004) }
def ldBeyond : FormMA := { g := 0, bm := 0, p := false, d := 63, a := 32, b := 62 }

theorem witness_IssueTraps_bound : beyond.me.priv.active = false ∧ beyond.on (.ldZ64 ldBeyond) ∧
    (Instr.ldZ64 ldBeyond).wordFault beyond.curExt.isSome = none ∧ (beyond.env (.ldZ64 ldBeyond)).a.tag = .valid ∧
    boundCands beyond.me beyond.curHdr = [] ∧ beyond.me.img.scratch < (beyond.env (.ldZ64 ldBeyond)).a.v.toNat / 8 * 8 + 8 := by
  refine ⟨by decide +kernel, ?_, by decide +kernel, by decide +kernel, by decide +kernel, by decide +kernel⟩
  show opOn beyond.curHdr beyond.me.ctx (.ldZ64 ldBeyond) = true
  decide +kernel

/-- R343, R345: the first byte beyond the declared size. -/
theorem test_boundTrap : after (exec (.ldZ64 ldBeyond) beyond) (fun u => decide (u.me.priv.trap.cause = 2 ∧ u.me.priv.trap.sub = 6 ∧
    u.me.priv.trap.value = 0x5F0000 ∧ u.me.priv.shadow.pos.addr = 0x80)) = true := by decide +kernel

theorem witness_IssueTraps_handler : hc.curSlot = .c ∧ hc.me.priv.active = true ∧
    ∀ i ∈ [Instr.trap { g := 0, imm := 7 }, .sys { g := 0, imm := 7 }, .brk { g := 0, imm := 7 }], i.wordFault hc.curExt.isSome = none := by
  decide +kernel

/-- Operations that use n1, which holds POISON: a carry, a compare, a loop, a command, a store's address; a store's datum; a handler's compare. -/
theorem witness_IssueTraps_poison :
    (∀ i ∈ [Instr.addo sc, .cmpS64 (sp 0 0)], (poisonIn kst).unhindered i ∧ (poisonIn kst).calm ∧ (poisonIn kst).on i ∧
      decide (((poisonIn kst).env i).joined = .poison badN1) = true) ∧
    (∀ i ∈ [loopN], (poisonIn kc).unhindered i ∧ (poisonIn kc).calm ∧ (poisonIn kc).on i ∧
      decide (((poisonIn kc).env i).a.tag = .poison badN1) = true) ∧
    (∀ i ∈ [Instr.fence { g := 0, a := 1 }], (poisonIn (inSlot kst .x)).unhindered i ∧ (poisonIn (inSlot kst .x)).calm ∧ (poisonIn (inSlot kst .x)).on i ∧
      decide (((poisonIn (inSlot kst .x)).env i).joined = .poison badN1) = true) ∧
    (∀ i ∈ [Instr.stZ64 ma], (poisonIn (inSlot kst .m0)).unhindered i ∧ (poisonIn (inSlot kst .m0)).calm ∧ (poisonIn (inSlot kst .m0)).on i ∧
      decide (((poisonIn (inSlot kst .m0)).env i).address.tag = .poison badN1 ∧ i.postInc = false) = true) ∧
    (∀ i ∈ [Instr.stZ64 { ma with d := 2 }], (withN km 2 { v := 0, tag := .poison badN1 }).unhindered i ∧ (withN km 2 { v := 0, tag := .poison badN1 }).calm ∧
      (withN km 2 { v := 0, tag := .poison badN1 }).on i ∧
      decide (((withN km 2 { v := 0, tag := .poison badN1 }).env i).address.tag = .valid ∧ ((withN km 2 { v := 0, tag := .poison badN1 }).env i).d.tag = .poison badN1) = true) ∧
    (∀ i ∈ [Instr.cmpZ64 (sp 0 0)], (poisonIn hst).unhindered i ∧ (poisonIn hst).calm ∧ (poisonIn hst).on i ∧
      ((poisonIn hst).me.priv.active && !(poisonIn hst).me.priv.parked && decide (((poisonIn hst).env i).joined = .poison badN1)) = true) :=
  ⟨runs_all (p := fun i => decide (((poisonIn kst).env i).joined = .poison badN1)) (by decide +kernel),
   runs_all (p := fun i => decide (((poisonIn kc).env i).a.tag = .poison badN1)) (by decide +kernel),
   runs_all (p := fun i => decide (((poisonIn (inSlot kst .x)).env i).joined = .poison badN1)) (by decide +kernel),
   runs_all (p := fun i => decide (((poisonIn (inSlot kst .m0)).env i).address.tag = .poison badN1 ∧ i.postInc = false)) (by decide +kernel),
   runs_all (p := fun i => decide (((withN km 2 { v := 0, tag := .poison badN1 }).env i).address.tag = .valid ∧
     ((withN km 2 { v := 0, tag := .poison badN1 }).env i).d.tag = .poison badN1)) (by decide +kernel),
   runs_all (p := fun i => (poisonIn hst).me.priv.active && !(poisonIn hst).me.priv.parked && decide (((poisonIn hst).env i).joined = .poison badN1)) (by decide +kernel)⟩

/-- R59, R360: the event of a compare of POISON, and the park of a handler. -/
theorem test_poison :
    (after (exec (.cmpS64 (sp 0 0)) (poisonIn kst)) fun u =>
      decide (u.me.seg.pendEvents.map (fun ev => (ev.check, ev.unit, ev.detail)) = [(.poison, 6, 0x30040)] ∧ u.me.k.g = kst.me.k.g)) ∧
    (after (exec (.cmpZ64 (sp 0 0)) (poisonIn hst)) fun u => decide (u.me.priv.parked = true ∧ u.me.priv.hfault = 5)) := by decide +kernel

theorem witness_EncodeDecode : (Instr.add sa).wellFormedIn .S false = true ∧ (Instr.vfma { t := 1, g := 0, m := 1, d := 3, a := 1, b := 2 }).wellFormedIn .V true = true ∧
    presentsOne (Header.ofWord 0x1C000001) .s0 := by
  refine ⟨by decide +kernel, by decide +kernel, by decide +kernel, by decide +kernel, by decide +kernel, by decide +kernel, by decide +kernel,
    by decide +kernel, by decide +kernel⟩

/-- A word that `decodesAll` accepts. -/
theorem decodes_of {k : SlotKind} {w : Insn} {i : Instr} (h : decodesAll k [(w, i)] = true) : decodeSlot k w = .ok i := by
  simp only [decodesAll, List.all_cons, List.all_nil, Bool.and_true] at h
  split at h
  · next j e => rw [e, of_decide_eq_true h]
  · cases h

/-- The bundle of the placed addition is the next issue of a kernel, and the one of the placed control write that of a handler. -/
theorem witness_StepRunsDecodedBundle_kernel :
    let s1 := { kst with cur := 0, agenda := [] }
    kst.stopped = false ∧ kst.agenda = (0, .bundleIssue) :: [] ∧ kst.phys = [] ∧ s1.kernelReady ∧ s1.me.entryNeeded = false ∧ s1.me.k.pos = Position.fresh 0 ∧
    s1.oneWord 0 (.add sa) ∧ s1.me.spad.anyPoison 0 8 = false ∧ boundCands s1.me kst.curHdr = [] ∧ s1.me.inp.upsets = [] ∧ s1.me.priv.parked = false := by
  refine ⟨by decide +kernel, by decide +kernel, by decide +kernel, ⟨by decide +kernel, by decide +kernel, by decide +kernel⟩, by decide +kernel, by decide +kernel,
    ⟨by unfold presentsOne; decide +kernel, by decide +kernel, by decide +kernel, by decide +kernel, decodes_of (by decide +kernel), by decide +kernel, ?_⟩, by decide +kernel,
    by decide +kernel, by decide +kernel, by decide +kernel⟩
  intro sl h
  cases sl <;> decide +kernel

theorem witness_StepRunsDecodedBundle_handler :
    let s1 := { hst with cur := 0, agenda := [] }
    hst.stopped = false ∧ hst.agenda = (0, .bundleIssue) :: [] ∧ hst.phys = [] ∧ s1.me.inp.upsets = [] ∧ s1.handlerReady ∧ s1.me.priv.shadow.pos = Position.fresh 0 ∧
    s1.oneWord 0 (.wrctl { g := 0, cr := 0x110, a := 4 }) := by
  refine ⟨by decide +kernel, by decide +kernel, by decide +kernel, by decide +kernel, ⟨by decide +kernel, by decide +kernel, by decide +kernel, by decide +kernel⟩, by decide +kernel,
    ⟨by unfold presentsOne; decide +kernel, by decide +kernel, by decide +kernel, by decide +kernel, decodes_of (by decide +kernel), by decide +kernel, ?_⟩⟩
  intro sl h
  cases sl <;> decide +kernel

/-- The reset state with the acting of one tile's signal log asked for. -/
def rst : State := { State.reset with agenda := [(0, .signalLog)] }

theorem tile_reset (t : TileNo) : rst.tile t = Tile.reset := vget_vrep _ _ _ t.2

theorem witness_StepKeepsMemoryForm : rst.memoryForm ∧ after (step rst) (fun u => decide (u.agenda = [])) = true :=
  ⟨⟨rfl, rfl, fun t => by rw [tile_reset]; rfl⟩, by decide +kernel⟩

theorem witness_StepKeepsConstants : rst.constantsFixed ∧ after (step rst) (fun u => decide (u.agenda = [])) = true := by
  refine ⟨fun t => ?_, by decide +kernel⟩
  rw [tile_reset]
  refine ⟨by unfold Ctx.g0Fixed; decide +kernel, by unfold VecState.m0Fixed; decide +kernel, by unfold Ctx.g0Fixed; decide +kernel, ?_, ?_⟩ <;>
    intro c h <;> exact absurd h (by simp [Tile.reset, Segment.reset])

/-! ## Refused words and ill-formed terms -/

/-- The sub-cause, the slot and the value with which a bundle is refused. -/
def refusedWith (h : Insn) (ws : List Insn) : Option Illegal :=
  match decodeBundle h ws with
  | .ok _ => none
  | .error e => some e

/-- 05, worked example: three issues, one wait cycle, and S1's word as the immediate of the addition in S0. -/
def worked : Option Bundle :=
  match decodeBundle 0x1C082423 [0x041078C0, 0x00012345, 0x80002821] with
  | .ok b => some b
  | .error _ => none

theorem test_workedBundle :
    worked.map (fun b => b.ops) = some [{ slot := .s0, word := 0x041078C0, op := .add { g := 0, k := true, d := 7, a := 35, b := 0 }, ext := some 0x12345 },
      { slot := .v0, word := 0x80002821, op := .vaddF { t := 0, g := 0, m := 0, d := 2, a := 32, b := 33 }, ext := none }] ∧
    (worked.map fun b => (b.hdr.rep.toNat, b.hdr.wait.toNat, b.hdr.limm.toNat)) = some (2, 1, 1) := by
  decide +kernel

/-- 05, the last case of the worked example: without the template, S1's word is an empty operation with bits that must be zero. -/
theorem test_workedBundle_noTemplate : refusedWith 0x1C002423 [0x041078C0, 0x00012345, 0x80002821] =
    some { sub := 7, slot := 1, value := 0x12345 } := by decide +kernel

/-- Table 5.10: header bits, no slot, a reserved scope, a reserved level, and a branch in a repeated bundle. -/
theorem test_refusedHeaders : (refusedWith 0x3C000001 [0]).map (·.sub) = some 1 ∧ (refusedWith 0x1C000000 []).map (·.sub) = some 2 ∧
    (refusedWith 0x1C050001 [0]).map (·.sub) = some 3 ∧ (refusedWith 0x18000001 [0]).map (·.sub) = some 4 ∧ (refusedWith 0x1D000001 [0]).map (·.sub) = some 4 ∧
    (refusedWith 0x1C000204 [0x04680000]).map (·.sub) = some 4 ∧ (refusedWith 0x1C080001 [0]).map (·.sub) = some 5 := by decide +kernel

/-- The smoke test of `WellFormed`: one term for each check of Table 5.10 on words, 0x7 to 0xA, refused; and the term mended. -/
theorem test_wellFormed_refuses :
    (Instr.mov { g := 0, d := 3, a := 1 }).wellFormedIn .S false = true ∧ (Instr.mov { g := 0, d := 3, a := 1 }).wellFormedIn .V false = false ∧
    (Instr.ectlKill { g := 0, a := 1, b := 2 }).wordFault false = some 7 ∧ (Instr.ectlKill { g := 0, a := 63, b := 2 }).wordFault false = none ∧
    (Instr.mov { g := 0, d := 62, a := 1 }).wordFault false = some 8 ∧
    (Instr.cmpS64 { g := 0, k := false, cond := 7, pair := 0, a := 1, b := 2 }).wordFault false = some 9 ∧
    (Instr.vld { g := 0, bm := 2, p := false, d := 3, a := 1, b := 2 }).wordFault false = some 0xA := by decide +kernel

/-! ## Results worked out by hand, most of them the spec's own examples -/

/-- Two scalar operands in n1 and n2. -/
def two (a b : Word) : State := withN (withN kst 1 (validWord a)) 2 (validWord b)

/-- The value that an operation of the kernel sends to n3: written already, or in flight to it. -/
def toN3 (s : State) (i : Instr) : Option Scalar :=
  match exec i s with
  | .next u => match u.me.k.infl with
    | { res := .scalar x d, .. } :: _ => if d = 3 then some x else none
    | _ => some (vget u.me.k.n 3)
  | _ => none

/-- The value that an operation sends to lane l of v3. -/
def toV3 (s : State) (i : Instr) (l : Nat) : Option LaneBits :=
  match exec i s with
  | .next u => match u.me.k.infl with
    | { res := .vector x d, .. } :: _ => if d = 3 then some (vget x l).v else none
    | _ => none
  | _ => none

/-- 08, the example of R180: 2^63 times 2. -/
theorem test_mulh : toN3 (two 0x8000000000000000 2) (.mulhS64 sa) = some (validWord 0xFFFFFFFFFFFFFFFF) ∧
    toN3 (two 0x8000000000000000 2) (.mulhZ64 sa) = some (validWord 1) ∧ toN3 (two 0x8000000000000000 2) (.mul sa) = some (validWord 0) := by decide +kernel

/-- 08, the example of R185: sixteen bits from bit 8; and the field shortened at bit 63. -/
theorem test_bfext : toN3 (two 0xABCD00 0x0F08) (.bfextZ64 sa) = some (validWord 0xABCD) ∧
    toN3 (two 0xABCD00 0x0F08) (.bfextS64 sa) = some (validWord 0xFFFFFFFFFFFFABCD) ∧
    toN3 (two 0x7000000000000001 0x0F3C) (.bfextS64 sa) = some (validWord 7) := by decide +kernel

/-- R181: the amount is b[5:0]. -/
theorem test_shifts : toN3 (two 3 65) (.shl sa) = some (validWord 6) ∧ toN3 (two 0x8000000000000000 63) (.shrS64 sa) = some (validWord 0xFFFFFFFFFFFFFFFF) ∧
    toN3 (two 0x8000000000000001 1) (.rotl sa) = some (validWord 3) ∧ toN3 (two 3 1) (.rotr sa) = some (validWord 0x8000000000000001) := by decide +kernel

/-- R184: −2^63 by −1, 7 by 0, and −7 by 2 toward zero. -/
theorem test_division : toN3 (two 0x8000000000000000 0xFFFFFFFFFFFFFFFF) (.divS64 sa) = some (validWord 0x8000000000000000) ∧
    toN3 (two 7 0) (.divZ64 sa) = some (validWord 0xFFFFFFFFFFFFFFFF) ∧ toN3 (two 7 0) (.remS64 sa) = some (validWord 7) ∧
    toN3 (two 0xFFFFFFFFFFFFFFF9 2) (.divS64 sa) = some (validWord 0xFFFFFFFFFFFFFFFD) ∧
    toN3 (two 0xFFFFFFFFFFFFFFF9 2) (.remS64 sa) = some (validWord 0xFFFFFFFFFFFFFFFF) := by decide +kernel

/-- 08, the example of R186: 5 against −1. -/
theorem test_compare : (after (exec (.cmpZ64 (sp 0 2)) (two 5 0xFFFFFFFFFFFFFFFF)) fun u => (vget u.me.k.g 14).val && !(vget u.me.k.g 15).val) = true ∧
    (after (exec (.cmpS64 (sp 0 2)) (two 5 0xFFFFFFFFFFFFFFFF)) fun u => !(vget u.me.k.g 14).val && (vget u.me.k.g 15).val) = true := by decide +kernel

/-- R190: the default of a VOID value, the value of a VALID one; R168: an off addition writes VOID. -/
theorem test_dflt : toN3 (withN (two 1 9) 1 zeroVoid) (.dflt sa) = some (validWord 9) ∧ toN3 (two 1 9) (.dflt sa) = some (validWord 1) ∧
    toN3 (two 1 9) (.add { sa with g := 1 }) = some zeroVoid := by decide +kernel

/-- R219: a byte sign-extended, and two bytes stored in little-endian order with the rest kept. -/
theorem test_loadStore : toN3 (withSpad (withN km 1 (validWord 0x2000)) 0x2000 [1, 0x80]) (.ldS8 { g := 0, bm := 1, p := false, d := 3, a := 1, b := 1 }) =
      some (validWord 0xFFFFFFFFFFFFFF80) ∧
    after (exec (.stZ16 { g := 0, bm := 1, p := false, d := 2, a := 1, b := 0 }) (withN (withN km 1 (validWord 0x2000)) 2 (validWord 0x12345678)))
      (fun u => (List.range 3).map (fun k => readCell u.me.spad.bytes (0x2000 + k)) = [0x78, 0x56, 0]) = true := by decide +kernel

/-- 1.5 + 2 and 1.5 × 2 in f32; and the first lane of a fused 1.5 × 2 + 0. -/
theorem test_float : toV3 vst0 (.vaddF (vf 0)) 31 = some 0x40600000 ∧ toV3 vst0 (.vmulF (vf 0)) 0 = some 0x40400000 ∧
    toV3 vst0 (.vfma (vf 0)) 0 = some 0x40400000 := by decide +kernel

/-- 10, the example of R232: 300 to s8 with saturation. -/
theorem test_saturation :
    toV3 (on1 vst0 fun t => { t with vec := { t.vec with v := vset t.vec.v 1 (vrep 32 { v := 300, tag := .valid }) } })
      (.vcvt { r := 1, g := 0, m := 0, d := 3, a := 1, pair := 24, sat := true }) 5 = some 127 := by decide +kernel

/-- 03, the example of R89: 470 to e4m3 saturates, 460 rounds. -/
theorem test_e4m3 : rneCode .e4m3 (Ext.ofInt 460) = 0x7E ∧ encodeFmt .e4m3 (roundFmt .e4m3 .rne true (Ext.ofInt 470)) = 0x7E ∧
    encodeFmt .e5m2 (roundFmt .e5m2 .rne true (Ext.ofInt 470)) = 0x5F := by decide +kernel

/-- 03, the example of R99: the block whose term of 2^−18 is not lost. -/
theorem test_block : blockF 0x3F800000 (scaleUe8m1 0x0112) (scaleUe8m1 0x00FF)
    ([(0x7E, 0x7E), (0x01, 0x01), (0xFE, 0x7E), (0x00, 0x7F)].filterMap fun p => contributing (decodeFmt .e4m3 p.1) (decodeFmt .e4m3 p.2)) =
      0x3F80C000 := by decide +kernel

end Sys2Proof.Machine
end

section
/-! SUPPORT and PROOF of O60: every step keeps g0 true and VALID and m0 all lanes true and VALID (R61, R63).

A function of the model either leaves the guards, the masks, the checkpoint and the checker's copies of a tile (`keep`), or writes them
through `setGuard` and `setMask`, which leave register 0, or sets them from contexts that hold the constants. So there is one lemma
for each function that makes a tile, a state or an outcome, in the model's order and under its module's name: `h.f` says that `f`
keeps the constants when its argument holds them. Operations enter as `OpSem.KeepsConstants`; a bundle is what its slots hold. -/
namespace Sys2Proof.Machine
open Host

/-! ## Tiles -/

/-- A tile keeps the constants if it keeps its guards, its masks, its checkpoint and the checker's copies. -/
theorem Tile.constantsFixed.congr {t u : Tile} (h : t.constantsFixed) (hg : u.k.g = t.k.g) (hm : u.vec.m = t.vec.m)
    (hs : u.priv.shadow.g = t.priv.shadow.g) (hc : u.seg.chk = t.seg.chk) (hx : u.checker = t.checker) : u.constantsFixed := by
  simpa only [Tile.constantsFixed, Ctx.g0Fixed, VecState.m0Fixed, hg, hm, hs, hc, hx] using h

/-- What of a tile the constants speak of. A change of anything else leaves it, by unfolding the record alone. -/
abbrev Tile.guarded (t : Tile) := (t.k.g, t.vec.m, t.priv.shadow.g, t.seg.chk, t.checker)

theorem Tile.constantsFixed.keep {t u : Tile} (he : u.guarded = t.guarded) (h : t.constantsFixed) : u.constantsFixed := by
  obtain ⟨hg, hm, hs, hc, hx⟩ := by simpa only [Tile.guarded, Prod.mk.injEq] using he
  exact h.congr hg hm hs hc hx

theorem Tile.constantsFixed.ite {c : Prop} {_ : Decidable c} {t u : Tile} (ht : t.constantsFixed) (hu : u.constantsFixed) :
    (if c then t else u).constantsFixed := by
  split
  · exact ht
  · exact hu

theorem Tile.constantsFixed.foldl {α : Type} {t : Tile} (h : t.constantsFixed) {l : List α} {f : Tile → α → Tile}
    (hf : ∀ u x, u.constantsFixed → (f u x).constantsFixed) : (l.foldl f t).constantsFixed :=
  List.foldlRecOn l f h fun u hu x _ => hf u x hu

/-! ## The package -/

/-- The package keeps the constants if it keeps its tiles. -/
theorem State.constantsFixed.keep {s u : State} (ht : u.tiles = s.tiles) (h : s.constantsFixed) : u.constantsFixed := by
  simpa only [State.constantsFixed, State.tile, ht] using h

theorem State.constantsFixed.ite {c : Prop} {_ : Decidable c} {s u : State} (hs : s.constantsFixed) (hu : u.constantsFixed) :
    (if c then s else u).constantsFixed := by
  split
  · exact hs
  · exact hu

theorem State.constantsFixed.foldl {α : Type} {s : State} (h : s.constantsFixed) {l : List α} {f : State → α → State}
    (hf : ∀ u x, u.constantsFixed → (f u x).constantsFixed) : (l.foldl f s).constantsFixed :=
  List.foldlRecOn l f h fun u hu x _ => hf u x hu

theorem State.constantsFixed.tile {s : State} (h : s.constantsFixed) (t : TileNo) : (s.tile t).constantsFixed := h t

theorem State.constantsFixed.me {s : State} (h : s.constantsFixed) : s.me.constantsFixed := h s.cur

theorem State.constantsFixed.setTile {s : State} (h : s.constantsFixed) {t : TileNo} {x : Tile} (hx : x.constantsFixed) :
    (s.setTile t x).constantsFixed := by
  intro u
  rw [State.tile_setTile]
  exact hx.ite (h u)

theorem State.constantsFixed.setMe {s : State} (h : s.constantsFixed) {x : Tile} (hx : x.constantsFixed) :
    (s.setMe x).constantsFixed := h.setTile hx

theorem State.constantsFixed.mapMe {s : State} (h : s.constantsFixed) {f : Tile → Tile}
    (hf : ∀ t, t.constantsFixed → (f t).constantsFixed) : (s.mapMe f).constantsFixed := h.setMe (hf _ h.me)

/-- Whether the constants hold after an instruction that answers with a next state. -/
def OutcomeFixed : Host.Outcome State Fault Refusal → Prop
  | .next s => s.constantsFixed
  | _ => True

theorem OutcomeFixed.next {s : State} (h : s.constantsFixed) : OutcomeFixed (.next s) := h

theorem OutcomeFixed.ite {c : Prop} {_ : Decidable c} {o p : Host.Outcome State Fault Refusal}
    (ho : OutcomeFixed o) (hp : OutcomeFixed p) : OutcomeFixed (if c then o else p) := by
  split
  · exact ho
  · exact hp

/-- Whether the constants hold after what may give no state. -/
def OptionFixed (o : Option State) : Prop := ∀ u, o = some u → u.constantsFixed

theorem OptionFixed.some {s : State} (h : s.constantsFixed) : OptionFixed (Option.some s) := by
  intro u hu
  cases hu
  exact h

theorem OptionFixed.none : OptionFixed Option.none := fun _ hu => by cases hu

theorem OptionFixed.ite {c : Prop} {_ : Decidable c} {o p : Option State} (ho : OptionFixed o) (hp : OptionFixed p) :
    OptionFixed (if c then o else p) := by
  split
  · exact ho
  · exact hp

theorem OptionFixed.getD {o : Option State} (ho : OptionFixed o) {s : State} (h : s.constantsFixed) : (o.getD s).constantsFixed := by
  cases o with
  | none => exact h
  | some u => exact ho u rfl

/-- An operation keeps the constants, on or off. -/
def OpSem.KeepsConstants (o : OpSem) : Prop :=
  ∀ e s, s.constantsFixed → (o.run e s).constantsFixed ∧ (o.off e s).constantsFixed

/-! ## Contexts, guards and masks -/

theorem Ctx.g0Fixed_start (a : Nat) : (Ctx.start a).g0Fixed := by
  simp [Ctx.g0Fixed, Ctx.start, guardsStart, vget_vset_same]

theorem VecState.m0Fixed_start : VecState.start.m0Fixed := by
  simp [VecState.m0Fixed, VecState.start, vget_vset_same]

/-- A write of a named guard leaves g0 (R61). -/
theorem Ctx.vget_setGuard_zero (c : Ctx) (k : Nat) (x : Guard) : vget (c.setGuard k x).g 0 = vget c.g 0 := by
  unfold Ctx.setGuard
  split
  · rfl
  · exact vget_vset_other _ _ _ _ ‹_›

/-- A write of a mask leaves m0 (R63). -/
theorem VecState.vget_setMask_zero (v : VecState) (k : Nat) (x : Mask) : vget (v.setMask k x).m 0 = vget v.m 0 := by
  unfold VecState.setMask
  split
  · rfl
  · exact vget_vset_other _ _ _ _ ‹_›

theorem Ctx.g0Fixed.arrive {c : Ctx} (h : c.g0Fixed) {r : Result} : (c.arrive r).g0Fixed := by
  unfold Ctx.g0Fixed Ctx.arrive
  split
  · split <;> exact h
  · rw [Ctx.vget_setGuard_zero, Ctx.vget_setGuard_zero]
    exact h
  · exact h

theorem VecState.m0Fixed.arrive {v : VecState} (h : v.m0Fixed) {r : Result} : (v.arrive r).m0Fixed := by
  unfold VecState.m0Fixed VecState.arrive
  split
  · split <;> exact h
  · exact h
  · rw [VecState.vget_setMask_zero, VecState.vget_setMask_zero]
    exact h
  · exact h

theorem Ctx.g0Fixed.arrivals {c : Ctx} (h : c.g0Fixed) {n : Nat} : (c.arrivals n).g0Fixed :=
  List.foldlRecOn (motive := Ctx.g0Fixed) _ _ h fun _ hc _ _ => hc.arrive

theorem Ctx.g0Fixed.patch {c : Ctx} (h : c.g0Fixed) {m : List Byte} : (c.patch m).g0Fixed := by
  simpa [Ctx.g0Fixed, Ctx.patch, vget_vmk] using h

theorem VecState.m0Fixed.patch {v : VecState} (h : v.m0Fixed) {m : List Byte} : (v.patch m).m0Fixed := by
  simpa [VecState.m0Fixed, VecState.patch, vget_vmk] using h

/-! ## The checkpoint and the checker's copies -/

/-- A tile without checkpoint and checker's copies has the constants if its contexts have them. -/
theorem Tile.constantsFixed.bare {t : Tile} (hk : t.k.g0Fixed) (hv : t.vec.m0Fixed) (hs : t.priv.shadow.g0Fixed)
    (hc : t.seg.chk = none) (hx : t.checker = none) : t.constantsFixed :=
  ⟨hk, hv, hs, by simp [hc], by simp [hx]⟩

/-- The checker's copies, where they differ, or what they are copies of. -/
theorem Tile.constantsFixed.copies {t : Tile} (h : t.constantsFixed) :
    (t.checker.getD (t.k, t.vec)).1.g0Fixed ∧ (t.checker.getD (t.k, t.vec)).2.m0Fixed := by
  obtain ⟨hk, hv, _, _, hx⟩ := h
  cases hc : t.checker with
  | none => exact ⟨hk, hv⟩
  | some c => exact hx c hc

theorem Tile.constantsFixed.setCtx {t : Tile} (h : t.constantsFixed) {c : Ctx} (hc : c.g = t.ctx.g) : (t.setCtx c).constantsFixed := by
  unfold Tile.setCtx
  unfold Tile.ctx at hc
  split <;> rename_i ha <;> simp only [ha, if_true, if_false, Bool.false_eq_true] at hc
  · exact h.congr rfl rfl hc rfl rfl
  · exact h.congr hc rfl rfl rfl rfl

theorem Tile.constantsFixed.enterHandler {t : Tile} (h : t.constantsFixed) {cause : Nat} : (t.enterHandler cause).constantsFixed := by
  obtain ⟨hk, hv, _, hc, hx⟩ := h
  exact ⟨hk, hv, Ctx.g0Fixed_start (64 * cause), hc, hx⟩

theorem Tile.constantsFixed.shadowArrivals {t : Tile} (h : t.constantsFixed) : t.shadowArrivals.constantsFixed := by
  obtain ⟨hk, hv, hs, hc, hx⟩ := h
  exact ⟨hk, hv, hs.arrivals, hc, hx⟩

theorem Tile.constantsFixed.arriveOne {t : Tile} (h : t.constantsFixed) {e : InFlight} : (t.arriveOne e).constantsFixed := by
  have h1 : ∀ r, ({ t with k := t.k.arrive r, vec := t.vec.arrive r } : Tile).constantsFixed := by
    obtain ⟨hk, hv, hs, hc, hx⟩ := h
    exact fun _ => ⟨hk.arrive, hv.arrive, hs, hc, hx⟩
  unfold Tile.arriveOne
  dsimp only
  generalize e.res = r
  cases r <;> cases e.place <;> dsimp only [Result.elem] <;> exact (h1 _).keep rfl

theorem Tile.constantsFixed.arrivals {t : Tile} (h : t.constantsFixed) : t.arrivals.constantsFixed := by
  unfold Tile.arrivals
  dsimp only
  generalize List.filter _ (List.filter _ t.k.infl) = rest
  have h1 : ∀ due : List InFlight, (due.foldl Tile.arriveOne { t with k := { t.k with infl := rest } }).constantsFixed :=
    fun _ => Tile.constantsFixed.foldl (h.keep (by rfl)) fun _ _ hu => hu.arriveOne
  split
  · exact h1 _
  · rename_i ck cv hck
    obtain ⟨hk, hv, hs, hc, hx⟩ := h1 _
    obtain ⟨hg, hm⟩ := hx _ hck
    refine ⟨hk, hv, hs, hc, fun c he => ?_⟩
    dsimp only at he
    split at he
    · cases he
    · cases he
      exact List.foldlRecOn (motive := fun p : Ctx × VecState => p.1.g0Fixed ∧ p.2.m0Fixed) _ _ ⟨hg, hm⟩
        fun _ hp _ _ => ⟨hp.1.arrive, hp.2.arrive⟩

/-- An upset of a register makes copies; any other leaves the guards, the masks and the copies. -/
theorem Tile.constantsFixed.strike {t : Tile} (h : t.constantsFixed) {u : Upset} : (t.strike u).constantsFixed := by
  have hcopy := h.copies
  obtain ⟨hk, hv, hs, hc, hx⟩ := h
  cases u
  case reg | checkerReg =>
    refine ⟨hk, hv, hs, hc, fun c he => ?_⟩
    cases he
    exact hcopy
  all_goals exact ⟨hk, hv, hs, hc, hx⟩

theorem Tile.constantsFixed.checkpoint {t : Tile} (h : t.constantsFixed) : t.checkpoint.k.g0Fixed ∧ t.checkpoint.vec.m0Fixed :=
  ⟨h.1, h.2.1⟩

theorem Tile.constantsFixed.newSegment {t : Tile} (h : t.constantsFixed) : t.newSegment.constantsFixed := by
  obtain ⟨hk, hv, hs, _, hx⟩ := h
  exact ⟨hk, hv, hs, fun c he => by cases he; exact ⟨hk, hv⟩, hx⟩

theorem Tile.constantsFixed.rewind {t : Tile} (h : t.constantsFixed) {e : Event} : (t.rewind e).constantsFixed := by
  unfold Tile.rewind
  split
  · exact h
  · rename_i c hchk
    obtain ⟨_, _, hs, hc, _⟩ := h
    obtain ⟨hk, hv⟩ := hc c hchk
    exact ⟨hk, hv, hs, hc, by simp⟩

theorem Tile.constantsFixed.undefined {t : Tile} (h : t.constantsFixed) (hx : t.checker = none) {u : Leftover} :
    (t.undefined u).constantsFixed := by
  obtain ⟨_, _, hs, hc, _⟩ := h
  refine ⟨?_, ?_, hs, hc, by simp [Tile.undefined, hx]⟩
  · simp [Ctx.g0Fixed, Tile.undefined, guardsStart, vget_vset_same]
  · simp [VecState.m0Fixed, Tile.undefined, VecState.start, vget_vset_same]

theorem Tile.constantsFixed.restoreImage {t : Tile} (h : t.constantsFixed) {m : List Byte} {o : Opaque} :
    (t.restoreImage m o).constantsFixed := by
  obtain ⟨_, _, hs, _, _⟩ := h
  have hk : (t.restoreImage m o).k.g0Fixed := by
    simp [Ctx.g0Fixed, Tile.restoreImage, Tile.newSegment, vget_vmk, guardsStart, vget_vset_same]
  have hv : (t.restoreImage m o).vec.m0Fixed := by
    simp [VecState.m0Fixed, Tile.restoreImage, Tile.newSegment, vget_vmk, VecState.start, vget_vset_same]
  exact ⟨hk, hv, hs, fun c he => by cases he; exact ⟨hk, hv⟩, fun c he => by cases he⟩

theorem Tile.constantsFixed.startItem {t : Tile} (h : t.constantsFixed) {r : Run} : (t.startItem r).constantsFixed := by
  obtain ⟨_, _, hs, hc, _⟩ := h
  exact Tile.constantsFixed.newSegment ⟨Ctx.g0Fixed_start _, VecState.m0Fixed_start, hs, hc, by simp⟩

theorem Tile.constantsFixed_reset : Tile.reset.constantsFixed :=
  Tile.constantsFixed.bare (Ctx.g0Fixed_start _) VecState.m0Fixed_start (Ctx.g0Fixed_start _) rfl rfl

theorem Tile.constantsFixed.resetTile {t : Tile} : t.resetTile.constantsFixed := by
  unfold Tile.resetTile
  exact Tile.constantsFixed.bare (Ctx.g0Fixed_start _) VecState.m0Fixed_start (Ctx.g0Fixed_start _) rfl rfl

theorem Tile.constantsFixed.powered {t : Tile} {n : Nat} : (t.powered n).constantsFixed := by
  unfold Tile.powered
  exact Tile.constantsFixed_reset.keep (by rfl)

theorem Tile.constantsFixed.mapPriv {t : Tile} (h : t.constantsFixed) {f : Priv → Priv}
    (hf : (f t.priv).shadow.g = t.priv.shadow.g) : (t.mapPriv f).constantsFixed := by
  unfold Tile.mapPriv
  exact h.congr rfl rfl hf rfl rfl

theorem Segment.chk_addLeg (g : Segment) (l : Leg) : (g.addLeg l).chk = g.chk := rfl

/-! ## Ops -/

theorem State.constantsFixed.setPart {s : State} (h : s.constantsFixed) {p : PartNo} {x : Part} :
    (s.setPart p x).constantsFixed := by
  unfold State.setPart
  exact h.keep (by rfl)

theorem State.constantsFixed.setDie {s : State} (h : s.constantsFixed) {d : Nat} {x : Die} :
    (s.setDie d x).constantsFixed := by
  unfold State.setDie
  exact h.keep (by rfl)

theorem State.constantsFixed.mapLaunch {s : State} (h : s.constantsFixed) {id : Nat} {f : Launch → Launch} :
    (s.mapLaunch id f).constantsFixed := by
  unfold State.mapLaunch
  exact h.keep (by rfl)

theorem Tile.constantsFixed.traceAdd {t : Tile} (h : t.constantsFixed) {kind obj addr cycle info segNo : Nat} :
    (t.traceAdd kind obj addr cycle info segNo).constantsFixed := by
  unfold Tile.traceAdd
  exact h.keep (by rfl)

theorem Tile.constantsFixed.traceWait {t : Tile} (h : t.constantsFixed) {w : Station} {obj addr cycle : Nat} :
    (t.traceWait w obj addr cycle).constantsFixed := by
  unfold Tile.traceWait
  exact h.keep (by rfl)

theorem Tile.constantsFixed.tick {t : Tile} (h : t.constantsFixed) {mhz : Nat} :
    (t.tick mhz).constantsFixed := by
  unfold Tile.tick
  exact h.keep (by rfl)

theorem State.constantsFixed.tickMe {s : State} (h : s.constantsFixed) :
    s.tickMe.constantsFixed := by
  unfold State.tickMe
  exact .keep (by rfl) (h.setMe h.me.tick)

theorem State.constantsFixed.freezeAt {s : State} (h : s.constantsFixed) {cause depth : Nat} :
    (s.freezeAt cause depth).constantsFixed := by
  unfold State.freezeAt
  exact .tickMe (h.mapMe (fun _ ht => ht.keep (by rfl)))

theorem State.constantsFixed.freezeMe {s : State} (h : s.constantsFixed) {cause : Nat} :
    (s.freezeMe cause).constantsFixed := by
  unfold State.freezeMe
  exact h.freezeAt

theorem Tile.constantsFixed.logLine {t : Tile} (h : t.constantsFixed) {line : Nat} :
    (t.logLine line).constantsFixed := by
  unfold Tile.logLine
  exact .ite h (.ite (h.keep (by rfl)) (h.keep (by rfl)))

theorem Tile.constantsFixed.scheduledWrite {t : Tile} (h : t.constantsFixed) {w : SpadWrite} :
    (t.scheduledWrite w).constantsFixed := by
  unfold Tile.scheduledWrite
  exact .keep (by rfl) (h.foldl fun _ _ hu => hu.logLine)

theorem Tile.constantsFixed.handlerWrite {t : Tile} (h : t.constantsFixed) {w : SpadWrite} :
    (t.handlerWrite w).constantsFixed := by
  unfold Tile.handlerWrite
  exact .keep (by rfl) (h.foldl fun _ _ hu => hu.logLine)

theorem Tile.constantsFixed.engineWrite {t : Tile} (h : t.constantsFixed) {w : SpadWrite} :
    (t.engineWrite w).constantsFixed := by
  unfold Tile.engineWrite
  exact h.keep (by rfl)

theorem Tile.constantsFixed.chargeTrap {t : Tile} (h : t.constantsFixed) :
    t.chargeTrap.constantsFixed := by
  unfold Tile.chargeTrap
  exact .ite (h.keep (by rfl)) (.ite (h.keep (by rfl)) h)

theorem State.constantsFixed.trapTicks {s : State} (h : s.constantsFixed) {n : Nat} :
    (State.trapTicks n s).constantsFixed := by
  induction n generalizing s with
  | zero => exact h
  | succ n ih => exact ih (.tickMe (h.mapMe fun _ ht => ht.chargeTrap))

theorem Tile.constantsFixed.trapState {t : Tile} (h : t.constantsFixed) {r : TrapRegs} :
    (t.trapState r).constantsFixed := by
  unfold Tile.trapState
  exact h.keep (by rfl)

theorem State.constantsFixed.takeTrap {s : State} (h : s.constantsFixed) {r : TrapRegs} :
    (s.takeTrap r).constantsFixed := by
  unfold State.takeTrap
  exact .trapTicks (h.mapMe (fun _ ht => ht.trapState.enterHandler.keep (by rfl)))

theorem State.constantsFixed.returnToKernel {s : State} (h : s.constantsFixed) :
    s.returnToKernel.constantsFixed := by
  unfold State.returnToKernel
  exact h.trapTicks.mapMe (fun _ ht => ht.keep (by rfl))

theorem Tile.constantsFixed.handlerFault {t : Tile} (h : t.constantsFixed) {code sub : Nat} :
    (t.handlerFault code sub).constantsFixed := by
  unfold Tile.handlerFault
  exact h.keep (by rfl)

theorem Tile.constantsFixed.raiseAsync {t : Tile} (h : t.constantsFixed) {a : Async} :
    (t.raiseAsync a).constantsFixed := by
  unfold Tile.raiseAsync
  exact .ite h (h.keep (by rfl))

/-! ## Operands -/

theorem Tile.constantsFixed.reserve {t : Tile} (h : t.constantsFixed) {n : Nat} {d : BitVec 6} :
    (reserve t n d).2.1.constantsFixed := by
  obtain ⟨ss, hss⟩ := reserve_tile t n d
  rw [hss]
  exact h.keep (by rfl)

theorem Tile.constantsFixed.readSources {t : Tile} (h : t.constantsFixed) {i : Issue} {l : List Source} :
    (readSources i l t).2.1.constantsFixed := by
  obtain ⟨ss, hss⟩ := readSources_tile i l t
  rw [hss]
  exact h.keep (by rfl)

theorem State.constantsFixed.deliver {s : State} (h : s.constantsFixed) {e : Env} {lat : Nat} {dest : BitVec 6} {r : Result} :
    (e.deliver lat dest r s).constantsFixed := by
  unfold Env.deliver
  exact h.mapMe fun _ ht => ht.reserve.setCtx rfl

theorem State.constantsFixed.pushScalar {s : State} (h : s.constantsFixed) {e : Env} {lat : Nat} {x : Scalar} :
    (Env.pushScalar e lat x s).constantsFixed := by
  unfold Env.pushScalar
  exact h.deliver

theorem State.constantsFixed.pushVector {s : State} (h : s.constantsFixed) {e : Env} {lat : Nat} {x : VReg} :
    (Env.pushVector e lat x s).constantsFixed := by
  unfold Env.pushVector
  exact h.deliver

theorem State.constantsFixed.putGuards {s : State} (h : s.constantsFixed) {e : Env} {j : Nat} {p : Guard × Guard} :
    (Env.putGuards e j p s).constantsFixed := by
  unfold Env.putGuards
  exact h.deliver

theorem State.constantsFixed.putMasks {s : State} (h : s.constantsFixed) {e : Env} {j : Nat} {p : BitVec 32 × BitVec 32} :
    (Env.putMasks e j p s).constantsFixed := by
  unfold Env.putMasks
  exact h.deliver

theorem State.constantsFixed.consumeAt {s : State} (h : s.constantsFixed) {e : Env} {unit detail : Nat} :
    (Env.consumeAt e unit detail s).constantsFixed := by
  unfold Env.consumeAt
  exact .ite (h.mapMe (fun _ ht => ht.handlerFault)) (h.mapMe (fun _ ht => ht.keep (by rfl)))

theorem State.constantsFixed.consume {s : State} (h : s.constantsFixed) {e : Env} {t : Tag} :
    (Env.consume e t s).constantsFixed := by
  unfold Env.consume
  split
  · exact h.consumeAt
  · exact h

theorem State.constantsFixed.consumeRecord {s : State} (h : s.constantsFixed) {e : Env} {a n : Nat} :
    (Env.consumeRecord e a n s).constantsFixed := by
  unfold Env.consumeRecord
  exact h.consumeAt

theorem OpSem.plain_keeps {run : Env → State → State} (hrun : ∀ e (s : State), s.constantsFixed → (run e s).constantsFixed) :
    (OpSem.plain run).KeepsConstants :=
  fun e s h => ⟨hrun e s h, h⟩

theorem OpSem.scalar_keeps {lat : Nat} {run : Env → State → State}
    (hrun : ∀ e (s : State), s.constantsFixed → (run e s).constantsFixed) : (OpSem.scalar lat run).KeepsConstants :=
  fun e s h => ⟨hrun e s h, h.pushScalar⟩

theorem OpSem.vector_keeps {lat : Nat} {run : Env → State → State}
    (hrun : ∀ e (s : State), s.constantsFixed → (run e s).constantsFixed) : (OpSem.vector lat run).KeepsConstants :=
  fun e s h => ⟨hrun e s h, h.pushVector⟩

/-! ## MxEngine -/

theorem Tile.constantsFixed.mxReads {t : Tile} (h : t.constantsFixed) :
    t.mxReads.constantsFixed := by
  unfold Tile.mxReads
  exact .keep (by rfl) (h.foldl fun _ _ hu => hu.traceAdd)

theorem Tile.constantsFixed.mxComplete {t : Tile} (h : t.constantsFixed) {place : BitVec 16} {x : MxCmd} :
    (t.mxComplete place x).constantsFixed := by
  unfold Tile.mxComplete
  extract_lets _ t0 t1
  have h1 : t1.constantsFixed := .traceAdd (.ite (.traceAdd (h.keep (by rfl))) (h.keep (by rfl)))
  split
  · exact .ite h1 (.ite (h1.keep (by rfl)) (h1.keep (by rfl)))
  · exact h1

theorem Tile.constantsFixed.mxWrites {t : Tile} (h : t.constantsFixed) {place : BitVec 16} :
    (t.mxWrites place).constantsFixed := by
  unfold Tile.mxWrites
  exact .keep (by rfl) (.foldl (h.foldl fun _ _ hu => .keep (by rfl) (hu.foldl fun _ _ hw => hw.scheduledWrite))
    fun _ _ hu => hu.mxComplete)

theorem Tile.constantsFixed.sparseStart {t : Tile} (h : t.constantsFixed) :
    t.sparseStart.constantsFixed := by
  unfold Tile.sparseStart
  dsimp only
  split
  · exact h
  · split
    · exact h.traceAdd.keep (by rfl)
    · exact h

theorem Tile.constantsFixed.sparseComplete {t : Tile} (h : t.constantsFixed) {place : BitVec 16} :
    (t.sparseComplete place).constantsFixed := by
  unfold Tile.sparseComplete
  split
  · exact h
  · split
    · exact .keep (by rfl) (.mxComplete (h.keep (by rfl)))
    · exact h

/-! ## Present -/

theorem Tile.constantsFixed.compared {t : Tile} (h : t.constantsFixed) {check : Check} {takenAfter addr cycle slot : Nat}
    {a b : List Nat} :
    (t.compared check takenAfter addr cycle slot a b).constantsFixed := by
  unfold Tile.compared
  dsimp only
  split
  · exact .ite (h.keep (by rfl)) (.ite h (h.keep (by rfl)))
  · exact .ite h (h.keep (by rfl))

theorem Tile.constantsFixed.compareRow {t : Tile} (h : t.constantsFixed) {x : MxCmd} {step takenAfter : Nat}
    {row : List Lane} {upset : Bool} :
    (t.compareRow x step takenAfter row upset).constantsFixed := by
  unfold Tile.compareRow
  exact h.compared

theorem Tile.constantsFixed.shadowRows {t : Tile} (h : t.constantsFixed) {upset : Bool} :
    (t.shadowRows upset).constantsFixed := by
  unfold Tile.shadowRows
  refine .foldl h fun u x hu => ?_
  split
  · exact .ite hu (hu.foldl fun _ _ hu => hu.compareRow)
  · exact hu

theorem Tile.constantsFixed.sparseShadow {t : Tile} (h : t.constantsFixed) {x : MxCmd} {s : Store} {acc : Acc} {upset : Bool} :
    (t.sparseShadow x s acc upset).constantsFixed := by
  unfold Tile.sparseShadow
  split
  · exact h.foldl fun _ _ hu => hu.compareRow
  · exact h

theorem Tile.constantsFixed.addCmd {t : Tile} (h : t.constantsFixed) {place : BitVec 16} {e : Env} {operands : List Nat}
    {body : CmdBody} :
    (t.addCmd place e operands body).constantsFixed := by
  unfold Tile.addCmd
  exact h.keep (by rfl)

theorem State.constantsFixed.issueCmdWith {s : State} (h : s.constantsFixed) {e : Env} {operands : List Nat} {body : CmdBody} :
    (Env.issueCmdWith e operands body s).constantsFixed := by
  unfold Env.issueCmdWith
  exact h.mapMe (fun _ ht => ht.addCmd)

theorem State.constantsFixed.issueCmd {s : State} (h : s.constantsFixed) {e : Env} {body : CmdBody} :
    (Env.issueCmd e body s).constantsFixed := by
  unfold Env.issueCmd
  exact h.issueCmdWith

theorem State.constantsFixed.countHeld {s : State} (h : s.constantsFixed) :
    s.countHeld.constantsFixed := by
  unfold State.countHeld
  exact h.mapMe (fun _ ht => ht.keep (by rfl))

theorem Tile.constantsFixed.accept {t : Tile} (h : t.constantsFixed) {place : BitVec 16} {c : Cmd} :
    (t.accept place c).constantsFixed := by
  unfold Tile.accept
  split
  · exact h.keep (by rfl)
  · exact h
  · exact h.keep (by rfl)
  · exact h
  · dsimp only
    split
    · exact .ite (.mxComplete (h.keep (by rfl))) (h.keep (by rfl))
    · exact h.keep (by rfl)
  · extract_lets t1
    have h1 : t1.constantsFixed := by
      unfold t1
      split
      · exact h.traceAdd
      · exact h
    exact .ite (.ite (h1.keep (by rfl)) (h1.keep (by rfl))) (h1.keep (by rfl))

theorem presentLoop_constantsFixed {t : Tile} (h : t.constantsFixed) {place : BitVec 16} {n : Nat} :
    (presentLoop place n t).constantsFixed := by
  induction n generalizing t with
  | zero => exact h
  | succ n ih =>
    unfold presentLoop
    split
    · exact h
    · extract_lets t1
      have h1 : t1.constantsFixed := .ite h h.compared
      exact .ite (.ite (h1.keep (by rfl)) (ih (.accept (h1.keep (by rfl))))) h

theorem Tile.constantsFixed.present {t : Tile} (h : t.constantsFixed) {place : BitVec 16} :
    (t.present place).constantsFixed := by
  unfold Tile.present
  exact presentLoop_constantsFixed h

/-! ## Frame -/

theorem State.constantsFixed.raiseCand {s : State} (h : s.constantsFixed) {c : Cand} {addr : Nat} :
    (s.raiseCand c addr).constantsFixed := by
  unfold State.raiseCand
  exact .ite (h.mapMe (fun _ ht => .ite ht.handlerFault ht.handlerFault))
    (.takeTrap (h.mapMe (fun _ ht => .ite (ht.keep (by rfl)) ht)))

theorem State.constantsFixed.clk {s : State} (h : s.constantsFixed) :
    s.clk.constantsFixed := by
  unfold State.clk
  exact .ite (.tickMe (h.mapMe (fun _ ht => ht.chargeTrap))) h.tickMe

theorem State.constantsFixed.replayOnce {s : State} (h : s.constantsFixed) {depth : Nat} :
    (s.replayOnce depth).constantsFixed := by
  unfold State.replayOnce
  exact h.freezeAt.freezeAt.freezeAt.mapMe (fun _ ht => ht.keep (by rfl))

theorem State.constantsFixed.replay {s : State} (h : s.constantsFixed) {depth n : Nat} :
    (State.replay depth n s).constantsFixed := by
  induction n generalizing s with
  | zero => exact h
  | succ n ih => exact ih h.replayOnce

theorem State.constantsFixed.noteStations {s : State} (h : s.constantsFixed) {b : Batch} :
    (s.noteStations b).constantsFixed := by
  unfold State.noteStations
  exact h.mapMe (fun _ ht => ht.keep (by rfl))

theorem State.constantsFixed.replays {s : State} (h : s.constantsFixed) {b : Batch} {depth : Nat} :
    (s.replays b depth).constantsFixed := by
  unfold State.replays
  dsimp only
  split
  · exact h.mapMe (fun _ ht => ht.keep (by rfl))
  · exact .replay (.noteStations (h.mapMe (fun _ ht => ht.keep (by rfl))))

theorem runOp_constantsFixed {s : State} (h : s.constantsFixed) {b : Batch} {p : Issue × OpSem} (hp : p.2.KeepsConstants) :
    (runOp b s p).constantsFixed := by
  have hrun := fun e s h => (hp e s h).1
  have hoff := fun e s h => (hp e s h).2
  unfold runOp
  dsimp only
  refine .mapMe ?_ fun _ ht => ht.setCtx rfl
  split
  · exact hrun _ _ (h.setMe h.me.readSources)
  · exact hoff _ _ (h.setMe h.me)

/-- Every operation of what issues together keeps the constants. -/
def Batch.KeepsConstants (b : Batch) : Prop := ∀ p ∈ b.ops, p.2.KeepsConstants

theorem runAll_constantsFixed {s : State} (h : s.constantsFixed) {b : Batch} (hb : b.KeepsConstants) :
    (runAll b s).constantsFixed :=
  List.foldlRecOn b.ops (runOp b) h fun _ hu p hp => runOp_constantsFixed hu (hb p hp)

theorem runShadowChecker_constantsFixed {b : Batch} {s s' : State} (hs' : s'.constantsFixed) :
    (runShadowChecker b s s').constantsFixed := by
  unfold runShadowChecker
  split
  · exact hs'
  · exact hs'.mapMe fun _ ht => .ite (ht.keep (by rfl)) (ht.keep (by rfl)).handlerFault

/-- The checker's copies run the issue from guards and masks that hold the constants themselves. -/
theorem runChecker_constantsFixed {s : State} (h : s.constantsFixed) {b : Batch} (hb : b.KeepsConstants) {s' : State}
    (hs' : s'.constantsFixed) : (runChecker b s s').constantsFixed := by
  unfold runChecker
  split
  · exact runShadowChecker_constantsFixed hs'
  · split
    · exact hs'
    · rename_i ck cv hck
      obtain ⟨_, _, hs, hc, hx⟩ := h.me
      obtain ⟨hg, hm⟩ := hx _ hck
      have hr := (runAll_constantsFixed (h.setMe (x := { s.me with
        k := { s.me.k with n := ck.n, sq := ck.sq, g := ck.g, infl := ck.infl }, vec := cv }) ⟨hg, hm, hs, hc, hx⟩) hb).me
      refine hs'.mapMe fun u hu => ?_
      obtain ⟨uk, uv, us, uc, _⟩ := hu
      exact ⟨uk, uv, us, uc, fun c he => by cases he; exact ⟨hr.1, hr.2.1⟩⟩

theorem Tile.constantsFixed.checkCopies {t : Tile} (h : t.constantsFixed) {addr cycle : Nat} :
    (t.checkCopies addr cycle).constantsFixed := by
  unfold Tile.checkCopies
  exact .ite h.compared h

theorem Tile.constantsFixed.endCycle {t : Tile} (h : t.constantsFixed) {place : BitVec 16} {addr : Nat} :
    (t.endCycle place addr).constantsFixed := by
  unfold Tile.endCycle
  exact .keep (by with_reducible rfl) (.present (.checkCopies (.arrivals (.keep (by with_reducible rfl) (.mxWrites (.shadowRows
    (.foldl (.mxReads (h.keep (by with_reducible rfl))) fun _ _ hu => hu.scheduledWrite)))))))

theorem Tile.constantsFixed.endHandlerCycle {t : Tile} (h : t.constantsFixed) :
    t.endHandlerCycle.constantsFixed := by
  unfold Tile.endHandlerCycle
  have h1 : (t.dfr.writes.foldl Tile.handlerWrite t).constantsFixed := h.foldl fun _ _ hu => hu.handlerWrite
  exact .keep (by rfl) (.shadowArrivals (.ite (.keep (by rfl) (h1.keep (by rfl))) (h1.keep (by rfl))))

theorem Tile.constantsFixed.atBoundary {t : Tile} (h : t.constantsFixed) :
    t.atBoundary.constantsFixed := by
  unfold Tile.atBoundary
  exact .ite (h.keep (by rfl)) h

theorem Tile.constantsFixed.noteReached {t : Tile} (h : t.constantsFixed) {addr cycle : Nat} :
    (t.noteReached addr cycle).constantsFixed := by
  unfold Tile.noteReached
  dsimp only
  split
  · exact .ite (h.keep (by rfl)) h
  · exact h

theorem State.constantsFixed.finishIssue {s : State} (h : s.constantsFixed) {b : Batch} :
    (s.finishIssue b).constantsFixed := by
  unfold State.finishIssue
  have h1 : ∀ c, Tile.constantsFixed { s.me with counters := c } := fun _ => h.me.keep (by with_reducible rfl)
  have h2 := fun c => ((h1 c).noteReached (addr := b.addr) (cycle := s.me.k.cycle)).endCycle (place := s.place s.cur) (addr := b.addr)
  have h3 := fun c p => Tile.constantsFixed.atBoundary ((h2 c).keep
    (u := { (Tile.endCycle _ (s.place s.cur) b.addr) with k := { (Tile.endCycle _ (s.place s.cur) b.addr).k with pos := p } })
    (by with_reducible rfl))
  exact .tickMe (h.setMe (.ite ((h3 _ _).keep (by with_reducible rfl)) ((h3 _ _).keep (by with_reducible rfl))))

theorem State.constantsFixed.finishHandlerIssue {s : State} (h : s.constantsFixed) {b : Batch} :
    (s.finishHandlerIssue b).constantsFixed := by
  unfold State.finishHandlerIssue
  exact .tickMe (.mapMe (h.setMe (h.me.endHandlerCycle.keep (by rfl))) (fun _ ht => ht.chargeTrap))

theorem Tile.constantsFixed.watch {t : Tile} (h : t.constantsFixed) {sem : Option Nat} {ns : Nat} :
    (t.watch sem ns).constantsFixed := by
  unfold Tile.watch
  dsimp only
  split
  · exact h.keep (by rfl)
  · exact h.keep (by rfl)

theorem State.constantsFixed.waitFreeze {s : State} (h : s.constantsFixed) {cause : Nat} {ws : List Wait} :
    (s.waitFreeze cause ws).constantsFixed := by
  unfold State.waitFreeze
  exact .ite h.clk (.mapMe (.freezeMe (h.mapMe (fun _ ht => ht.keep (by rfl)))) (fun _ ht => (ht.keep (by rfl)).watch))

theorem Segment.chk_foldl_addLeg (g : Segment) (ls : List Leg) : (ls.foldl Segment.addLeg g).chk = g.chk :=
  List.foldlRecOn (motive := fun x : Segment => x.chk = g.chk) ls _ rfl fun _ hx _ _ => hx

theorem State.constantsFixed.streamLegs {s : State} (h : s.constantsFixed) {addr : Nat} :
    (s.streamLegs addr).constantsFixed := by
  unfold State.streamLegs
  exact h.ite (h.mapMe fun _ ht => ht.congr rfl rfl rfl (Segment.chk_foldl_addLeg _ _) rfl)

theorem Tile.constantsFixed.traceStart {t : Tile} (h : t.constantsFixed) {entry : Nat} :
    (t.traceStart entry).constantsFixed := by
  unfold Tile.traceStart
  exact h.traceAdd

theorem State.constantsFixed.publishGate {s : State} (h : s.constantsFixed) :
    s.publishGate.constantsFixed := by
  unfold State.publishGate
  dsimp only
  split
  · exact h
  · split
    · exact .ite (h.mapMe (fun _ ht => ht.traceStart.keep (by rfl))) h
    · exact .mapLaunch (h.mapMe (fun _ ht => ht.traceStart.keep (by rfl)))

theorem Tile.constantsFixed.waitsOver {t : Tile} (h : t.constantsFixed) :
    t.waitsOver.constantsFixed := by
  unfold Tile.waitsOver
  exact h.keep (by rfl)

theorem issueBatch_constantsFixed {s : State} (h : s.constantsFixed) {b : Batch} (hb : b.KeepsConstants) :
    (issueBatch b s).constantsFixed := by
  unfold issueBatch
  dsimp only
  split
  · exact h.raiseCand
  · exact .ite h.raiseCand h.waitFreeze
  · exact h.waitFreeze
  · split
    · exact .ite (h.mapMe fun _ ht => ht.handlerFault)
        (.finishHandlerIssue (runChecker_constantsFixed h hb (runAll_constantsFixed h hb)))
    · have h1 := State.constantsFixed.replays (b := b) (depth := min s.me.k.depth 6) (h.publishGate.streamLegs (addr := b.addr))
      exact .finishIssue (.mapMe (runChecker_constantsFixed h1 hb (runAll_constantsFixed h1 hb)) fun _ ht => ht.waitsOver)

theorem State.constantsFixed.alone {s : State} (h : s.constantsFixed) {op : Instr} {sem : OpSem} (hsem : sem.KeepsConstants) :
    (s.alone op sem).constantsFixed := by
  unfold State.alone
  split
  · exact h.raiseCand
  · exact issueBatch_constantsFixed h fun p hp => by
      obtain rfl := List.mem_singleton.mp hp
      exact hsem

theorem issueAlone_constantsFixed {s : State} (h : s.constantsFixed) {op : Instr} {sem : OpSem} (hsem : sem.KeepsConstants) :
    OutcomeFixed (issueAlone op sem s) :=
  .next (h.alone hsem)

/-! ## Control -/

theorem State.constantsFixed.putSeq {s : State} (h : s.constantsFixed) {q : Sequencer} {p : Option Position} :
    (s.putSeq q p).constantsFixed := by
  unfold State.putSeq
  exact h.mapMe (fun _ ht => ht.keep (by rfl))

theorem consuming_constantsFixed {s : State} (h : s.constantsFixed) {x : Env → Scalar} {run off : Env → State → State} {e : Env}
    (hrun : ∀ e (s : State), s.constantsFixed → (run e s).constantsFixed)
    (hoff : ∀ e (s : State), s.constantsFixed → (off e s).constantsFixed) : (consuming x run off e s).constantsFixed := by
  unfold consuming
  split
  · exact h.consume
  · exact hoff e s h
  · exact hrun e s h

theorem State.constantsFixed.after_ {s : State} (h : s.constantsFixed) {e : Env} {cause : Nat} {v : Word} :
    (Env.after_ e cause v s).constantsFixed := by
  unfold Env.after_
  exact h.mapMe (fun _ ht => ht.keep (by rfl))

theorem prepSem_keeps {entry : BitVec 2} {target : Env → Scalar} : (prepSem entry target).KeepsConstants :=
  fun _ _ h => ⟨consuming_constantsFixed h (fun _ _ hs => hs.putSeq) fun _ _ hs => hs, h⟩

theorem semBr_keeps {f : FormCE} : (semBr f).KeepsConstants := OpSem.plain_keeps fun _ _ h => h.putSeq

theorem semCall_keeps {f : FormCE} : (semCall f).KeepsConstants := fun _ _ h => ⟨h.putSeq, h⟩

theorem semRet_keeps {f : FormGZ} : (semRet f).KeepsConstants := by
  refine fun e s h => ⟨?_, h⟩
  dsimp only [semRet, OpSem.plain]
  split
  · exact h
  · split <;> exact h.putSeq

theorem semLoop_keeps {f : FormCL} : (semLoop f).KeepsConstants := by
  refine fun e s h => ⟨?_, h.putSeq⟩
  dsimp only [semLoop]
  split
  · exact h.consume
  · exact h.putSeq
  · exact .ite h.putSeq h.putSeq

theorem semLbrk_keeps {f : FormCV} : (semLbrk f).KeepsConstants := by
  refine fun e s h => ⟨?_, h⟩
  dsimp only [semLbrk, OpSem.plain]
  split
  · exact h.putSeq
  · exact h

theorem semwSem_keeps {sem : BitVec 6} {n : Env → Scalar} : (semwSem sem n).KeepsConstants :=
  fun _ _ h => ⟨consuming_constantsFixed h
    (fun _ _ hs => hs.mapMe fun _ ht => .keep (by dsimp only [Segment.addLeg]) ht.traceWait) fun _ _ hs => hs, h⟩

theorem semWaitw_keeps {f : FormCA} : (semWaitw f).KeepsConstants :=
  fun _ _ h => ⟨consuming_constantsFixed h (fun _ _ hs => hs) fun _ _ hs => hs, h⟩

theorem semStepMark_keeps {f : FormCI} : (semStepMark f).KeepsConstants :=
  OpSem.plain_keeps fun _ _ h => h.mapMe fun _ ht => .traceAdd (ht.keep (by rfl))

theorem semBrk_keeps {f : FormCI} : (semBrk f).KeepsConstants :=
  OpSem.plain_keeps fun _ _ h => .ite (h.mapMe fun _ ht => ht.keep (by rfl)) h.after_

theorem semTrap_keeps {f : FormCI} : (semTrap f).KeepsConstants := OpSem.plain_keeps fun _ _ h => h.after_

theorem semSys_keeps {f : FormCI} : (semSys f).KeepsConstants := OpSem.plain_keeps fun _ _ h => h.after_

theorem semEndItem_keeps {f : FormGZ} :
    (semEndItem f).KeepsConstants := OpSem.plain_keeps fun _ _ h => h.mapMe fun _ ht => ht.keep (by rfl)

theorem semChkctl_keeps {f : FormCK} : (semChkctl f).KeepsConstants :=
  OpSem.plain_keeps fun _ _ h => .ite (h.mapMe fun _ ht => ht.keep (by rfl)) h

theorem semDblctl_keeps {f : FormCI} : (semDblctl f).KeepsConstants :=
  OpSem.plain_keeps fun _ _ h => h.ite (h.mapMe fun _ ht => ht.keep (by rfl))

theorem semCtrap_keeps {f : FormGAB} : (semCtrap f).KeepsConstants :=
  OpSem.plain_keeps fun _ _ h => h.ite (h.mapMe fun _ ht => ht.compared)

theorem semCommit_keeps {f : FormGZ} : (semCommit f).KeepsConstants :=
  OpSem.plain_keeps fun _ _ h => h.mapMe fun _ ht => ht.keep (by rfl)

/-! ## Vector -/

theorem laneSem_keeps {lat : Nat} {m : BitVec 3} {tag : Env → Nat → Tag} {val : Env → Nat → LaneBits} :
    (laneSem lat m tag val).KeepsConstants :=
  OpSem.vector_keeps fun _ _ h => h.pushVector

theorem lane1_keeps {lat : Nat} {m : BitVec 3} {f : LaneBits → LaneBits} : (lane1 lat m f).KeepsConstants := by
  unfold lane1
  exact laneSem_keeps

theorem lane2_keeps {lat : Nat} {m : BitVec 3} {f : LaneBits → LaneBits → LaneBits} : (lane2 lat m f).KeepsConstants := by
  unfold lane2
  exact laneSem_keeps

theorem lane3_keeps {lat : Nat} {m : BitVec 3} {f : LaneBits → LaneBits → LaneBits → LaneBits} :
    (lane3 lat m f).KeepsConstants := by
  unfold lane3
  exact laneSem_keeps

theorem flt2_keeps {lat : Nat} {t : BitVec 2} {m : BitVec 3} {f : Ext → Ext → Ext} : (flt2 lat t m f).KeepsConstants := by
  unfold flt2
  exact lane2_keeps

theorem flt3_keeps {lat : Nat} {t : BitVec 2} {m : BitVec 3} {f : Ext → Ext → Ext → Ext} : (flt3 lat t m f).KeepsConstants := by
  unfold flt3
  exact lane3_keeps

theorem vitpSem_keeps {m : BitVec 3} {f : Fmt} : (vitpSem m f).KeepsConstants := OpSem.vector_keeps fun _ _ h => h.pushVector

theorem semVsel_keeps {f : FormVA} : (semVsel f).KeepsConstants := OpSem.vector_keeps fun _ _ h => h.pushVector

theorem semVext_keeps {f : FormVA} : (semVext f).KeepsConstants := OpSem.scalar_keeps fun _ _ h => h.pushScalar

theorem semVchk_keeps {f : FormVK} : (semVchk f).KeepsConstants := OpSem.plain_keeps fun _ _ h => h.mapMe fun _ ht => ht.compared

theorem vcmpSem_keeps {m : BitVec 3} {j : BitVec 2} {f : LaneBits → LaneBits → Bool} : (vcmpSem m j f).KeepsConstants := by
  refine fun e s h => ⟨?_, h.putMasks⟩
  dsimp only [vcmpSem]
  split
  · exact h.consume
  · exact h.putMasks

theorem semVbcast_keeps {f : FormVA} : (semVbcast f).KeepsConstants := fun _ _ h => ⟨h.pushVector, h.pushVector⟩

theorem semVins_keeps {f : FormVA} : (semVins f).KeepsConstants := fun _ _ h => ⟨h.pushVector, h.pushVector⟩

theorem semVcmpF_keeps {f : FormVFC} : (semVcmpF f).KeepsConstants := by
  unfold semVcmpF
  exact vcmpSem_keeps

/-! ## MSlot -/

theorem loadSem_keeps {z : Nat} {signed : Bool} : (loadSem z signed).KeepsConstants := fun _ _ h => ⟨h.pushScalar, h.pushScalar⟩

theorem vloadSem_keeps {lat : Nat} {lanes : Env → List (Nat × Tag)} : (vloadSem lat lanes).KeepsConstants :=
  fun _ _ h => ⟨h.pushVector, h.pushVector⟩

theorem State.constantsFixed.putWrite {s : State} (h : s.constantsFixed) {cs : List Host.Cell} :
    (s.putWrite cs).constantsFixed := by
  unfold State.putWrite
  exact .ite h (h.mapMe (fun _ ht => ht.keep (by rfl)))

theorem storeSem_keeps {z : Nat} {lanes : Env → List ((Nat × Tag) × Nat × Tag)} : (storeSem z lanes).KeepsConstants := by
  refine fun e s h => ⟨?_, h⟩
  dsimp only [storeSem, OpSem.plain]
  split
  · exact h.consume
  · exact h.putWrite

theorem scalarStoreSem_keeps {z : Nat} : (scalarStoreSem z).KeepsConstants := by
  unfold scalarStoreSem
  exact storeSem_keeps

theorem vstoreSem_keeps {lanes : Env → List (Nat × Tag)} : (vstoreSem lanes).KeepsConstants := by
  unfold vstoreSem
  exact storeSem_keeps

theorem localAtomicSem_keeps {f : Word → Word → Word → Word} : (localAtomicSem f).KeepsConstants := by
  refine fun e s h => ⟨?_, h.pushScalar⟩
  dsimp only [localAtomicSem, OpSem.scalar]
  split
  · exact h.consume
  · exact h.pushScalar
  · exact .ite h.pushScalar h.putWrite.pushScalar

theorem semVldr_keeps {f : FormHDAB} : (semVldr f).KeepsConstants := by
  refine fun e s h => ⟨?_, h.pushVector⟩
  dsimp only [semVldr, OpSem.vector]
  split
  · exact h.pushVector
  · exact .ite h.pushVector h.pushVector

theorem semHbind_keeps {f : FormHA} : (semHbind f).KeepsConstants := by
  refine fun e s h => ⟨?_, h⟩
  dsimp only [semHbind, OpSem.plain]
  split
  · exact h
  · exact h.consume
  · exact .ite h.consumeRecord h.deliver

theorem semHunbind_keeps {f : FormH0} : (semHunbind f).KeepsConstants := OpSem.plain_keeps fun _ _ h => h.deliver

/-! ## Ragged -/

theorem segSem_keeps {lat : Nat} {hd : BitVec 3} {empty : Env → State → State}
    (hempty : ∀ e (s : State), s.constantsFixed → (empty e s).constantsFixed)
    {lane : ElemFmt → List Tag → List Ext → Nat → Tag × LaneBits} : (segSem lat hd empty lane).KeepsConstants := by
  refine fun e s h => ⟨?_, h.pushVector⟩
  dsimp only [segSem, OpSem.vector]
  split
  · exact h.pushVector
  · exact .ite h.pushVector (.ite (hempty e s h) h.pushVector)

theorem reduceSem_keeps {lat : Nat} {hd : BitVec 3} {empty : Env → State → State}
    (hempty : ∀ e (s : State), s.constantsFixed → (empty e s).constantsFixed) {f : ElemFmt → List Ext → LaneBits} :
    (reduceSem lat hd empty f).KeepsConstants := by
  unfold reduceSem
  exact segSem_keeps hempty

/-! ## XSlot -/

theorem State.constantsFixed.configure {s : State} (h : s.constantsFixed) {f : MxCfg → MxCfg} :
    (s.configure f).constantsFixed := by
  unfold State.configure
  exact h.mapMe (fun _ ht => ht.keep (by rfl))

theorem configSem_keeps {check : Nat → List Cand} {f : Nat → MxCfg → MxCfg} : (configSem check f).KeepsConstants :=
  fun _ _ h => ⟨consuming_constantsFixed h (fun _ _ hs => hs.configure) fun _ _ hs => hs, h⟩

theorem semXsrc_keeps {f : FormXS} : (semXsrc f).KeepsConstants := OpSem.plain_keeps fun _ _ h => h.configure

theorem semXsdiag_keeps {f : FormXF} : (semXsdiag f).KeepsConstants := OpSem.plain_keeps fun _ _ h => h.configure

theorem State.constantsFixed.issueMatrix {s : State} (h : s.constantsFixed) {e : Env} {x : MxCmd} :
    (Env.issueMatrix e x s).constantsFixed := by
  unfold Env.issueMatrix
  exact .issueCmdWith (h.mapMe (fun _ ht => ht.keep (by rfl)))

theorem semXbmp_keeps {f : FormXB} : (semXbmp f).KeepsConstants := by
  unfold semXbmp
  split
  · exact OpSem.plain_keeps fun _ _ h => h.configure
  · exact configSem_keeps

theorem semXzero_keeps {f : FormXA} : (semXzero f).KeepsConstants :=
  fun _ _ h => ⟨consuming_constantsFixed h (fun _ _ hs => hs.issueMatrix) fun _ _ hs => hs, h⟩

theorem semXgo_keeps {f : FormXF} : (semXgo f).KeepsConstants :=
  fun _ _ h => ⟨.ite h.issueMatrix (h.issueMatrix.mapMe fun _ ht => ht.keep (by rfl)), h⟩

theorem semXdrain_keeps {f : FormGAB} : (semXdrain f).KeepsConstants := by
  refine fun e s h => ⟨?_, h⟩
  dsimp only [semXdrain, OpSem.plain]
  split
  · exact h.consume
  · exact h
  · exact h.issueMatrix

theorem semXwait_keeps {f : FormGZ} : (semXwait f).KeepsConstants :=
  fun _ _ h => ⟨h.mapMe fun _ ht => .keep (by dsimp only [Segment.addLeg]) ht.traceWait, h⟩

theorem semXstat_keeps {f : FormXS} : (semXstat f).KeepsConstants := OpSem.scalar_keeps fun _ _ h => h.pushScalar

/-! ## QSlot -/

theorem commandSem_keeps {check : Env → State → List Cand} {run void : Env → State → State}
    (hrun : ∀ e (s : State), s.constantsFixed → (run e s).constantsFixed)
    (hvoid : ∀ e (s : State), s.constantsFixed → (void e s).constantsFixed) : (commandSem check run void).KeepsConstants := by
  refine fun e s h => ⟨?_, hvoid e s h⟩
  dsimp only [commandSem]
  split
  · exact h.consume
  · exact hvoid e s h
  · exact hrun e s h

theorem pushIndex_constantsFixed {s : State} (h : s.constantsFixed) {k : Nat} {e : Env} :
    (pushIndex k e s).constantsFixed := by
  unfold pushIndex
  dsimp only
  split
  · exact h
  · exact .ite (h.mapMe (fun _ ht => ht.keep (by rfl))) (.issueCmdWith (h.mapMe (fun _ ht => ht.keep (by rfl))))

theorem xferSem_keeps {send rsend : Bool} : (xferSem send rsend).KeepsConstants :=
  commandSem_keeps (fun _ _ h => .ite h.consumeRecord (.mapMe (.ite h.countHeld h) fun _ ht => ht.addCmd))
    fun _ _ h => .ite h.countHeld h

theorem State.constantsFixed.handlerSem {s : State} (h : s.constantsFixed) {e : Env} {sem : Nat} {op : SemOp} :
    (s.handlerSem e sem op).constantsFixed := by
  unfold State.handlerSem
  exact h.mapMe (fun _ ht => ht.keep (by rfl))

theorem heldIssue_constantsFixed {s : State} (h : s.constantsFixed) :
    (heldIssue s).constantsFixed := by
  unfold heldIssue
  exact .ite h h.countHeld

theorem takePlace_constantsFixed {s : State} (h : s.constantsFixed) {k : Nat} {val : Option Scalar} :
    (takePlace k val s).constantsFixed := by
  unfold takePlace
  dsimp only
  refine .mapMe h (fun t ht => ?_)
  split
  · exact ht
  · exact ht.keep (by rfl)

theorem atomicSem_keeps {op : AtomicOp} {ret : Option Nat} {badD : Option (BitVec 6)} :
    (atomicSem op ret badD).KeepsConstants := by
  have hclose : ∀ s : State, s.constantsFixed → (if ret.isSome then
      (heldIssue s).mapMe fun t => { t with dfr := { t.dfr with closes := true } } else heldIssue s).constantsFixed :=
    fun s h => .ite ((heldIssue_constantsFixed h).mapMe fun _ ht => ht.keep (by rfl)) (heldIssue_constantsFixed h)
  refine commandSem_keeps (fun e s h => .issueCmd ?_) fun e s h => ?_ <;> dsimp only <;> split
  · exact takePlace_constantsFixed (hclose s h)
  · exact hclose s h
  · exact .issueCmd (takePlace_constantsFixed (hclose s h))
  · exact hclose s h

theorem semSbind_keeps {f : FormHA} : (semSbind f).KeepsConstants :=
  commandSem_keeps (fun _ _ h => .ite h.consumeRecord (.issueCmdWith (h.mapMe fun _ ht => ht.keep (by rfl)))) fun _ _ h => h

theorem semSunbind_keeps {f : FormH0} : (semSunbind f).KeepsConstants :=
  commandSem_keeps (fun _ _ h => .issueCmdWith (h.mapMe fun _ ht => ht.keep (by rfl))) fun _ _ h => h

theorem semGpush_keeps {f : FormHA} : (semGpush f).KeepsConstants :=
  fun _ _ h => ⟨.ite h.consume (pushIndex_constantsFixed h), h⟩

theorem semSsig_keeps {f : FormSG} : (semSsig f).KeepsConstants :=
  commandSem_keeps (fun _ _ h => .ite h.handlerSem (.issueCmd (heldIssue_constantsFixed h))) fun _ _ h => heldIssue_constantsFixed h

theorem semSsigR_keeps {f : FormSG} : (semSsigR f).KeepsConstants :=
  commandSem_keeps (fun _ _ h => .issueCmd (heldIssue_constantsFixed h)) fun _ _ h => heldIssue_constantsFixed h

theorem semSinit_keeps {f : FormGAB} : (semSinit f).KeepsConstants :=
  commandSem_keeps (fun _ _ h => .ite h.handlerSem (.issueCmd (heldIssue_constantsFixed h))) fun _ _ h => heldIssue_constantsFixed h

theorem semFence_keeps {f : FormXA} : (semFence f).KeepsConstants :=
  commandSem_keeps (fun _ _ h => .ite (h.mapMe fun _ ht => ht.keep (by rfl)) h.issueCmd) fun _ _ h => h

theorem semLaunch_keeps {f : FormXA} : (semLaunch f).KeepsConstants :=
  commandSem_keeps (fun _ _ h => .ite (.consumeRecord (heldIssue_constantsFixed h)) (.issueCmd (heldIssue_constantsFixed h)))
    fun _ _ h => heldIssue_constantsFixed h

theorem semPref_keeps {f : FormXA} : (semPref f).KeepsConstants := commandSem_keeps (fun _ _ h => h.issueCmd) fun _ _ h => h

theorem semSread_keeps {f : FormSU} : (semSread f).KeepsConstants := fun _ _ h => ⟨h.pushScalar, h.pushScalar⟩

/-! ## Xlat -/

theorem State.constantsFixed.setStoreAt {s : State} (h : s.constantsFixed) {l : Loc} {m : Store} :
    (s.setStoreAt l m).constantsFixed := by
  unfold State.setStoreAt
  exact .ite (h.keep (by rfl)) (h.keep (by rfl))

theorem State.constantsFixed.mapTiles {s : State} (h : s.constantsFixed) {ts : List TileNo} {f : Tile → Tile}
    (hf : ∀ u, u.constantsFixed → (f u).constantsFixed) : (s.mapTiles ts f).constantsFixed := by
  unfold State.mapTiles
  exact h.foldl fun _ t hu => hu.setTile (hf _ (hu.tile t))

theorem State.constantsFixed.mapDies {s : State} (h : s.constantsFixed) {f : Nat → Die → Die} :
    (s.mapDies f).constantsFixed := by
  unfold State.mapDies
  exact h.keep (by rfl)

theorem State.constantsFixed.shoot {s : State} (h : s.constantsFixed) {p : PartNo} {i : Invalidation} :
    (s.shoot p i).constantsFixed := by
  unfold State.shoot
  exact .mapDies (h.mapTiles (fun _ ht => ht.keep (by rfl)))

theorem State.constantsFixed.mapFrame {s : State} (h : s.constantsFixed) {pa : Nat} {g : Frame → Frame} :
    (s.mapFrame pa g).constantsFixed := by
  unfold State.mapFrame
  exact h.setDie

theorem State.constantsFixed.logRefusal {s : State} (h : s.constantsFixed) {die : Nat} {src : BitVec 16} {tag detail pa : Nat} :
    (s.logRefusal die src tag detail pa).constantsFixed := by
  unfold State.logRefusal
  exact h.setDie

theorem State.constantsFixed.writeLoc {s : State} (h : s.constantsFixed) {l : Loc} {bs : List (Byte × Bool)} :
    (s.writeLoc l bs).constantsFixed := by
  unfold State.writeLoc
  exact h.setStoreAt

theorem State.constantsFixed.writeHeld {s : State} (h : s.constantsFixed) {p : Option PartNo} {l : Loc} {bs : List
    (Byte × Bool)} {waiters : List (TileNo × Nat)} :
    (s.writeHeld p l bs waiters).constantsFixed := by
  unfold State.writeHeld
  exact .ite (h.keep (by rfl)) h.writeLoc

theorem State.constantsFixed.refuseHw {s : State} (h : s.constantsFixed) {l : Loc} {detail : Nat} :
    (s.refuseHw l detail).constantsFixed := by
  unfold State.refuseHw
  exact (h.keep (by rfl)).logRefusal

theorem State.constantsFixed.privWrite {s : State} (h : s.constantsFixed) {p : PartNo} {va : Nat} {bs : List (Byte × Bool)} :
    (s.privWrite p va bs).constantsFixed := by
  unfold State.privWrite
  extract_lets n first put
  have hput : ∀ u a xs, u.constantsFixed → (put u a xs).constantsFixed := by
    intro u a xs hu
    unfold put
    split
    · exact hu
    · split
      · split
        · exact hu.refuseHw
        · exact .ite hu.writeHeld hu
      · exact hu
  exact hput _ _ _ (hput _ _ _ h)

theorem State.constantsFixed.noteRead {s : State} (h : s.constantsFixed) {p : PartNo} {va n : Nat} :
    (s.noteRead p va n).constantsFixed := by
  unfold State.noteRead
  extract_lets first note
  have hnote : ∀ u a k, u.constantsFixed → (note u a k).constantsFixed := by
    intro u a k hu
    unfold note
    split
    · exact hu
    · split
      · split
        · exact hu.refuseHw
        · exact hu
      · exact hu
  exact hnote _ _ _ (hnote _ _ _ h)

/-! ## Request -/

theorem Tile.constantsFixed.mapActive {t : Tile} (h : t.constantsFixed) {id : Nat} {f : Active → Active} :
    (t.mapActive id f).constantsFixed := by
  unfold Tile.mapActive
  exact h.keep (by rfl)

theorem Tile.constantsFixed.noteAsked {t : Tile} (h : t.constantsFixed) {id : Nat} {loc : Option Loc} {fault : Option
    (Nat × Nat)} {reported : Bool} :
    (t.noteAsked id loc fault reported).constantsFixed := by
  unfold Tile.noteAsked
  exact .ite h.mapActive (h.keep (by rfl))

/-! ## Translate -/

theorem State.constantsFixed.mapXl {s : State} (h : s.constantsFixed) {p : PartNo} {f : PartXlat → PartXlat} :
    (s.mapXl p f).constantsFixed := by
  unfold State.mapXl
  exact h.setPart

theorem State.constantsFixed.recordMiss {s : State} (h : s.constantsFixed) {tn : TileNo} {copy : Bool} :
    (s.recordMiss tn copy).constantsFixed := by
  unfold State.recordMiss
  dsimp only
  split
  · exact .ite (.mapXl (h.privWrite.setTile (.keep (by rfl) (h.privWrite.tile tn)))) h
  · exact h

theorem State.constantsFixed.missArises {s : State} (h : s.constantsFixed) {tn : TileNo} {copy : Bool} :
    (s.missArises tn copy).constantsFixed := by
  unfold State.missArises
  dsimp only
  split
  · exact .recordMiss (h.setTile (.keep (by rfl) (h.tile tn)))
  · exact h.recordMiss

theorem execTranslationMiss_constantsFixed {s : State} (h : s.constantsFixed) {t : TileNo} {copyEngine : Bool} :
    OutcomeFixed (execTranslationMiss t copyEngine s) := by
  unfold execTranslationMiss
  exact .next h.missArises

theorem State.constantsFixed.missEnds {s : State} (h : s.constantsFixed) {tn : TileNo} {copy : Bool} {r : Except Nat
    (Word × Nat)} :
    (s.missEnds tn copy r).constantsFixed := by
  unfold State.missEnds
  dsimp only
  split
  · exact h
  · split
    · exact .setTile (.ite h.mapXl h) (.keep (by rfl) (h.tile tn))
    · refine .setTile (.ite h.mapXl h) ?_
      split
      · exact .noteAsked (.keep (by rfl) (h.tile tn))
      · exact .keep (by rfl) (h.tile tn)

theorem execTranslationWalkComplete_constantsFixed {s : State} (h : s.constantsFixed) {t : TileNo} {copyEngine : Bool} :
    OutcomeFixed (execTranslationWalkComplete t copyEngine s) := by
  unfold execTranslationWalkComplete
  dsimp only
  split
  · exact .ite (.next h) (.next h.setDie.missEnds)
  · exact .next h

theorem State.constantsFixed.walkFill {s : State} (h : s.constantsFixed) {o : Origin} {v : Word} :
    (s.walkFill o v).constantsFixed := by
  unfold State.walkFill
  split
  · split
    · exact .ite h.missEnds h
    · exact h
  · exact h

theorem execWalkFill_constantsFixed {s : State} (h : s.constantsFixed) {o : Origin} {v : Word} :
    OutcomeFixed (execWalkFill o v s) := by
  unfold execWalkFill
  exact .next h.walkFill

theorem execWalkData_constantsFixed {s : State} (h : s.constantsFixed) :
    OutcomeFixed (execWalkData s) := by
  unfold execWalkData
  exact .next (h.mapMe (fun _ ht => .ite (ht.keep (by rfl)) ht))

theorem State.constantsFixed.reportFault {s : State} (h : s.constantsFixed) {tn : TileNo} {f : Nat × Nat} {handler : Bool}
    {va addr cycle : Nat} :
    (s.reportFault tn f handler va addr cycle).constantsFixed := by
  unfold State.reportFault
  exact (h.keep (by rfl)).setTile (.raiseAsync (.keep (by rfl) ((h.keep (by rfl)).tile tn)))

theorem execEngineFault_constantsFixed {s : State} (h : s.constantsFixed) {t : TileNo} {id : Nat} :
    OutcomeFixed (execEngineFault t id s) := by
  unfold execEngineFault
  dsimp only
  split
  · exact .next h
  · exact .ite (.next h) (.ite (.next (h.setTile (.noteAsked (h.tile t)))) (.next (.reportFault (h.setTile (.noteAsked (h.tile t))))))

theorem Tile.constantsFixed.resumeFaults {t : Tile} (h : t.constantsFixed) :
    t.resumeFaults.constantsFixed := by
  unfold Tile.resumeFaults
  exact h.keep (by rfl)

theorem State.constantsFixed.efResume {s : State} (h : s.constantsFixed) {o : Origin} {v : Word} :
    (s.efResume o v).constantsFixed := by
  unfold State.efResume
  dsimp only
  split
  · exact h
  · split
    · exact .ite (h.setTile (.resumeFaults (h.tile _))) h
    · exact .ite (h.setTile (.resumeFaults (h.tile _))) h

theorem execEfResume_constantsFixed {s : State} (h : s.constantsFixed) {o : Origin} {v : Word} :
    OutcomeFixed (execEfResume o v s) := by
  unfold execEfResume
  exact .next h.efResume

theorem State.constantsFixed.xlShoot {s : State} (h : s.constantsFixed) {o : Origin} {v : Word} :
    (s.xlShoot o v).constantsFixed := by
  unfold State.xlShoot
  split
  · exact h
  · split
    · exact h
    · exact h.shoot.mapXl

theorem execXlShoot_constantsFixed {s : State} (h : s.constantsFixed) {o : Origin} {v : Word} :
    OutcomeFixed (execXlShoot o v s) := by
  unfold execXlShoot
  exact .next h.xlShoot

theorem execXlShootDone_constantsFixed {s : State} (h : s.constantsFixed) {p : PartNo} :
    OutcomeFixed (execXlShootDone p s) := by
  unfold execXlShootDone
  exact .ite (.next h.shoot.mapXl) (.next h)

theorem State.constantsFixed.migResult {s : State} (h : s.constantsFixed) {p : PartNo} {r : Nat} :
    (s.migResult p r).constantsFixed := by
  unfold State.migResult
  exact h.mapXl

theorem State.constantsFixed.pushFree {s : State} (h : s.constantsFixed) {d pa : Nat} :
    (s.pushFree d pa).constantsFixed := by
  unfold State.pushFree
  exact .ite (h.keep (by rfl)).setDie h

theorem State.constantsFixed.popFree {s : State} (h : s.constantsFixed) {d : Nat} :
    (s.popFree d).constantsFixed := by
  unfold State.popFree
  exact h.setDie

theorem State.constantsFixed.startMigration {s : State} (h : s.constantsFixed) {p : PartNo} {va dest : Nat} {old : Option Nat} :
    (s.startMigration p va dest old).constantsFixed := by
  unfold State.startMigration
  dsimp only
  split
  · refine .migResult ?_
    split
    · exact h.mapFrame
    · exact h
  · split
    · exact .migResult (.ite h h.mapFrame)
    · split
      · exact h.migResult
      · split
        · exact .ite h.mapXl h
        · split
          · exact h.migResult
          · exact h.popFree.setDie

theorem State.constantsFixed.retryMigrations {s : State} (h : s.constantsFixed) :
    s.retryMigrations.constantsFixed := by
  unfold State.retryMigrations
  refine .foldl h fun u x hu => ?_
  split
  · exact hu.mapXl.startMigration
  · exact hu

theorem State.constantsFixed.countRequest {s : State} (h : s.constantsFixed) {p : PartNo} {d : Nat} {l : Loc} {va : Nat} :
    (s.countRequest p d l va).constantsFixed := by
  unfold State.countRequest
  exact .ite h (.ite h.mapFrame.startMigration h.mapFrame)

theorem State.constantsFixed.refuse {s : State} (h : s.constantsFixed) {die : Nat} {t : TileNo} {detail pa : Nat} :
    (s.refuse die t detail pa).constantsFixed := by
  unfold State.refuse
  exact (h.keep (by rfl)).logRefusal

theorem execHomeDieRequest_constantsFixed {s : State} (h : s.constantsFixed) {t : TileNo} {id : Nat} :
    OutcomeFixed (execHomeDieRequest t id s) := by
  unfold execHomeDieRequest
  dsimp only
  split
  · exact .next h
  · split
    · exact .next h
    · split
      · exact .next h
      · split
        · exact .next (.countRequest (.refuse (h.setTile (.noteAsked (h.tile t)))))
        · exact .next (.countRequest (h.setTile (.noteAsked (h.tile t))))

theorem State.constantsFixed.migCmd {s : State} (h : s.constantsFixed) {o : Origin} {v : Word} :
    (s.migCmd o v).constantsFixed := by
  unfold State.migCmd
  dsimp only
  split
  · exact h
  · exact .ite h h.startMigration

theorem execMigCmd_constantsFixed {s : State} (h : s.constantsFixed) {o : Origin} {v : Word} :
    OutcomeFixed (execMigCmd o v s) := by
  unfold execMigCmd
  exact .next h.migCmd

theorem execMigDecayHalving_constantsFixed {s : State} (h : s.constantsFixed) {p : PartNo} {d : DieNo} :
    OutcomeFixed (execMigDecayHalving p d s) := by
  unfold execMigDecayHalving
  exact .ite (.next h) (.next h.setDie.mapXl)

theorem State.constantsFixed.forward {s : State} (h : s.constantsFixed) {old new : Nat} {t : TileNo} :
    (State.forward old new s t).constantsFixed := by
  unfold State.forward
  dsimp only
  refine .foldl (h.setTile (.keep (by rfl) (h.tile t))) fun u x hu => ?_
  split
  · exact hu
  · split
    · exact hu
    · split
      · exact .refuse (hu.setTile (.noteAsked (hu.tile t)))
      · exact hu.setTile (.noteAsked (hu.tile t))

theorem State.constantsFixed.waiterDone {s : State} (h : s.constantsFixed) {w : TileNo × Nat} :
    (s.waiterDone w).constantsFixed := by
  unfold State.waiterDone
  exact .ite h (h.setTile (.mapActive (h.tile w.1)))

theorem State.constantsFixed.refuseHeld {s : State} (h : s.constantsFixed) {w : HeldWrite} {l : Loc} {d : Nat} :
    (s.refuseHeld w l d).constantsFixed := by
  unfold State.refuseHeld
  refine .foldl ?_ fun _ w hu => hu.setTile (.noteAsked (.mapActive (hu.tile w.1)))
  split
  · exact h.refuse
  · exact h.refuseHw

theorem State.constantsFixed.releaseWrite {s : State} (h : s.constantsFixed) {old new : Nat} {w : HeldWrite} :
    (State.releaseWrite old new s w).constantsFixed := by
  unfold State.releaseWrite
  dsimp only
  split
  · exact h.refuseHeld
  · exact h.writeHeld

theorem State.constantsFixed.releaseWrites {s : State} (h : s.constantsFixed) {old new : Nat} :
    (s.releaseWrites old new).constantsFixed := by
  unfold State.releaseWrites
  exact .foldl ((h.keep (by rfl)).foldl fun _ _ hu => hu.releaseWrite) fun _ _ hu => hu.waiterDone

theorem execMigrationComplete_constantsFixed {s : State} (h : s.constantsFixed) :
    OutcomeFixed (execMigrationComplete s) := by
  unfold execMigrationComplete
  split
  · exact .next h
  · refine .ite (.next h.setDie.pushFree.releaseWrites.migResult.retryMigrations) (.next (.retryMigrations (.mapXl ?_)))
    exact .releaseWrites (.keep (by with_reducible rfl) (.shoot (.foldl
      (.pushFree (.mapFrame (.mapFrame (h.setDie.keep (by with_reducible rfl))))) fun _ _ hu => hu.forward)))

theorem State.constantsFixed.frameSet {s : State} (h : s.constantsFixed) {d : Nat} {v : Word} :
    (s.frameSet d v).constantsFixed := by
  unfold State.frameSet
  exact .ite h (h.foldl fun _ _ hu => .ite hu.setDie hu)

theorem execFrameSet_constantsFixed {s : State} (h : s.constantsFixed) {d : DieNo} {v : Word} :
    OutcomeFixed (execFrameSet d v s) := by
  unfold execFrameSet
  exact .next (.ite h.frameSet h)

theorem State.constantsFixed.freePush {s : State} (h : s.constantsFixed) {d : Nat} {v : Word} :
    (s.freePush d v).constantsFixed := by
  unfold State.freePush
  exact .ite h h.pushFree

theorem execFreePush_constantsFixed {s : State} (h : s.constantsFixed) {d : DieNo} {v : Word} :
    OutcomeFixed (execFreePush d v s) := by
  unfold execFreePush
  exact .next (.ite h.freePush h)

theorem execRefuseLog_constantsFixed {s : State} (h : s.constantsFixed) :
    OutcomeFixed (execRefuseLog s) := by
  unfold execRefuseLog
  exact .ite (.next h) (.next (h.keep (by rfl)).setDie)

/-! ## Pool -/

theorem State.constantsFixed.setGate {s : State} (h : s.constantsFixed) {tile idx : Nat} {v : BitVec 32} :
    (s.setGate tile idx v).constantsFixed := by
  unfold State.setGate
  exact h.setDie

theorem State.constantsFixed.raiseGate {s : State} (h : s.constantsFixed) {g : Nat × Nat × Nat} :
    (s.raiseGate g).constantsFixed := by
  unfold State.raiseGate
  exact h.setGate

theorem State.constantsFixed.errEntry {s : State} (h : s.constantsFixed) {e : ErrEntry} :
    (s.errEntry e).constantsFixed := by
  unfold State.errEntry
  exact .ite h (.ite h.setPart h.privWrite.setPart)

theorem State.constantsFixed.tileEntry {s : State} (h : s.constantsFixed) {tn : TileNo}
    {cls verdict cause unit addr cycle detail : Nat} :
    (s.tileEntry tn cls verdict cause unit addr cycle detail).constantsFixed := by
  unfold State.tileEntry
  exact h.errEntry

theorem State.constantsFixed.onIdle {s : State} (h : s.constantsFixed) {tn : TileNo} :
    (s.onIdle tn).constantsFixed := by
  unfold State.onIdle
  exact .ite h (h.setTile (.keep (by rfl) (h.tile tn)))

theorem State.constantsFixed.excludeSoon {s : State} (h : s.constantsFixed) {tn : TileNo} :
    (s.excludeSoon tn).constantsFixed := by
  unfold State.excludeSoon
  exact .ite h (.onIdle (.tileEntry (h.setTile (.keep (by rfl) (h.tile tn)))))

theorem State.constantsFixed.endRun {s : State} (h : s.constantsFixed) {tn : TileNo} : (s.endRun tn).constantsFixed := by
  unfold State.endRun
  refine .onIdle (h.setTile ?_)
  obtain ⟨hk, hv, hs, _, _⟩ := h.tile tn
  exact .bare hk hv hs (by rw [Segment.reset]) rfl

theorem State.constantsFixed.dropMisses {s : State} (h : s.constantsFixed) {tn : TileNo} :
    (s.dropMisses tn).constantsFixed := by
  unfold State.dropMisses
  exact .setPart (h.setTile (.keep (by rfl) (h.tile tn)))

theorem State.constantsFixed.freeSlot {s : State} (h : s.constantsFixed) {p : PartNo} {slot : Nat} :
    (s.freeSlot p slot).constantsFixed := by
  unfold State.freeSlot
  exact h.setPart

theorem State.constantsFixed.killRank {s : State} (h : s.constantsFixed) {p : PartNo} {id gang : Nat} {now : TileNo → Bool}
    {keep : Option TileNo} {r : RankPlace} : (s.killRank p id gang now keep r).constantsFixed := by
  unfold State.killRank
  extract_lets off
  have hoff : ∀ u t, u.constantsFixed → (off u t).constantsFixed := by
    intro u t hu
    unfold off
    split
    · exact .ite hu.endRun hu
    · exact hu
  split
  · split
    · exact h.setTile (.keep (by rfl) (h.tile _))
    · exact h
  · split
    · exact hoff _ _ h
    · exact hoff _ _ h.freeSlot
    · exact h.freeSlot
    · exact hoff _ _ h.freeSlot
    · exact h
    · exact h
    · exact h

theorem State.constantsFixed.killGang {s : State} (h : s.constantsFixed) {id gang : Nat} {now : TileNo → Bool}
    {keep : Option TileNo} :
    (s.killGang id gang now keep).constantsFixed := by
  unfold State.killGang
  dsimp only
  split
  · exact h
  · exact .mapLaunch (h.foldl fun _ _ hu => hu.foldl fun _ _ hw => hw.killRank)

theorem State.constantsFixed.killedEnds {s : State} (h : s.constantsFixed) {tn : TileNo} :
    (s.killedEnds tn).constantsFixed := by
  unfold State.killedEnds
  dsimp only
  split
  · exact h
  · refine .mapLaunch ?_
    refine .endRun ?_
    split
    · exact h.freeSlot
    · exact h.freeSlot
    · exact h.freeSlot
    · exact h

theorem State.constantsFixed.setEnding {s : State} (h : s.constantsFixed) {id : Nat} {e : Ending} :
    (s.setEnding id e).constantsFixed := by
  unfold State.setEnding
  exact h.mapLaunch

theorem State.constantsFixed.killItem {s : State} (h : s.constantsFixed) {tn : TileNo} {e : Ending} {keep : Bool} :
    (s.killItem tn e keep).constantsFixed := by
  unfold State.killItem
  split
  · exact h
  · exact h.setEnding.killGang

theorem State.constantsFixed.killLaunch {s : State} (h : s.constantsFixed) {id : Nat} {e : Ending} {now : TileNo → Bool} :
    (s.killLaunch id e now).constantsFixed := by
  unfold State.killLaunch
  split
  · exact h
  · exact h.setEnding.foldl fun _ _ hu => hu.killGang

theorem State.constantsFixed.quarantine {s : State} (h : s.constantsFixed) {tn : TileNo} :
    (s.quarantine tn).constantsFixed := by
  unfold State.quarantine
  exact h.setTile (.keep (by rfl) (h.tile tn))

theorem State.constantsFixed.handlerContained {s : State} (h : s.constantsFixed) {tn : TileNo} :
    (s.handlerContained tn).constantsFixed := by
  unfold State.handlerContained
  exact h.tileEntry.killItem

theorem State.constantsFixed.enterPool {s : State} (h : s.constantsFixed) {die : Nat} {p : PartNo} {child : Option TileNo}
    {sumped : Bool} {bs : List Byte} :
    (s.enterPool die p child sumped bs).constantsFixed := by
  unfold State.enterPool
  exact .keep (by rfl) (.ite h.noteRead h)

theorem State.constantsFixed.childEnds {s : State} (h : s.constantsFixed) {die : Nat} {c : Child} {e : Ending} :
    (s.childEnds die c e).constantsFixed := by
  unfold State.childEnds
  exact h.keep (by rfl)

theorem State.constantsFixed.refuseChild {s : State} (h : s.constantsFixed) {die : Nat} {c : Child} :
    (s.refuseChild die c).constantsFixed := by
  unfold State.refuseChild
  exact h.childEnds

theorem State.constantsFixed.admitChild {s : State} (h : s.constantsFixed) {d : Nat} {c : Child} :
    (s.admitChild d c).constantsFixed := by
  unfold State.admitChild
  exact .ite h.enterPool (.ite (.ite h.refuseChild (h.keep (by rfl)).setDie) (.ite h.refuseChild (.setDie (.ite (h.keep (by rfl)) h))))

theorem State.constantsFixed.zeroGates {s : State} (h : s.constantsFixed) {tiles : BitVec 1152} :
    (s.zeroGates tiles).constantsFixed := by
  unfold State.zeroGates
  exact h.mapDies

/-! ## Segment -/

theorem State.constantsFixed.sendSignal {s : State} (h : s.constantsFixed) {tn : TileNo} {rank : Option Nat} {sem : Nat}
    {op : SemOp} {p : Producer} {order : Nat} :
    (s.sendSignal tn rank sem op p order).constantsFixed := by
  unfold State.sendSignal
  dsimp only
  split
  · exact h
  · split
    · exact h
    · exact h.keep (by rfl)

theorem State.performNow_constantsFixed {s : State} (h : s.constantsFixed) {tn : TileNo} {c : Cmd} :
    OptionFixed (s.performNow tn c) := by
  unfold State.performNow
  dsimp only
  split
  · exact .some h.sendSignal
  · exact .some h.sendSignal
  · exact .some h.sendSignal
  · exact .some h.admitChild
  · exact .some h
  · exact .none

theorem State.constantsFixed.pump {s : State} (h : s.constantsFixed) {tn : TileNo} {n : Nat} :
    (State.pump tn n s).constantsFixed := by
  induction n generalizing s with
  | zero => exact h
  | succ n ih =>
    unfold State.pump
    dsimp only
    split
    · exact h.setTile (.keep (by rfl) (h.tile tn))
    · have h2 := fun q => h.setTile (t := tn) (.keep (u := { s.tile tn with eng := q }) (by rfl) (h.tile tn))
      exact ih ((State.performNow_constantsFixed (h2 _)).getD (h2 _))

theorem State.constantsFixed.settleEngines {s : State} (h : s.constantsFixed) {tn : TileNo} :
    (s.settleEngines tn).constantsFixed := by
  unfold State.settleEngines
  exact h.pump

theorem Tile.constantsFixed.fillPlace {t : Tile} (h : t.constantsFixed) {serial cmd : Nat} {x : Scalar} :
    (t.fillPlace serial cmd x).constantsFixed := by
  obtain ⟨hk, hv, hs, hc, hx⟩ := h
  refine ⟨hk, hv, hs, fun c he => ?_, hx⟩
  obtain ⟨d, hd, rfl⟩ := Option.map_eq_some_iff.mp he
  exact hc d hd

theorem State.constantsFixed.releaseHeld {s : State} (h : s.constantsFixed) {tn : TileNo} :
    (s.releaseHeld tn).constantsFixed := by
  unfold State.releaseHeld
  exact .settleEngines (h.setTile (.keep (by rfl) (h.tile tn)))

theorem State.constantsFixed.traceWrite {s : State} (h : s.constantsFixed) {tn : TileNo} {r : TraceRec} :
    (s.traceWrite tn r).constantsFixed := by
  unfold State.traceWrite
  exact .ite h (.ite h.setPart h.privWrite.setPart)

theorem State.constantsFixed.flushTrace {s : State} (h : s.constantsFixed) {tn : TileNo} :
    (s.flushTrace tn).constantsFixed := by
  unfold State.flushTrace
  extract_lets s1 t
  have h1 : s1.constantsFixed := h.foldl fun _ _ hu => hu.traceWrite
  exact h1.setTile (.keep (by rfl) (h1.tile tn))

theorem Tile.constantsFixed.publishMarks {t : Tile} (h : t.constantsFixed) {place : BitVec 16} :
    (t.publishMarks place).constantsFixed := by
  unfold Tile.publishMarks
  exact h.foldl fun _ _ hu => hu.keep (by rfl)

theorem State.constantsFixed.closeSegment {s : State} (h : s.constantsFixed) {tn : TileNo} :
    (s.closeSegment tn).constantsFixed := by
  unfold State.closeSegment
  extract_lets _ _ t1 t2 s1 s2
  have h2 : s2.constantsFixed := .releaseHeld (.flushTrace (h.setTile (.keep (by with_reducible rfl) (.publishMarks (h.tile tn)))))
  exact h2.setTile (h2.tile tn).newSegment

theorem State.constantsFixed.countTransient {s : State} (h : s.constantsFixed) {tn : TileNo} :
    (s.countTransient tn).constantsFixed := by
  unfold State.countTransient
  exact .ite (.excludeSoon (h.setTile (.keep (by rfl) (h.tile tn)))) (h.setTile (.keep (by rfl) (h.tile tn)))

theorem Tile.constantsFixed.handOff {t : Tile} (h : t.constantsFixed) {code unit : Nat} {e : Event} :
    (t.handOff code unit e).constantsFixed := by
  unfold Tile.handOff
  exact .ite h.raiseAsync h

theorem State.constantsFixed.transientVerdict {s : State} (h : s.constantsFixed) {tn : TileNo} {code : Nat} {e : Event} :
    (s.transientVerdict tn code e).constantsFixed := by
  unfold State.transientVerdict Segment.setLast
  exact .setTile h.tileEntry.countTransient (.handOff (.keep (by with_reducible rfl) (h.tileEntry.countTransient.tile tn)))

theorem State.constantsFixed.chargeUnit {s : State} (h : s.constantsFixed) {tn : TileNo} {code : Nat} {e : Event} :
    (s.chargeUnit tn code e).constantsFixed := by
  unfold State.chargeUnit
  exact .ite h.countTransient (.ite h (.ite h.mapFrame h.quarantine))

theorem State.constantsFixed.fatalContained {s : State} (h : s.constantsFixed) {tn : TileNo} {code kill : Nat} {e : Event} :
    (s.fatalContained tn code kill e).constantsFixed := by
  unfold State.fatalContained
  exact .ite h.killItem h.killLaunch

theorem State.constantsFixed.fatalVerdict {s : State} (h : s.constantsFixed) {tn : TileNo} {code : Nat} {e : Event} :
    (s.fatalVerdict tn code e).constantsFixed := by
  unfold State.fatalVerdict Segment.setLast
  exact .ite (.setTile h.tileEntry.chargeUnit (.handOff (.keep (by rfl) (.keep (by rfl) (h.tileEntry.chargeUnit.tile tn)))))
    (.fatalContained (.setTile h.tileEntry.chargeUnit (.keep (by rfl) (h.tileEntry.chargeUnit.tile tn))))

theorem State.constantsFixed.idleTicks {s : State} (h : s.constantsFixed) {n : Nat} : (State.idleTicks n s).constantsFixed := by
  induction n generalizing s with
  | zero => exact h
  | succ n ih => exact ih h.tickMe

theorem State.constantsFixed.takeEvent {s : State} (h : s.constantsFixed) {e : Event} :
    (s.takeEvent e).constantsFixed := by
  unfold State.takeEvent
  dsimp only
  split
  · exact h.fatalVerdict
  · exact .ite h.fatalVerdict h.fatalVerdict
  · exact .ite h.fatalVerdict (.mapMe (.idleTicks (h.setMe h.me.rewind)) (fun _ ht => ht.keep (by rfl)))

theorem Tile.constantsFixed.matchLag {t : Tile} (h : t.constantsFixed) :
    t.matchLag.constantsFixed := by
  unfold Tile.matchLag
  exact .ite h (.keep (by rfl) (h.foldl fun _ _ hu => hu.compared))

theorem State.constantsFixed.entryFreeze {s : State} (h : s.constantsFixed) :
    s.entryFreeze.constantsFixed := by
  unfold State.entryFreeze
  exact h.freezeAt.mapMe (fun _ ht => ht.keep (by rfl))

theorem State.constantsFixed.entryFrozen {s : State} (h : s.constantsFixed) :
    s.entryFrozen.constantsFixed := by
  unfold State.entryFrozen
  exact .mapMe (h.foldl fun _ _ hu => hu.entryFreeze) (fun _ ht => ht.matchLag)

theorem State.constantsFixed.commitSegment {s : State} (h : s.constantsFixed) {tn : TileNo} :
    (s.commitSegment tn).constantsFixed := by
  unfold State.commitSegment
  dsimp only
  refine .closeSegment ?_
  split
  · exact h.transientVerdict
  · exact h

theorem execSegmentRewind_constantsFixed {s : State} (h : s.constantsFixed) :
    OutcomeFixed (execSegmentRewind s) := by
  unfold execSegmentRewind
  dsimp only
  split
  · exact .next h.takeEvent
  · exact .next h

theorem execDeciderVerdict_constantsFixed {s : State} (h : s.constantsFixed) :
    OutcomeFixed (execDeciderVerdict s) := by
  unfold execDeciderVerdict
  split
  · exact .next (.ite h.transientVerdict h.fatalVerdict)
  · exact .next h

/-! ## Trap -/

theorem Tile.constantsFixed.stop {t : Tile} (h : t.constantsFixed) {kind value : Nat} :
    (t.stop kind value).constantsFixed := by
  unfold Tile.stop
  exact h.keep (by rfl)

theorem execDebugStop_constantsFixed {s : State} (h : s.constantsFixed) :
    OutcomeFixed (execDebugStop s) := by
  unfold execDebugStop
  dsimp only
  split
  · exact .next (.ite h.freezeMe h)
  · split
    · exact .next h
    · split
      · exact .next (h.setMe h.me.stop)
      · exact .next h

theorem State.constantsFixed.takeWalk {s : State} (h : s.constantsFixed) {m : Miss} {copy : Bool} :
    (s.takeWalk m copy).constantsFixed := by
  unfold State.takeWalk
  exact .takeTrap (h.mapMe (fun _ ht => ht.keep (by rfl)))

theorem State.constantsFixed.takeAsync {s : State} (h : s.constantsFixed) {a : Async} :
    (s.takeAsync a).constantsFixed := by
  unfold State.takeAsync
  exact .takeTrap (h.mapMe (fun _ ht => .ite (ht.keep (by rfl)) (ht.keep (by rfl))))

theorem State.constantsFixed.trapItem {s : State} (h : s.constantsFixed) :
    s.trapItem.constantsFixed := by
  unfold State.trapItem
  dsimp only
  split
  · exact .takeTrap (h.mapMe (fun _ ht => ht.keep (by rfl)))
  · split
    · exact h.takeTrap
    · split
      · exact h
      · split
        · exact h.takeAsync
        · split
          · exact h.takeWalk
          · exact h

theorem execTrapTaken_constantsFixed {s : State} (h : s.constantsFixed) :
    OutcomeFixed (execTrapTaken s) := by
  unfold execTrapTaken
  exact .next (.ite h.trapItem h)

theorem execSemaphoreWaitWatchdog_constantsFixed {s : State} (h : s.constantsFixed) :
    OutcomeFixed (execSemaphoreWaitWatchdog s) := by
  unfold execSemaphoreWaitWatchdog
  dsimp only
  split
  · exact .next h
  · split
    · exact .next h
    · exact .next (h.setMe h.me.raiseAsync)

theorem Tile.constantsFixed.resumeTo {t : Tile} (h : t.constantsFixed) {v : Word} :
    (t.resumeTo v).constantsFixed := by
  unfold Tile.resumeTo
  exact .ite h (h.keep (by rfl))

theorem execResumeWrite_constantsFixed {s : State} (h : s.constantsFixed) {t : TileNo} {v : Word} :
    OutcomeFixed (execResumeWrite t v s) := by
  unfold execResumeWrite
  exact .ite (.next (h.setTile (.resumeTo (h.tile t)))) (.next h)

/-- The choice of the next bundle moves the sequencer and the position alone (R196). -/
theorem Tile.constantsFixed.resolve {t : Tile} (h : t.constantsFixed) : t.resolve.1.constantsFixed := by
  unfold Tile.resolve
  dsimp only
  split
  · exact h
  · split
    · exact h
    · split
      · exact h
      · exact h.setCtx rfl

theorem State.constantsFixed.enterSegment {s : State} (h : s.constantsFixed) :
    s.enterSegment.constantsFixed := by
  unfold State.enterSegment
  exact .ite h (.ite h.entryFreeze (.ite h.entryFrozen (.commitSegment (h.entryFrozen.mapMe fun _ ht => ht.resolve))))

/-! ## Context -/

theorem execContextSaveDone_constantsFixed {s : State} (h : s.constantsFixed) : OutcomeFixed (execContextSaveDone s) := by
  unfold execContextSaveDone
  split
  · exact .next h
  · extract_lets s0 _ _ _ t1 s1
    have h0 : s0.constantsFixed := h.flushTrace
    have ht : t1.constantsFixed := by
      obtain ⟨hk, hv, hs, hc, _⟩ := h0.me
      exact ⟨hk, hv, hs, hc, nofun⟩
    have h1 : s1.constantsFixed := h0.setMe (ht.undefined rfl)
    exact .ite (.next h) (.next (h1.keep (by rfl)))

theorem State.constantsFixed.ctxLoad {s : State} (h : s.constantsFixed) {a : Word} : (s.ctxLoad a).constantsFixed := by
  unfold State.ctxLoad
  refine h.mapMe fun t ht => .ite ht.handlerFault ?_
  dsimp only
  split
  · exact ht.handlerFault
  · exact .keep (by with_reducible rfl) ht.restoreImage

/-! ## System -/

theorem Tile.constantsFixed.writeReg {t : Tile} (h : t.constantsFixed) {n : Nat} {v : Word} :
    (t.writeReg n v).constantsFixed := by
  unfold Tile.writeReg
  dsimp only
  split
  · exact h.keep (by rfl)
  · split
    · exact h.resumeTo
    · exact h.mapPriv (by rfl)
    · exact h.mapPriv (by rfl)
    · exact h.keep (by rfl)
    · exact h.mapPriv (by rfl)
    · exact h.keep (by rfl)
    · exact h

theorem State.constantsFixed.mapRings {s : State} (h : s.constantsFixed) {p : PartNo} {f : PartRings → PartRings} :
    (s.mapRings p f).constantsFixed := by
  unfold State.mapRings
  exact h.setPart

theorem State.constantsFixed.mapPart {s : State} (h : s.constantsFixed) {p : PartNo} {f : Part → Part} :
    (s.mapPart p f).constantsFixed := by
  unfold State.mapPart
  exact h.setPart

theorem State.constantsFixed.clearDiverged {s : State} (h : s.constantsFixed) {p : PartNo} :
    (s.clearDiverged p).constantsFixed := by
  unfold State.clearDiverged
  exact h.setPart.keep (by with_reducible rfl)

theorem State.constantsFixed.writePartReg {s : State} (h : s.constantsFixed) {o : Origin} {p : PartNo} {n : Nat} {v : Word}
    {plain : Bool} :
    (s.writePartReg o p n v plain).constantsFixed := by
  unfold State.writePartReg
  dsimp only
  split
  · exact h.mapRings
  · exact h.mapRings
  · exact h.mapRings
  · exact .ite h.mapRings h
  · exact h.mapXl
  · exact h.mapXl
  · exact h.xlShoot
  · exact h.walkFill
  · exact h.mapXl
  · exact h.mapXl
  · exact h.efResume
  · exact h.migCmd
  · exact h.setPart
  · exact h.mapRings
  · exact h.mapRings
  · exact .ite h.mapRings h
  · exact h.mapRings
  · exact h.mapRings
  · exact h.mapRings.mapPart
  · exact h.mapRings
  · exact .ite h.clearDiverged h
  · exact h

theorem State.constantsFixed.writeCtl {s : State} (h : s.constantsFixed) {n : Nat} {v : Word} {plain : Bool} :
    (s.writeCtl n v plain).constantsFixed := by
  unfold State.writeCtl
  exact .ite (h.mapMe (fun _ ht => ht.writeReg)) h.writePartReg

theorem State.constantsFixed.mapGang {s : State} (h : s.constantsFixed) {launch gang : Nat} {f : Gang → Gang} :
    (s.mapGang launch gang f).constantsFixed := by
  unfold State.mapGang
  exact h.mapLaunch

theorem State.constantsFixed.noteLoaded {s : State} (h : s.constantsFixed) :
    s.noteLoaded.constantsFixed := by
  unfold State.noteLoaded
  split
  · exact h
  · split
    · exact .ite h.mapGang h
    · exact h

theorem State.constantsFixed.rankResumed {s : State} (h : s.constantsFixed) {tn : TileNo} :
    (s.rankResumed tn).constantsFixed := by
  unfold State.rankResumed
  dsimp only
  split
  · exact h
  · split
    · exact h.freeSlot.mapGang
    · exact h

theorem State.constantsFixed.rankParked {s : State} (h : s.constantsFixed) {tn : TileNo} :
    (s.rankParked tn).constantsFixed := by
  unfold State.rankParked
  split
  · exact h
  · split
    · exact h.mapGang
    · exact h.mapGang
    · exact h

theorem State.constantsFixed.parkDone {s : State} (h : s.constantsFixed) {tn : TileNo} :
    (s.parkDone tn).constantsFixed := by
  unfold State.parkDone
  exact .ite (.onIdle (h.rankParked.setTile (.keep (by with_reducible rfl)
    (.mapPriv (h.rankParked.tile tn) (by with_reducible rfl))))) h

theorem State.constantsFixed.handlerEnd {s : State} (h : s.constantsFixed) :
    s.handlerEnd.constantsFixed := by
  unfold State.handlerEnd
  dsimp only
  split
  · exact h
  · split
    · exact h.killedEnds.parkDone
    · split
      · exact h.fatalContained.parkDone
      · split
        · split
          · exact .ite h.rankResumed.returnToKernel h
          · exact h.returnToKernel
        · exact h.returnToKernel
      · exact h.parkDone

theorem execRft_constantsFixed {s : State} (h : s.constantsFixed) {f : FormGZ} : OutcomeFixed (execRft f s) := by
  unfold execRft
  exact .next (h.alone (OpSem.plain_keeps fun _ _ hs => hs.mapMe fun _ ht => ht.mapPriv (by rfl))).handlerEnd

theorem State.constantsFixed.saveEntry {s : State} (h : s.constantsFixed) : s.saveEntry.constantsFixed := by
  unfold State.saveEntry
  extract_lets step n s1 s2
  have hstep : ∀ u, u.constantsFixed → (step u).constantsFixed := fun u hu => hu.clk.mapMe fun _ ht => ht.keep (by rfl)
  have h1 : s1.constantsFixed := .mapMe (h.foldl fun u _ hu => hstep u hu) fun _ ht => ht.matchLag
  have h2 : s2.constantsFixed := by
    unfold s2
    split
    · exact h1.takeEvent
    · split
      · exact .ite h1.transientVerdict h1.fatalVerdict
      · exact h1
  exact .ite (hstep s h) (.ite (h2.mapMe fun _ ht => ht.mapPriv (by rfl)) (.ite h2.commitSegment h2))

theorem execSegmentEntry_constantsFixed {s : State} (h : s.constantsFixed) :
    OutcomeFixed (execSegmentEntry s) := by
  unfold execSegmentEntry
  exact .ite (.next h.saveEntry) (.next h.enterSegment)

/-! ## Ectl -/

theorem State.constantsFixed.ectlKill {s : State} (h : s.constantsFixed) {code : Nat} :
    (s.ectlKill code).constantsFixed := by
  unfold State.ectlKill
  split
  · exact h.fatalContained
  · exact h.killItem

theorem Tile.constantsFixed.ectlTake {t : Tile} (h : t.constantsFixed) {e : Ectl} {bs : List (Byte × Bool)} :
    (t.ectlTake e bs).constantsFixed := by
  unfold Tile.ectlTake
  dsimp only
  split
  · exact h.engineWrite
  · exact h.engineWrite
  · exact h.keep (by rfl)

theorem State.constantsFixed.writeLocs {s : State} (h : s.constantsFixed) {ls : List (Loc × Nat)} {bs : List (Byte × Bool)} :
    (s.writeLocs ls bs).constantsFixed := by
  induction ls generalizing s bs with
  | nil => exact h
  | cons l ls ih => exact ih h.writeLoc

theorem execEctlTransferComplete_constantsFixed {s : State} (h : s.constantsFixed) :
    OutcomeFixed (execEctlTransferComplete s) := by
  unfold execEctlTransferComplete
  split
  · exact .next h
  · refine .ite (.next h) ?_
    split
    · extract_lets s0 s1
      have h1 : s1.constantsFixed := .mapMe (.ite h.refuse h) fun _ ht => ht.mapPriv (by rfl)
      exact .next (.ite h1 h1.reportFault)
    · extract_lets s1
      have h1 : s1.constantsFixed := .ite h.writeLocs (h.mapMe fun _ ht => ht.ectlTake)
      exact .ite (.next h) (.next (.parkDone (h1.mapMe fun _ ht => ht.mapPriv (by rfl))))

/-! ## Scalar -/

theorem carrySem_keeps {j : BitVec 3} {chain : Bool} {f : Nat → Nat → Nat → Word × Bool} :
    (carrySem j chain f).KeepsConstants := by
  refine fun e s h => ⟨?_, ?_⟩
  · exact .ite h.consume (.ite h.pushScalar.putGuards h.pushScalar.putGuards)
  · exact h.pushScalar.putGuards

theorem compareSem_keeps {j : BitVec 3} {f : Word → Word → Bool} : (compareSem j f).KeepsConstants := by
  refine fun e s h => ⟨?_, ?_⟩
  · exact .ite h.consume (.ite h.putGuards h.putGuards)
  · exact h.putGuards

theorem guardSem_keeps {f : FormSL} {op : Bool → Bool → Bool} : (guardSem f op).KeepsConstants := by
  refine fun e s h => ⟨?_, ?_⟩
  · exact .ite h.putGuards h.putGuards
  · exact h.putGuards

theorem binarySem_keeps {lat : Nat} {f : Word → Word → Word} : (binarySem lat f).KeepsConstants :=
  OpSem.scalar_keeps fun _ _ h => h.pushScalar

theorem unarySem_keeps {lat : Nat} {f : Word → Word} : (unarySem lat f).KeepsConstants := by
  unfold unarySem
  exact binarySem_keeps

theorem chooseSem_keeps {f : Env → State → Scalar} : (chooseSem f).KeepsConstants := OpSem.scalar_keeps fun _ _ h => h.pushScalar

theorem semBfins_keeps {f : FormSA} : (semBfins f).KeepsConstants := OpSem.scalar_keeps fun _ _ h => h.pushScalar

theorem semRdctl_keeps {f : FormSR} : (semRdctl f).KeepsConstants :=
  fun _ _ h => ⟨.ite (h.pushScalar.mapMe fun _ ht => ht.keep (by rfl)) h.pushScalar, h.pushScalar⟩

/-! ## Issue -/

theorem writeSem_keeps {cr : BitVec 12} {plain : Bool} {f : Word → Word → Word} : (writeSem cr plain f).KeepsConstants :=
  OpSem.plain_keeps fun _ _ h => consuming_constantsFixed h (fun _ _ hs => hs.writeCtl) fun _ _ hs => hs

theorem semRft_keeps {f : FormGZ} : (semRft f).KeepsConstants := OpSem.plain_keeps fun _ _ h => h.mapMe fun _ ht => ht.mapPriv (by rfl)

theorem semXlinv_keeps {f : FormCA} : (semXlinv f).KeepsConstants :=
  OpSem.plain_keeps fun _ _ h => consuming_constantsFixed h (fun e s hs => hs.mapMe fun t ht => by
    split
    · exact ht.handlerFault
    · exact ht.keep (by rfl)) fun _ _ hs => hs

theorem semCtxsave_keeps {f : FormCA} : (semCtxsave f).KeepsConstants :=
  OpSem.plain_keeps fun _ _ h => consuming_constantsFixed h
    (fun _ _ hs => .ite (hs.mapMe fun _ ht => ht.handlerFault) (.ite hs (hs.mapMe fun _ ht => ht.keep (by rfl)))) fun _ _ hs => hs

theorem semCtxload_keeps {f : FormCA} : (semCtxload f).KeepsConstants :=
  OpSem.plain_keeps fun _ _ h => consuming_constantsFixed h (fun _ _ hs => hs.ctxLoad.noteLoaded) fun _ _ hs => hs

theorem ectlSem_keeps {minor : Nat} {len : Env → Nat} : (ectlSem minor len).KeepsConstants :=
  commandSem_keeps (fun _ _ h => h.mapMe fun _ ht => ht.mapPriv (by rfl)) fun _ _ h => h

theorem semEctlKill_keeps {f : FormGAB} : (semEctlKill f).KeepsConstants :=
  commandSem_keeps (fun _ _ h => h.ectlKill.mapMe fun _ ht => ht.mapPriv (by rfl)) fun _ _ h => h

/-- Every operation that a slot holds keeps the constants, family by family; whatever else a slot names is idle. -/
theorem slotSem_keeps (i : Instr) : (slotSem i).KeepsConstants := by
  cases i
  all_goals dsimp only [slotSem]
  case mov | clz | ctz | popc | brev | bswap | sxt | zxt => exact unarySem_keeps
  case add | sub | mul | mulhS64 | mulhZ64 | divS64 | divZ64 | remS64 | remZ64 | minS64 | minZ64 | maxS64 | maxZ64 | andOp
      | orOp | xorOp | andn | shl | shrZ64 | shrS64 | rotl | rotr | bfextS64 | bfextZ64 | clmul | clmulh | lea => exact binarySem_keeps
  case addo | addc | subo | subc => exact carrySem_keeps
  case bfins => exact semBfins_keeps
  case cmpS64 | cmpZ64 => exact compareSem_keeps
  case gdand | gdor | gdxor => exact guardSem_keeps
  case sel | tagof | dflt => exact chooseSem_keeps
  case rdctl => exact semRdctl_keeps
  case prepOffset | prepRegister => exact prepSem_keeps
  case br => exact semBr_keeps
  case call => exact semCall_keeps
  case ret => exact semRet_keeps
  case loop => exact semLoop_keeps
  case lbrk => exact semLbrk_keeps
  case semwImmediate | semwRegister => exact semwSem_keeps
  case waitw => exact semWaitw_keeps
  case stepMark => exact semStepMark_keeps
  case brk => exact semBrk_keeps
  case trap => exact semTrap_keeps
  case sys => exact semSys_keeps
  case endItem => exact semEndItem_keeps
  case chkctl => exact semChkctl_keeps
  case dblctl => exact semDblctl_keeps
  case ctrap => exact semCtrap_keeps
  case commit => exact semCommit_keeps
  case wrctl | setctl | clrctl => exact writeSem_keeps
  case rft => exact semRft_keeps
  case xlinv => exact semXlinv_keeps
  case ctxsave => exact semCtxsave_keeps
  case ctxload => exact semCtxload_keeps
  case ldS8 | ldZ8 | ldS16 | ldZ16 | ldS32 | ldZ32 | ldZ64 => exact loadSem_keeps
  case stZ8 | stZ16 | stZ32 | stZ64 => exact scalarStoreSem_keeps
  case vld | vlds | vldx => exact vloadSem_keeps
  case vst | vsts | vstx => exact vstoreSem_keeps
  case vldr => exact semVldr_keeps
  case hbind => exact semHbind_keeps
  case hunbind => exact semHunbind_keeps
  case ladd | lminS64 | lminZ64 | lmaxS64 | lmaxZ64 | lxch | lcas => exact localAtomicSem_keeps
  case vmov | vcvt | vrcpF32 | vrsqF32 => exact lane1_keeps
  case vsel => exact semVsel_keeps
  case vchk => exact semVchk_keeps
  case vand | vor | vxor | vshl | vshrZ32 | vshrS32 | vaddS32 | vsubS32 | vmulS32 | vaddsS32 | vminS32 | vminZ32 | vmaxS32
      | vmaxZ32 => exact lane2_keeps
  case vperm => exact laneSem_keeps
  case vbcast => exact semVbcast_keeps
  case vcmpS32 | vcmpZ32 => exact vcmpSem_keeps
  case vext => exact semVext_keeps
  case vins => exact semVins_keeps
  case vitpF32 | vitpBf16 => exact vitpSem_keeps
  case vaddF | vsubF | vmulF | vminF | vmaxF => exact flt2_keeps
  case vfma | vfnma => exact flt3_keeps
  case vcmpF => exact semVcmpF_keeps
  case vssum | vsmin | vsmax | vsmean | vsvar => exact reduceSem_keeps fun _ _ h => h.pushVector
  case vsscan => exact segSem_keeps fun _ _ h => h.pushVector
  case vssmx => exact segSem_keeps fun _ _ h => h.deliver
  case xnest | xbase | xfmt => exact configSem_keeps
  case xsrc => exact semXsrc_keeps
  case xbmp => exact semXbmp_keeps
  case xsdiag => exact semXsdiag_keeps
  case xzero => exact semXzero_keeps
  case xgo => exact semXgo_keeps
  case xdrain => exact semXdrain_keeps
  case xwait => exact semXwait_keeps
  case xstat => exact semXstat_keeps
  case sbind => exact semSbind_keeps
  case sunbind => exact semSunbind_keeps
  case gpush => exact semGpush_keeps
  case copy | send | rsend => exact xferSem_keeps
  case ssig => exact semSsig_keeps
  case ssigR => exact semSsigR_keeps
  case sinit => exact semSinit_keeps
  case sread => exact semSread_keeps
  case aadd | aminS64 | aminZ64 | amaxS64 | amaxZ64 | aand | aor | axor | axch | acas | afaddF32 | afaddBf16 => exact atomicSem_keeps
  case fence => exact semFence_keeps
  case launch => exact semLaunch_keeps
  case pref => exact semPref_keeps
  case ectlBayout | ectlBayin | ectlSpout | ectlSpin | ectlAccout | ectlAccin => exact ectlSem_keeps
  case ectlKill => exact semEctlKill_keeps
  all_goals exact OpSem.plain_keeps fun _ _ h => h

theorem issuesOf_keeps {c : Ctx} {hd : Header} {ops : List SlotOp} : ∀ p ∈ issuesOf c hd ops, p.2.KeepsConstants := by
  intro p hp
  obtain ⟨_, _, rfl⟩ := List.mem_map.mp hp
  exact slotSem_keeps _

/-- What a bundle issues together is what its slots hold. -/
theorem Tile.nextIssue_batch_keeps {t : Tile} {b : Batch} (he : t.nextIssue = .batch b) : b.KeepsConstants := by
  unfold Tile.nextIssue at he
  dsimp only at he
  split at he
  · cases he
  · split at he
    · cases he
    · split at he
      · cases he
      · split at he
        · cases he
          dsimp only [Batch.KeepsConstants]
          exact issuesOf_keeps
        · split at he
          · cases he
          · cases he
            dsimp only [Batch.KeepsConstants]
            exact issuesOf_keeps

theorem Tile.constantsFixed.stuckReg {t : Tile} (h : t.constantsFixed) {p : Nat × Nat × Bool} :
    (t.stuckReg p).constantsFixed := by
  unfold Tile.stuckReg
  exact .ite h h.strike

theorem Tile.constantsFixed.struck {t : Tile} (h : t.constantsFixed) {cycle : Nat} {shadow : Bool} :
    (t.struck cycle shadow).constantsFixed := by
  unfold Tile.struck
  exact .ite ((h.keep (by rfl)).foldl fun _ _ hu => hu.strike)
    (.foldl ((h.keep (by rfl)).foldl fun _ _ hu => hu.strike) fun _ _ hu => hu.stuckReg)

theorem State.constantsFixed.codePoison {s : State} (h : s.constantsFixed) {addr : Nat} :
    (s.codePoison addr).constantsFixed := by
  unfold State.codePoison
  exact h.takeEvent

theorem State.constantsFixed.issueKernel {s : State} (h : s.constantsFixed) : s.issueKernel.constantsFixed := by
  unfold State.issueKernel
  have h0 := h.mapMe (f := fun t => t.present (s.place s.cur)) fun _ ht => ht.present
  have h1 := h0.mapMe (f := fun t =>
      { t.resolve.1 with k := { t.resolve.1.k with pos := { t.resolve.1.k.pos with boundary := false } } })
    fun _ ht => ht.resolve.keep (by rfl)
  have h2 := h1.mapMe (f := fun t => t.struck t.k.cycle false) fun _ ht => ht.struck
  refine .ite h0 (.ite h1.waitFreeze ?_)
  dsimp only
  split
  · exact h2.raiseCand
  · exact h2.codePoison
  · rename_i b he
    exact issueBatch_constantsFixed h2 (Tile.nextIssue_batch_keeps he)

theorem State.constantsFixed.emptyCycle {s : State} (h : s.constantsFixed) {counter : Nat} {f : Position → Position} :
    (s.emptyCycle counter f).constantsFixed := by
  unfold State.emptyCycle
  have h0 := h.mapMe (f := fun t => t.present (s.place s.cur)) fun _ ht => ht.present
  exact .ite h0 (.ite (.mapMe h0.freezeAt fun _ ht => ht.keep (by with_reducible rfl))
    (.tickMe (h0.mapMe fun _ ht => .atBoundary (.keep (by with_reducible rfl) (.endCycle (.keep (by with_reducible rfl) ht.struck))))))

theorem State.constantsFixed.containFault {s : State} (h : s.constantsFixed) :
    s.containFault.constantsFixed := by
  unfold State.containFault
  exact .ite (.handlerContained (h.mapMe (fun _ ht => ht.mapPriv (by rfl)))) h

theorem State.constantsFixed.issueHandler {s : State} (h : s.constantsFixed) : s.issueHandler.constantsFixed := by
  unfold State.issueHandler
  refine .ite h.clk.handlerEnd ?_
  dsimp only
  split
  · exact h.mapMe fun _ ht => ht.handlerFault
  · have h1 := h.setMe (h.me.resolve.struck (cycle := s.me.resolve.1.priv.shadow.cycle) (shadow := true))
    split
    · exact h1.raiseCand
    · exact h1
    · rename_i b he
      exact (issueBatch_constantsFixed h1 (Tile.nextIssue_batch_keeps he)).handlerEnd

theorem State.constantsFixed.emptyHandlerCycle {s : State} (h : s.constantsFixed) {f : Position → Position} :
    (s.emptyHandlerCycle f).constantsFixed := by
  unfold State.emptyHandlerCycle
  exact .ite h.clk (.handlerEnd (.clk (h.mapMe (fun _ ht => ht.endHandlerCycle.mapPriv (by rfl)))))

theorem execBundleIssue_constantsFixed {s : State} (h : s.constantsFixed) :
    OutcomeFixed (execBundleIssue s) := by
  unfold execBundleIssue
  exact .ite (.next h.containFault) (.ite (.ite (.next h) (.next h.issueHandler.containFault))
    (.ite (.next h.issueKernel.settleEngines) (.next h)))

theorem execWaitCycle_constantsFixed {s : State} (h : s.constantsFixed) :
    OutcomeFixed (execWaitCycle s) := by
  unfold execWaitCycle
  exact .ite (.next h.emptyHandlerCycle) (.ite (.next h.emptyCycle.settleEngines) (.next h))

theorem execBubbleCycle_constantsFixed {s : State} (h : s.constantsFixed) :
    OutcomeFixed (execBubbleCycle s) := by
  unfold execBubbleCycle
  exact .ite (.next h.emptyHandlerCycle) (.ite (.next h.emptyCycle.settleEngines) (.next h))

theorem State.constantsFixed.untilDeadline {s : State} (h : s.constantsFixed) {n : Nat} :
    (State.untilDeadline n s).constantsFixed := by
  induction n generalizing s with
  | zero => exact h
  | succ n ih => exact .ite (ih (.waitFreeze (h.setMe h.me.resolve))) h

theorem execWaitwDeadline_constantsFixed {s : State} (h : s.constantsFixed) :
    OutcomeFixed (execWaitwDeadline s) := by
  unfold execWaitwDeadline
  exact .next h.untilDeadline

theorem execResultArrival_constantsFixed {s : State} (h : s.constantsFixed) :
    OutcomeFixed (execResultArrival s) := by
  unfold execResultArrival
  exact .next (h.mapMe (fun _ ht => .ite ht.shadowArrivals ht.arrivals))

theorem State.constantsFixed.afterEnd {s : State} (h : s.constantsFixed) : s.afterEnd.constantsFixed := by
  unfold State.afterEnd
  have h0 := h.mapMe (f := fun t => t.present (s.place s.cur)) fun _ ht => ht.present
  exact .ite h0.tickMe.settleEngines (.settleEngines (.tickMe (h0.mapMe fun _ ht =>
    .keep (by with_reducible rfl) (.present (.mxWrites (.keep (by with_reducible rfl) ht.struck.mxReads.shadowRows))))))

theorem execDenseMatrixCycle_constantsFixed {s : State} (h : s.constantsFixed) :
    OutcomeFixed (execDenseMatrixCycle s) := by
  unfold execDenseMatrixCycle
  exact .next (.ite h.afterEnd h)

theorem execEngineCommandPresentation_constantsFixed {s : State} (h : s.constantsFixed) :
    OutcomeFixed (execEngineCommandPresentation s) := by
  unfold execEngineCommandPresentation
  exact .ite (.next h.afterEnd) (.next (.settleEngines (h.mapMe (fun _ ht => ht.present))))

theorem execMatrixBlockZero_constantsFixed {s : State} (h : s.constantsFixed) :
    OutcomeFixed (execMatrixBlockZero s) := by
  unfold execMatrixBlockZero
  dsimp only
  refine .next ?_
  refine .mapMe h (fun t ht => ?_)
  refine .foldl ht fun u x hu => ?_
  split
  · exact (hu.keep (by rfl)).mxComplete
  · exact hu

theorem execDrainRowWrite_constantsFixed {s : State} (h : s.constantsFixed) :
    OutcomeFixed (execDrainRowWrite s) := by
  unfold execDrainRowWrite
  refine .next (h.mapMe fun t ht => .foldl ht fun u x hu => ?_)
  split
  · have h2 : ∀ p m, ({ List.foldl Tile.scheduledWrite u p with mx := m } : Tile).constantsFixed :=
      fun _ _ => .keep (by rfl) (hu.foldl fun _ _ hw => hw.scheduledWrite)
    exact .ite hu (.ite (h2 _ _).mxComplete (h2 _ _))
  · exact hu

theorem execSparseMatrixStart_constantsFixed {s : State} (h : s.constantsFixed) :
    OutcomeFixed (execSparseMatrixStart s) := by
  unfold execSparseMatrixStart
  exact .next (h.mapMe (fun _ ht => ht.sparseStart))

theorem execSparseMatrixComplete_constantsFixed {s : State} (h : s.constantsFixed) :
    OutcomeFixed (execSparseMatrixComplete s) := by
  unfold execSparseMatrixComplete
  dsimp only
  split
  · exact .next h
  · exact .next (.settleEngines (h.mapMe (fun _ ht => (ht.keep (by rfl)).sparseComplete.sparseShadow)))

/-! ## Engines -/

theorem State.constantsFixed.markDirty {s : State} (h : s.constantsFixed) {tn : TileNo} {l : Loc} {va : Nat} :
    (s.markDirty tn l va).constantsFixed := by
  unfold State.markDirty
  split
  · exact h
  · exact h.mapLaunch

theorem State.constantsFixed.crossed {s : State} (h : s.constantsFixed) {tn : TileNo} :
    (s.crossed tn).constantsFixed := by
  unfold State.crossed
  exact h.setTile (.keep (by rfl) (h.tile tn))

theorem State.constantsFixed.writeAsked {s : State} (h : s.constantsFixed) {tn : TileNo} {l : Loc} {r : Req} {bs : List
    (Nat × Byte × Bool)} :
    (s.writeAsked tn l r bs).constantsFixed := by
  unfold State.writeAsked
  exact h.setStoreAt.markDirty

theorem State.constantsFixed.engineConsumes {s : State} (h : s.constantsFixed) {tn : TileNo} {openSeg : Bool}
    {addr cycle unit detail : Nat} {locs : List Nat} :
    (s.engineConsumes tn openSeg addr cycle unit detail locs).constantsFixed := by
  unfold State.engineConsumes
  exact .ite (h.setTile (.keep (by rfl) (h.tile tn))) h.tileEntry.killItem.countTransient

theorem State.constantsFixed.mapStream {s : State} (h : s.constantsFixed) {tn : TileNo} {serial : Nat} {f : Stream → Stream} :
    (s.mapStream tn serial f).constantsFixed := by
  unfold State.mapStream
  exact h.setTile (.keep (by rfl) (h.tile tn))

theorem execStreamElementFill_constantsFixed {s : State} (h : s.constantsFixed) {t : TileNo} {serial : Nat} :
    OutcomeFixed (execStreamElementFill t serial s) := by
  unfold execStreamElementFill
  dsimp only
  split
  · exact .next h
  · split
    · exact .next h.mapStream
    · split
      · exact .next h
      · split
        · exact .next h.mapStream
        · split
          · exact .next h.mapStream
          · split
            · split
              · exact .next h.mapStream.crossed
              · exact .next h
            · exact .next h
        · exact .next h

theorem execStreamElementDrain_constantsFixed {s : State} (h : s.constantsFixed) {t : TileNo} {serial : Nat} :
    OutcomeFixed (execStreamElementDrain t serial s) := by
  unfold execStreamElementDrain
  dsimp only
  split
  · exact .next h
  · split
    · exact .next h
    · split
      · split
        · exact .next h.mapStream.engineConsumes
        · split
          · exact .next h.mapStream.settleEngines
          · split
            · exact .ite (.next h) (.next (.settleEngines (.mapStream (h.setTile (.engineWrite (h.tile t))))))
            · split
              · split
                · exact .next h.writeAsked.crossed.mapStream.settleEngines
                · exact .next h
              · exact .next h
      · exact .next h

theorem State.constantsFixed.mapActive {s : State} (h : s.constantsFixed) {tn : TileNo} {id : Nat} {f : Active → Active} :
    (s.mapActive tn id f).constantsFixed := by
  unfold State.mapActive
  exact h.setTile (.mapActive (h.tile tn))

theorem State.constantsFixed.dropActive {s : State} (h : s.constantsFixed) {tn : TileNo} {id : Nat} :
    (s.dropActive tn id).constantsFixed := by
  unfold State.dropActive
  exact .settleEngines (h.setTile (.keep (by rfl) (h.tile tn)))

theorem State.constantsFixed.refuseTarget {s : State} (h : s.constantsFixed) {tn : TileNo} {id : Nat} {rank : Option Nat} :
    (s.refuseTarget tn id rank).constantsFixed := by
  unfold State.refuseTarget
  exact h.refuse.setTile (.noteAsked (h.refuse.tile tn))

theorem State.constantsFixed.contribute {s : State} (h : s.constantsFixed) {tn : TileNo} {a : Active} {x : Transfer} :
    (s.contribute tn a x).constantsFixed := by
  unfold State.contribute
  exact .ite h (.ite (h.setTile (.noteAsked (h.tile tn))) (h.mapActive.keep (by rfl)))

theorem State.constantsFixed.performRequest {s : State} (h : s.constantsFixed) {tn : TileNo} {a : Active} {x : Transfer} :
    (s.performRequest tn a x).constantsFixed := by
  unfold State.performRequest
  dsimp only
  split
  · exact .ite h.contribute h.mapActive.settleEngines
  · split
    · split
      · exact h.mapActive
      · exact h
    · split
      · exact h
      · split
        · exact .ite h.dropActive.engineConsumes (.ite h.mapActive.crossed h.mapActive)
        · split
          · exact .settleEngines (.mapActive (.ite h.writeAsked.crossed h.writeAsked))
          · split
            · have h1 := fun u w => h.setTile (t := u) (.engineWrite (h.tile u) (w := w))
              exact .ite h (.settleEngines (.mapActive (.ite (h1 _ _).crossed (h1 _ _))))
            · exact h.refuseTarget

theorem execGlobalRequestPerform_constantsFixed {s : State} (h : s.constantsFixed) {t : TileNo} {id : Nat} :
    OutcomeFixed (execGlobalRequestPerform t id s) := by
  unfold execGlobalRequestPerform
  dsimp only
  split
  · exact .next h
  · split
    · exact .ite (.next h) (.next h.performRequest)
    · exact .next h

theorem State.constantsFixed.completeTransfer {s : State} (h : s.constantsFixed) {tn : TileNo} {a : Active} {x : Transfer} :
    (s.completeTransfer tn a x).constantsFixed := by
  unfold State.completeTransfer
  extract_lets kind prod
  split
  · exact h.refuseTarget
  · extract_lets s1 s2 _
    have h1 : s1.constantsFixed := by
      unfold s1
      split
      · exact h.setTile (.engineWrite (h.tile _))
      · exact h
    have h2 : s2.constantsFixed := .ite h1.sendSignal h1
    exact .dropActive (.ite h2 (h2.setTile (.traceAdd (h2.tile tn))))

theorem execTransferCompletion_constantsFixed {s : State} (h : s.constantsFixed) {t : TileNo} {id : Nat} :
    OutcomeFixed (execTransferCompletion t id s) := by
  unfold execTransferCompletion
  dsimp only
  split
  · exact .next h
  · split
    · exact .ite (.next h.completeTransfer) (.next h)
    · exact .next h

theorem State.constantsFixed.atomicTook {s : State} (h : s.constantsFixed) {d c : Nat} {tn : TileNo} :
    (s.atomicTook d c tn).constantsFixed := by
  unfold State.atomicTook
  exact h.setDie

theorem State.constantsFixed.performAtomic {s : State} (h : s.constantsFixed) {tn : TileNo} {a : Active} {q : Asked}
    {l : Loc} {op : AtomicOp} {b d : Word} {ret : Option Nat} :
    (s.performAtomic tn a q l op b d ret).constantsFixed := by
  unfold State.performAtomic
  dsimp only
  refine .dropActive ?_
  split
  · exact .setTile (.markDirty (.ite h h.writeLoc)) (.fillPlace (State.constantsFixed.tile (.markDirty (.ite h h.writeLoc)) tn))
  · exact .markDirty (.ite h h.writeLoc)

theorem execGlobalAtomicPerform_constantsFixed {s : State} (h : s.constantsFixed) {t : TileNo} {id : Nat} :
    OutcomeFixed (execGlobalAtomicPerform t id s) := by
  unfold execGlobalAtomicPerform
  dsimp only
  split
  · split
    · exact .ite (.next h.performAtomic) (.ite (.next h.performAtomic.atomicTook) (.next h))
    · exact .next h
  · exact .next h

theorem Tile.constantsFixed.logSignal {t : Tile} (h : t.constantsFixed) {st : Bool} {c : SemChange} :
    (t.logSignal st c).constantsFixed := by
  unfold Tile.logSignal
  refine .mapPriv h ?_
  split <;> rfl

theorem Tile.constantsFixed.signalled {t : Tile} (h : t.constantsFixed) {g : Signal} :
    (t.signalled g).constantsFixed := by
  unfold Tile.signalled
  exact .ite h.logSignal (.ite (h.keep (by rfl)) h.logSignal)

theorem execSemaphoreSignalArrival_constantsFixed {s : State} (h : s.constantsFixed) {n : Nat} :
    OutcomeFixed (execSemaphoreSignalArrival n s) := by
  unfold execSemaphoreSignalArrival
  dsimp only
  split
  · exact .next h
  · exact .ite (.next h) (.next (.keep (by rfl) (h.setTile (.signalled (h.tile _)))))

theorem execSignalLog_constantsFixed {s : State} (h : s.constantsFixed) :
    OutcomeFixed (execSignalLog s) := by
  unfold execSignalLog
  exact .next (.keep (by rfl) (h.mapMe (fun _ ht => ht.mapPriv (by rfl))))

/-! ## Collective -/

theorem State.constantsFixed.setGroup {s : State} (h : s.constantsFixed) {x : Group} :
    (s.setGroup x).constantsFixed := by
  unfold State.setGroup
  exact h.keep (by rfl)

theorem State.constantsFixed.contribFault {s : State} (h : s.constantsFixed) {f : Nat × Nat} {c : Contribution} :
    (s.contribFault f c).constantsFixed := by
  unfold State.contribFault
  split
  · exact h
  · exact h.setTile (.noteAsked (.mapActive (h.tile _)))

theorem State.constantsFixed.contribDiscard {s : State} (h : s.constantsFixed) {c : Contribution} :
    (s.contribDiscard c).constantsFixed := by
  unfold State.contribDiscard
  dsimp only
  split
  · exact h
  · exact h.setTile (.noteAsked (.mapActive (h.tile _)))

theorem State.constantsFixed.contribDone {s : State} (h : s.constantsFixed) {gate : Option LegRef} {c : Contribution} :
    (s.contribDone gate c).constantsFixed := by
  unfold State.contribDone
  dsimp only
  split
  · exact h
  · exact h.mapActive.waiterDone

theorem State.constantsFixed.writeResult {s : State} (h : s.constantsFixed) {p : PartNo} {dst : Nat} {waiters : List
    (TileNo × Nat)} {bs : List (Byte × Bool)} {pages : List (Loc × Nat × Nat)} :
    (s.writeResult p dst waiters bs pages).constantsFixed := by
  unfold State.writeResult
  exact h.foldl fun _ _ hu => hu.writeHeld

theorem State.constantsFixed.closeRound {s : State} (h : s.constantsFixed) {g : Group} : (s.closeRound g).constantsFixed := by
  unfold State.closeRound
  split
  · exact h
  · extract_lets p data gate pages s1
    have h1 : s1.constantsFixed := h.setGroup
    split
    · refine .foldl ?_ fun _ _ hu => hu.contribFault
      split
      · exact h1.refuse
      · exact h1.refuseHw
    · refine .foldl (.foldl h1.writeResult fun u x hu => ?_) fun _ _ hu => hu.contribDone
      split
      · exact hu.foldl fun _ _ hw => hw.markDirty
      · exact hu

theorem State.constantsFixed.arrive {s : State} (h : s.constantsFixed) {n : Nat} {c : Contribution} :
    (State.arrive n s c).constantsFixed := by
  induction n generalizing s c with
  | zero => exact h
  | succ n ih => exact .ite h.contribFault (.ite h.setGroup (.ite (h.setGroup.closeRound.foldl fun _ _ hu => ih hu) h.setGroup))

theorem State.constantsFixed.contribution {s : State} (h : s.constantsFixed) {c : Contribution} :
    (s.contribution c).constantsFixed := by
  unfold State.contribution
  exact h.arrive

theorem execRsendContribution_constantsFixed {s : State} (h : s.constantsFixed) {c : ContribSource} :
    OutcomeFixed (execRsendContribution c s) := by
  unfold execRsendContribution
  dsimp only
  split
  · exact .next h
  · split
    · split
      · exact .next h
      · exact .next (.ite (h.keep (by rfl)).contribution (h.keep (by rfl)))
    · exact .ite (.next h) (.next h.contribution)

theorem State.constantsFixed.groupCfg {s : State} (h : s.constantsFixed) {v : Word} :
    (s.groupCfg v).constantsFixed := by
  unfold State.groupCfg
  exact .foldl (h.setGroup.foldl fun _ _ hu => hu.contribDiscard) fun _ _ hu => hu.arrive

theorem execGroupCfg_constantsFixed {s : State} (h : s.constantsFixed) {v : Word} :
    OutcomeFixed (execGroupCfg v s) := by
  unfold execGroupCfg
  exact .next (.ite h.groupCfg h)

/-! ## March -/

theorem State.constantsFixed.launchMarch {s : State} (h : s.constantsFixed) {d : Nat} {again : List TileNo} :
    (s.launchMarch d again).constantsFixed := by
  unfold State.launchMarch
  exact (h.keep (by rfl)).enterPool

theorem State.constantsFixed.bootEnds {s : State} (h : s.constantsFixed) :
    s.bootEnds.constantsFixed := by
  unfold State.bootEnds
  exact h.setPart.mapDies.keep (by with_reducible rfl)

theorem State.constantsFixed.marchBegins {s : State} (h : s.constantsFixed) :
    s.marchBegins.constantsFixed := by
  unfold State.marchBegins
  dsimp only
  split
  · exact h.bootEnds
  · exact (h.keep (by rfl)).setPart.mapDies.zeroGates.foldl fun _ _ hu => hu.launchMarch

theorem State.constantsFixed.actOnMarch {s : State} (h : s.constantsFixed) {m : March} {status : Nat} :
    (s.actOnMarch m status).1.constantsFixed :=
  List.foldlRecOn (motive := fun a : State × List TileNo => a.1.constantsFixed) _ _ h
    fun a ha p _ => ha.setTile (.keep (by rfl) (ha.tile p.2))

theorem State.constantsFixed.marchEnds {s : State} (h : s.constantsFixed) {launch status : Nat} :
    (s.marchEnds launch status).constantsFixed := by
  unfold State.marchEnds
  split
  · exact h
  · rename_i m _
    have h1 := h.actOnMarch (m := m) (status := status)
    generalize s.actOnMarch m status = a at h1 ⊢
    obtain ⟨s1, changed⟩ := a
    exact .ite h (.ite (h1.keep (by rfl)).launchMarch (.ite (h1.keep (by rfl)).bootEnds (h1.keep (by rfl))))

/-! ## Scheduler -/

theorem execGateSig_constantsFixed {s : State} (h : s.constantsFixed) {p : PartNo} {v : Word} :
    OutcomeFixed (execGateSig p v s) := by
  unfold execGateSig
  exact .next (.ite h.raiseGate h)

theorem execGateInit_constantsFixed {s : State} (h : s.constantsFixed) {p : PartNo} {v : Word} :
    OutcomeFixed (execGateInit p v s) := by
  unfold execGateInit
  exact .next (.ite h.setGate h)

theorem execPartitionCreate_constantsFixed {s : State} (h : s.constantsFixed) {p : PartNo} {tiles : BitVec 1152} :
    OutcomeFixed (execPartitionCreate p tiles s) := by
  unfold execPartitionCreate
  exact .ite (.next h) (.next (h.setPart.zeroGates.foldl fun _ _ hu => hu.onIdle))

theorem execQtail_constantsFixed {s : State} (h : s.constantsFixed) {p : PartNo} {q : Fin 64} {v : Word} :
    OutcomeFixed (execQtail p q v s) := by
  unfold execQtail
  exact .ite (.next h.setPart) (.next h)

theorem execLaunchAccept_constantsFixed {s : State} (h : s.constantsFixed) :
    OutcomeFixed (execLaunchAccept s) := by
  unfold execLaunchAccept
  dsimp only
  split
  · exact .next h
  · exact .next (h.noteRead.enterPool.setPart.keep (by with_reducible rfl))

theorem execSumpAdmit_constantsFixed {s : State} (h : s.constantsFixed) :
    OutcomeFixed (execSumpAdmit s) := by
  unfold execSumpAdmit
  dsimp only
  split
  · exact .ite (.next h.setDie.enterPool) (.next h)
  · exact .next h

theorem State.constantsFixed.hsumpDone {s : State} (h : s.constantsFixed) {d : Nat} {v : Word} :
    (s.hsumpDone d v).constantsFixed := by
  unfold State.hsumpDone
  exact h.setDie

theorem execHsumpDone_constantsFixed {s : State} (h : s.constantsFixed) {d : DieNo} {v : Word} :
    OutcomeFixed (execHsumpDone d v s) := by
  unfold execHsumpDone
  exact .next (.ite h.hsumpDone h)

theorem State.constantsFixed.lowerGates {s : State} (h : s.constantsFixed) {l : Launch} :
    (s.lowerGates l).constantsFixed := by
  unfold State.lowerGates
  exact h.foldl fun _ _ hu => hu.setGate

theorem execLaunchEligible_constantsFixed {s : State} (h : s.constantsFixed) :
    OutcomeFixed (execLaunchEligible s) := by
  unfold execLaunchEligible
  exact .next (h.foldl fun _ _ hu => .ite hu.lowerGates.mapLaunch hu)

theorem State.constantsFixed.moveCursor {s : State} (h : s.constantsFixed) {p : PartNo} {prio : Nat} {ts : List TileNo} :
    (s.moveCursor p prio ts).constantsFixed := by
  unfold State.moveCursor
  dsimp only
  split
  · exact h
  · exact h.setPart

theorem State.constantsFixed.placeGang {s : State} (h : s.constantsFixed) {l : Launch} {ts : List TileNo} :
    (s.placeGang l ts).constantsFixed := by
  unfold State.placeGang
  exact .moveCursor (.mapLaunch (h.foldl fun _ _ hu => hu.setTile (.keep (by with_reducible rfl) (.mapPriv (hu.tile _)
    (by with_reducible rfl)))))

theorem execGangPlacement_constantsFixed {s : State} (h : s.constantsFixed) :
    OutcomeFixed (execGangPlacement s) := by
  unfold execGangPlacement
  split
  · exact .next h.setEnding
  · split
    · exact .ite (.next h.placeGang) (.next h)
    · exact .next h

theorem State.constantsFixed.fresh {s : State} (h : s.constantsFixed) : s.fresh.2.constantsFixed := by
  unfold State.fresh
  exact h.keep (by rfl)

theorem State.constantsFixed.stagingFault {s : State} (h : s.constantsFixed) {tn : TileNo} {f : Nat × Nat × Nat × Nat} :
    (s.stagingFault tn f).constantsFixed := by
  unfold State.stagingFault
  extract_lets s0
  have h0 : s0.constantsFixed := .ite h.refuse h
  have h3 := h0.fresh.fresh.fresh
  exact h3.setTile ((h3.tile tn).mapPriv (by rfl)).raiseAsync

theorem State.constantsFixed.stage {s : State} (h : s.constantsFixed) {tn : TileNo} {r : Run} {cs : List (Nat × Nat × Nat)} :
    (s.stage tn r cs).constantsFixed := by
  induction cs generalizing s with
  | nil => exact h
  | cons c cs ih =>
    unfold State.stage
    dsimp only
    split
    · exact h.stagingFault
    · exact .ite h (ih (h.setTile (.keep (by rfl) (h.tile tn))))

theorem Tile.constantsFixed.becomeResident {t : Tile} (h : t.constantsFixed) {r : Run} :
    (t.becomeResident r).constantsFixed := by
  unfold Tile.becomeResident
  exact (h.keep (by rfl)).startItem

theorem State.constantsFixed.noteResident {s : State} (h : s.constantsFixed) :
    s.noteResident.constantsFixed := by
  unfold State.noteResident
  split
  · exact h
  · exact h.mapGang

theorem execRunResident_constantsFixed {s : State} (h : s.constantsFixed) :
    OutcomeFixed (execRunResident s) := by
  unfold execRunResident
  dsimp only
  split
  · exact .next h
  · split
    · exact .next h
    · split
      · exact .ite (.next (.noteResident (h.stage.mapMe (fun _ ht => ht.becomeResident)))) (.next h.stage)
      · exact .next h.stage

theorem execGangStart_constantsFixed {s : State} (h : s.constantsFixed) :
    OutcomeFixed (execGangStart s) := by
  unfold execGangStart
  dsimp only
  split
  · exact .next h
  · exact .ite (.next h) (.next (h.foldl fun _ _ hu => hu.setTile (.keep (by rfl) (hu.tile _))))

theorem State.constantsFixed.rankEnded {s : State} (h : s.constantsFixed) {tn : TileNo} {r : Run} :
    (s.rankEnded tn r).constantsFixed := by
  unfold State.rankEnded
  dsimp only
  refine .mapLaunch ?_
  split
  · exact h.mapGang.endRun.freeSlot
  · exact h.mapGang.endRun

theorem State.constantsFixed.nextItem {s : State} (h : s.constantsFixed) {tn : TileNo} {r : Run} :
    (s.nextItem tn r).constantsFixed := by
  unfold State.nextItem
  dsimp only
  split
  · exact h
  · exact h.setTile (.startItem (h.tile tn))

theorem execWorkItemComplete_constantsFixed {s : State} (h : s.constantsFixed) :
    OutcomeFixed (execWorkItemComplete s) := by
  unfold execWorkItemComplete
  dsimp only
  split
  · exact .next h
  · have h1 : ∀ c r i f,
        ((((s.setMe { s.me with clock := c }).flushTrace s.cur).traceWrite s.cur r).mapLaunch i f).constantsFixed :=
      fun _ _ _ _ => .mapLaunch (.traceWrite (.flushTrace (h.setMe (h.me.keep (by rfl)))))
    exact .ite (.next h) (.ite (.next (h.commitSegment.mapMe fun _ ht => ht.keep (by rfl))) (.ite (.next h)
      (.ite (.next (h1 _ _ _ _).nextItem) (.next (h1 _ _ _ _).rankEnded))))

theorem State.constantsFixed.complete {s : State} (h : s.constantsFixed) {l : Launch} {e : Ending} :
    (s.complete l e).constantsFixed := by
  unfold State.complete
  extract_lets s0 _ s1 s2
  have h0 : s0.constantsFixed := h.foldl fun _ _ hu => hu.killGang
  have h1 : s1.constantsFixed := .ite h0.privWrite h0
  have h2 : s2.constantsFixed := .ite h1.raiseGate h1
  exact (h2.keep (by rfl)).marchEnds

theorem execLaunchCompletion_constantsFixed {s : State} (h : s.constantsFixed) {id : Nat} :
    OutcomeFixed (execLaunchCompletion id s) := by
  unfold execLaunchCompletion
  split
  · exact .next h
  · split
    · exact .ite (.next h) (.next h.complete)
    · exact .next h

theorem State.constantsFixed.killSump {s : State} (h : s.constantsFixed) {p : PartNo} {v : Word} {e : Ending} {d : Nat} :
    (s.killSump p v e d).constantsFixed := by
  unfold State.killSump
  exact h.setDie.foldl fun _ _ hu => hu.childEnds

theorem State.constantsFixed.kill {s : State} (h : s.constantsFixed) {p : PartNo} {v : Word} :
    (s.kill p v).constantsFixed := by
  unfold State.kill
  exact .foldl (h.foldl fun _ _ hu => hu.killLaunch) fun _ _ hu => hu.killSump

theorem execKill_constantsFixed {s : State} (h : s.constantsFixed) {p : PartNo} {v : Word} :
    OutcomeFixed (execKill p v s) := by
  unfold execKill
  exact .next (.ite h.kill h)

theorem State.constantsFixed.preempt {s : State} (h : s.constantsFixed) {p : PartNo} {v : Word} :
    (s.preempt p v).constantsFixed := by
  unfold State.preempt
  exact h.foldl fun _ _ hu => hu.mapLaunch

theorem execPreempt_constantsFixed {s : State} (h : s.constantsFixed) {p : PartNo} {v : Word} :
    OutcomeFixed (execPreempt p v s) := by
  unfold execPreempt
  exact .next (.ite h.preempt h)

theorem execSliceExpiry_constantsFixed {s : State} (h : s.constantsFixed) :
    OutcomeFixed (execSliceExpiry s) := by
  unfold execSliceExpiry
  split
  · exact .next h
  · exact .ite (.next h) (.ite (.next h.mapGang) (.next h.mapGang))

theorem State.constantsFixed.orderRank {s : State} (h : s.constantsFixed) {l : Launch} {gang rank : Nat} :
    (s.orderRank l gang rank).constantsFixed := by
  unfold State.orderRank
  dsimp only
  split
  · split
    · exact h.setPart.mapGang.setTile (.raiseAsync (h.setPart.mapGang.tile _))
    · exact h
  · exact h.mapGang
  · exact h

theorem execGangPreemption_constantsFixed {s : State} (h : s.constantsFixed) :
    OutcomeFixed (execGangPreemption s) := by
  unfold execGangPreemption
  dsimp only
  split
  · exact .next h
  · exact .next (.mapLaunch (.mapGang (h.foldl fun _ _ hu => hu.orderRank)))

theorem State.constantsFixed.restoreRank {s : State} (h : s.constantsFixed) {l : Launch} {gang : Nat} {a : Nat × Nat × TileNo} :
    (s.restoreRank l gang a).constantsFixed := by
  unfold State.restoreRank
  exact .keep (by with_reducible rfl) (.takeTrap (.keep (by with_reducible rfl) (h.mapGang.setTile
    (.keep (by with_reducible rfl) (h.mapGang.tile a.2.2)))))

theorem execGangRestore_constantsFixed {s : State} (h : s.constantsFixed) :
    OutcomeFixed (execGangRestore s) := by
  unfold execGangRestore
  dsimp only
  split
  · split
    · exact .next (.moveCursor (.mapGang (h.foldl fun _ _ hu => hu.restoreRank)))
    · exact .next h
  · exact .next h

/-! ## Margins -/

theorem State.constantsFixed.modeSet {s : State} (h : s.constantsFixed) {p : PartNo} {v : Word} :
    (s.modeSet p v).constantsFixed := by
  unfold State.modeSet
  exact h.setPart.foldl fun _ _ hu => hu.onIdle

theorem execModeSet_constantsFixed {s : State} (h : s.constantsFixed) {p : PartNo} {v : Word} :
    OutcomeFixed (execModeSet p v s) := by
  unfold execModeSet
  exact .next (.ite h.modeSet h)

theorem State.constantsFixed.hset {s : State} (h : s.constantsFixed) {p : PartNo} {v : Word} :
    (s.hset p v).constantsFixed := by
  unfold State.hset
  exact .ite h (h.setTile (.keep (by rfl) (h.tile _)))

theorem execHset_constantsFixed {s : State} (h : s.constantsFixed) {p : PartNo} {v : Word} :
    OutcomeFixed (execHset p v s) := by
  unfold execHset
  exact .next (.ite h.hset h)

theorem State.constantsFixed.quarantineWrite {s : State} (h : s.constantsFixed) {d : Nat} {v : Word} :
    (s.quarantineWrite d v).constantsFixed := by
  unfold State.quarantineWrite
  exact .ite h h.quarantine.killItem

theorem execQuarantine_constantsFixed {s : State} (h : s.constantsFixed) {d : DieNo} {v : Word} :
    OutcomeFixed (execQuarantine d v s) := by
  unfold execQuarantine
  exact .next (.ite h.quarantineWrite h)

theorem execGovernorThresholds_constantsFixed {s : State} (h : s.constantsFixed) {d : DieNo} {budget : Bool} {v : Word} :
    OutcomeFixed (execGovernorThresholds d budget v s) := by
  unfold execGovernorThresholds
  exact .next (.ite h.setDie h)

theorem State.constantsFixed.measure {s : State} (h : s.constantsFixed) {tn : TileNo} :
    (s.measure tn).constantsFixed := by
  unfold State.measure
  exact .ite h (.ite (.excludeSoon (h.setTile (.keep (by rfl) (h.tile tn)))) (h.setTile (.keep (by rfl) (h.tile tn))))

theorem execMarginMeasurement_constantsFixed {s : State} (h : s.constantsFixed) :
    OutcomeFixed (execMarginMeasurement s) := by
  unfold execMarginMeasurement
  exact .next (.setDie (h.foldl fun _ _ hu => hu.measure))

theorem execJunctionThrottle_constantsFixed {s : State} (h : s.constantsFixed) {d : DieNo} {hot : Bool} :
    OutcomeFixed (execJunctionThrottle d hot s) := by
  unfold execJunctionThrottle
  exact .next h.setDie

theorem execPowerCap_constantsFixed {s : State} (h : s.constantsFixed) {watts : Nat} :
    OutcomeFixed (execPowerCap watts s) := by
  unfold execPowerCap
  exact .next (.ite (h.keep (by rfl)) h)

theorem execThermalTrip_constantsFixed {s : State} (h : s.constantsFixed) :
    OutcomeFixed (execThermalTrip s) := by
  unfold execThermalTrip
  exact .next (h.keep (by rfl))

theorem State.constantsFixed.killRunOn {s : State} (h : s.constantsFixed) {e : Ending} {now : TileNo → Bool} {tn : TileNo} :
    (s.killRunOn e now tn).constantsFixed := by
  unfold State.killRunOn
  split
  · exact h.killLaunch
  · exact h

theorem State.constantsFixed.killRunsOn {s : State} (h : s.constantsFixed) {ts : List TileNo} {e : Ending} {now : TileNo → Bool} :
    (s.killRunsOn ts e now).constantsFixed := by
  unfold State.killRunsOn
  exact h.foldl fun _ _ hu => hu.killRunOn

theorem State.constantsFixed.resetTile {s : State} (h : s.constantsFixed) {tn : TileNo} : (s.resetTile tn).constantsFixed := by
  unfold State.resetTile
  exact .onIdle (h.killRunOn.dropMisses.setTile Tile.constantsFixed.resetTile)

theorem State.constantsFixed.resetEngines {s : State} (h : s.constantsFixed) {tn : TileNo} :
    (s.resetEngines tn).constantsFixed := by
  unfold State.resetEngines
  exact .onIdle (.parkDone (h.killRunOn.dropMisses.setTile (.keep (by rfl) (h.killRunOn.dropMisses.tile tn))))

theorem Tile.constantsFixed.dropWhere {t : Tile} (h : t.constantsFixed) {lost : Active → Bool} :
    (t.dropWhere lost).constantsFixed := by
  unfold Tile.dropWhere
  exact h.keep (by rfl)

theorem State.constantsFixed.resetAtomics {s : State} (h : s.constantsFixed) {d c : Nat} :
    (s.resetAtomics d c).constantsFixed := by
  unfold State.resetAtomics
  exact h.killRunsOn.foldl fun _ _ hu => hu.setTile (.dropWhere (hu.tile _))

theorem State.constantsFixed.abortMigration {s : State} (h : s.constantsFixed) {d : Nat} :
    (s.abortMigration d).constantsFixed := by
  unfold State.abortMigration
  dsimp only
  split
  · exact h
  · exact h.setDie.pushFree.releaseWrites.retryMigrations

theorem State.constantsFixed.resetDie {s : State} (h : s.constantsFixed) {d : Nat} : (s.resetDie d).constantsFixed := by
  unfold State.resetDie
  exact .foldl (.setDie (.abortMigration (h.killRunsOn.foldl fun _ _ hu => hu.killLaunch)))
    fun _ _ hu => .onIdle (hu.setTile Tile.constantsFixed.resetTile)

theorem State.constantsFixed.resetPartition {s : State} (h : s.constantsFixed) {p : PartNo} :
    (s.resetPartition p).constantsFixed := by
  unfold State.resetPartition
  refine .foldl (.mapDies (.zeroGates (.setPart (.foldl (h.foldl fun _ _ hu => hu.killLaunch) fun u x hu => ?_))))
    fun _ _ hu => hu.onIdle
  split
  · split
    · exact hu.complete
    · exact hu
  · exact hu

theorem State.resetDomain_constantsFixed {s : State} (h : s.constantsFixed) {domain id : Nat} : OptionFixed
    (s.resetDomain domain id) := by
  unfold State.resetDomain
  split
  · exact .ite (.some h.resetTile) .none
  · exact .ite (.some h.resetEngines) .none
  · exact .ite (.some h.resetAtomics) .none
  · exact .ite (.some h) .none
  · exact .ite (.some h.resetDie) .none
  · exact .ite (.some h.resetPartition) .none
  · exact .none

theorem State.constantsFixed.resetCmd {s : State} (h : s.constantsFixed) {v : Word} : (s.resetCmd v).constantsFixed := by
  unfold State.resetCmd
  refine .ite h ?_
  split
  · rename_i u hu
    exact .keep (by rfl) (State.resetDomain_constantsFixed h u hu)
  · exact h

theorem execResetCmd_constantsFixed {s : State} (h : s.constantsFixed) {v : Word} :
    OutcomeFixed (execResetCmd v s) := by
  unfold execResetCmd
  exact .next (.ite h.resetCmd h)

theorem execResetDone_constantsFixed {s : State} (h : s.constantsFixed) : OutcomeFixed (execResetDone s) := by
  unfold execResetDone
  extract_lets s1
  have h1 : s1.constantsFixed := by
    unfold s1
    split
    · exact h.setDie
    · exact h
  exact .next (h1.keep (by rfl))

theorem State.constantsFixed.plainEntry {s : State} (h : s.constantsFixed) {p : PartNo} {place cls cause unit detail : Nat} :
    (s.plainEntry p place cls cause unit detail).constantsFixed := by
  unfold State.plainEntry
  exact h.errEntry

theorem State.constantsFixed.entryFor {s : State} (h : s.constantsFixed) {pick : Part → Bool}
    {place cls cause unit detail : Nat} :
    (s.entryFor pick place cls cause unit detail).constantsFixed := by
  unfold State.entryFor
  exact h.foldl fun _ _ hu => hu.plainEntry

theorem execLinkFailure_constantsFixed {s : State} (h : s.constantsFixed) {l : Fin 28} {width : BitVec 2} :
    OutcomeFixed (execLinkFailure l width s) := by
  unfold execLinkFailure
  exact .next (h.keep (by rfl)).entryFor

theorem State.constantsFixed.applyPhysical {s : State} (h : s.constantsFixed) {e : Physical} :
    (s.applyPhysical e).constantsFixed := by
  unfold State.applyPhysical
  dsimp only
  split
  · exact h.keep (by rfl)
  · exact h.keep (by rfl)
  · exact .ite h (.ite (h.keep (by rfl)).plainEntry (h.keep (by rfl)))

theorem State.constantsFixed.physical {s : State} (h : s.constantsFixed) :
    s.physical.constantsFixed := by
  unfold State.physical
  exact (h.keep (by rfl)).foldl fun _ _ hu => hu.applyPhysical

theorem execEngineHardError_constantsFixed {s : State} (h : s.constantsFixed) {u : EngineUnit} :
    OutcomeFixed (execEngineHardError u s) := by
  unfold execEngineHardError
  split
  · exact .next h.tileEntry.resetEngines
  · exact .next h.entryFor.resetAtomics

theorem execDieFailure_constantsFixed {s : State} (h : s.constantsFixed) :
    OutcomeFixed (execDieFailure s) := by
  unfold execDieFailure
  exact .next h.entryFor.resetDie

theorem execGalleryDieLoss_constantsFixed {s : State} (h : s.constantsFixed) :
    OutcomeFixed (execGalleryDieLoss s) := by
  unfold execGalleryDieLoss
  exact .next (h.keep (by rfl)).entryFor.killRunsOn

/-! ## Debug -/

theorem State.constantsFixed.onDebugTile {s : State} (h : s.constantsFixed) {p : PartNo} {tn : TileNo} {f : State → State}
    (hf : ∀ u, u.constantsFixed → (f u).constantsFixed) : (s.onDebugTile p tn f).constantsFixed := by
  unfold State.onDebugTile
  exact .ite (hf s h) h

theorem State.constantsFixed.mapDebug {s : State} (h : s.constantsFixed) {tn : TileNo} {f : Debug → Debug} :
    (s.mapDebug tn f).constantsFixed := by
  unfold State.mapDebug
  exact h.setTile (.keep (by rfl) (h.tile tn))

theorem execDbgStopTile_constantsFixed {s : State} (h : s.constantsFixed) {p : PartNo} {t : TileNo} :
    OutcomeFixed (execDbgStopTile p t s) := by
  unfold execDbgStopTile
  exact .next (h.onDebugTile (fun _ ht => ht.mapDebug))

theorem execDbgReleaseTile_constantsFixed {s : State} (h : s.constantsFixed) {p : PartNo} {t : TileNo} :
    OutcomeFixed (execDbgReleaseTile p t s) := by
  unfold execDbgReleaseTile
  exact .next (h.onDebugTile (fun _ ht => ht.mapDebug))

theorem execDbgSingleIssue_constantsFixed {s : State} (h : s.constantsFixed) {p : PartNo} {t : TileNo} :
    OutcomeFixed (execDbgSingleIssue p t s) := by
  unfold execDbgSingleIssue
  exact .next (h.onDebugTile (fun _ ht => ht.mapDebug))

theorem State.constantsFixed.mapGangs {s : State} (h : s.constantsFixed) {f : Gang → Gang} :
    (s.mapGangs f).constantsFixed := by
  unfold State.mapGangs
  exact h.keep (by rfl)

theorem State.constantsFixed.haltDie {s : State} (h : s.constantsFixed) {d : Nat} :
    (s.haltDie d).constantsFixed := by
  unfold State.haltDie
  exact .mapGangs (h.setDie.foldl fun _ _ hu => .ite hu.mapDebug hu)

theorem State.constantsFixed.releaseDie {s : State} (h : s.constantsFixed) {d : Nat} :
    (s.releaseDie d).constantsFixed := by
  unfold State.releaseDie
  exact .mapGangs (h.setDie.foldl fun _ _ hu => hu.mapDebug)

theorem execDbgHaltDie_constantsFixed {s : State} (h : s.constantsFixed) {p : PartNo} {d : DieNo} :
    OutcomeFixed (execDbgHaltDie p d s) := by
  unfold execDbgHaltDie
  exact .next (.ite h.haltDie h)

theorem execDbgReleaseDie_constantsFixed {s : State} (h : s.constantsFixed) {p : PartNo} {d : DieNo} :
    OutcomeFixed (execDbgReleaseDie p d s) := by
  unfold execDbgReleaseDie
  exact .next (.ite h.releaseDie h)

theorem State.constantsFixed.dump {s : State} (h : s.constantsFixed) {p : PartNo} {tn : TileNo} :
    (s.dump p tn).constantsFixed := by
  unfold State.dump
  exact .ite h (.keep (by with_reducible rfl) h.privWrite)

theorem execDbgDump_constantsFixed {s : State} (h : s.constantsFixed) {p : PartNo} {t : TileNo} :
    OutcomeFixed (execDbgDump p t s) := by
  unfold execDbgDump
  exact .next (h.onDebugTile (fun _ ht => ht.dump))

theorem Tile.constantsFixed.patch {t : Tile} (h : t.constantsFixed) {m : List Byte} :
    Tile.constantsFixed { t with
      k := t.k.patch m, vec := t.vec.patch m, checker := t.checker.map fun c => (c.1.patch m, c.2.patch m) } := by
  obtain ⟨hk, hv, hs, hc, hx⟩ := h
  refine ⟨hk.patch, hv.patch, hs, hc, fun c he => ?_⟩
  obtain ⟨d, hd, rfl⟩ := Option.map_eq_some_iff.mp he
  exact ⟨(hx d hd).1.patch, (hx d hd).2.patch⟩

theorem State.constantsFixed.patch {s : State} (h : s.constantsFixed) {p : PartNo} {tn : TileNo} :
    (s.patch p tn).constantsFixed := by
  unfold State.patch
  exact .ite h (.ite h.noteRead (h.noteRead.setTile (h.tile tn).patch))

theorem execDbgPatch_constantsFixed {s : State} (h : s.constantsFixed) {p : PartNo} {t : TileNo} :
    OutcomeFixed (execDbgPatch p t s) := by
  unfold execDbgPatch
  exact .next (h.onDebugTile (fun _ ht => ht.patch))

theorem State.constantsFixed.debugCmd {s : State} (h : s.constantsFixed) {p : PartNo} {v : Word} :
    (s.debugCmd p v).constantsFixed := by
  unfold State.debugCmd
  dsimp only
  split
  · exact .ite (h.onDebugTile (fun _ ht => ht.mapDebug)) h
  · exact .ite (h.onDebugTile (fun _ ht => ht.mapDebug)) h
  · exact .ite (h.onDebugTile (fun _ ht => ht.mapDebug)) h
  · exact .ite h.haltDie h
  · exact .ite h.releaseDie h
  · exact .ite (h.onDebugTile (fun _ ht => ht.dump)) h
  · exact .ite (h.onDebugTile (fun _ ht => ht.patch)) h
  · exact h

theorem State.constantsFixed.noteHash {s : State} (h : s.constantsFixed) {l : Launch} :
    (s.noteHash l).constantsFixed := by
  unfold State.noteHash
  exact h.foldl fun _ _ hu => hu.noteRead

theorem State.constantsFixed.divWrite {s : State} (h : s.constantsFixed) {p : PartNo} {es : List DivEntry} :
    (s.divWrite p es).constantsFixed := by
  unfold State.divWrite
  exact h.foldl fun _ _ hu => hu.privWrite.mapRings

theorem State.constantsFixed.diverge {s : State} (h : s.constantsFixed) {l : Launch} {r : Nat} {e ref : DivEntry} :
    (s.diverge l r e ref).constantsFixed := by
  unfold State.diverge
  exact .mapLaunch (.ite h.mapRings h.privWrite.setPart)

theorem State.constantsFixed.divCompare {s : State} (h : s.constantsFixed) {l : Launch} {es : List DivEntry} :
    (s.divCompare l es).constantsFixed := by
  unfold State.divCompare
  dsimp only
  refine .setPart ?_
  split
  · exact h.noteRead.diverge
  · exact h.noteRead

theorem execDivergenceHash_constantsFixed {s : State} (h : s.constantsFixed) {id : Nat} :
    OutcomeFixed (execDivergenceHash id s) := by
  unfold execDivergenceHash
  dsimp only
  split
  · exact .next h
  · exact .ite (.next h) (.next (.mapLaunch (.ite h.noteHash.divCompare h.noteHash.divWrite)))

theorem execDivergedClear_constantsFixed {s : State} (h : s.constantsFixed) {o : Origin} :
    OutcomeFixed (execDivergedClear o s) := by
  unfold execDivergedClear
  split
  · exact .next h.clearDiverged
  · exact .next h

/-! ## Survey -/

theorem State.constantsFixed.ringWrite {s : State} (h : s.constantsFixed) {p : PartNo} {va : Nat} {bs : List Byte} :
    (s.ringWrite p va bs).constantsFixed := by
  unfold State.ringWrite
  exact h.privWrite

theorem State.constantsFixed.putReport {s : State} (h : s.constantsFixed) {p : PartNo} {bs : List Byte} :
    (s.putReport p bs).constantsFixed := by
  unfold State.putReport
  exact .ite h (.ite h.mapRings (.mapRings (.ringWrite (.ite h h.ringWrite))))

theorem execSurveyReportWrite_constantsFixed {s : State} (h : s.constantsFixed) :
    OutcomeFixed (execSurveyReportWrite s) := by
  unfold execSurveyReportWrite
  dsimp only
  split
  · exact .next h
  · exact .next (.putReport (h.mapMe (fun _ ht => ht.keep (by rfl))))

theorem execRingTail_constantsFixed {s : State} (h : s.constantsFixed) {t : TileNo} {v : Word} :
    OutcomeFixed (execRingTail t v s) := by
  unfold execRingTail
  split
  · exact .next h.mapRings
  · exact .next h

theorem execErrTail_constantsFixed {s : State} (h : s.constantsFixed) {p : PartNo} {v : Word} :
    OutcomeFixed (execErrTail p v s) := by
  unfold execErrTail
  exact .next (.ite h.mapRings h)

/-! ## Fabric -/

theorem State.constantsFixed.spoil {s : State} (h : s.constantsFixed) {pa : Nat} :
    (s.spoil pa).constantsFixed := by
  unfold State.spoil
  exact h.mapDies

theorem State.constantsFixed.hostWrite {s : State} (h : s.constantsFixed) {n off : Nat} {data : List Byte} :
    (State.hostWrite n s off data).constantsFixed := by
  induction n generalizing s off data with
  | zero => exact h
  | succ n ih => exact .ite h (ih h.spoil.writeHeld)

theorem execHostMemWrite_constantsFixed {s : State} (h : s.constantsFixed) {off : Nat} {data : List Byte} :
    OutcomeFixed (execHostMemWrite off data s) := by
  unfold execHostMemWrite
  exact .next (.ite h.hostWrite h)

theorem execHostMemRead_constantsFixed {s : State} (h : s.constantsFixed) {off len : Nat} :
    OutcomeFixed (execHostMemRead off len s) := by
  unfold execHostMemRead
  exact .next (.ite (h.keep (by rfl)) h)

theorem State.constantsFixed.writeSchedPage {s : State} (h : s.constantsFixed) {p : PartNo} {off : Nat} {v : Word} :
    (s.writeSchedPage p off v).constantsFixed := by
  unfold State.writeSchedPage
  split
  · exact h.mapPart
  · split
    · exact h.mapPart
    · exact h.mapPart
    · exact h.mapPart
    · exact h.preempt
    · exact h.kill
    · exact .ite h.raiseGate h
    · exact .ite h.setGate h
    · exact h.mapPart
    · exact h

theorem State.constantsFixed.writeCtlPage {s : State} (h : s.constantsFixed) {p : PartNo} {n : Nat} {v : Word} :
    (s.writeCtlPage p n v).constantsFixed := by
  unfold State.writeCtlPage
  exact .ite h.debugCmd (.ite (.ite (h.setTile (.writeReg (h.tile _))) h) (.ite h h.writePartReg))

theorem State.constantsFixed.writeControlPage {s : State} (h : s.constantsFixed) {p : PartNo} {off : Nat} {v : Word} :
    (s.writeControlPage p off v).constantsFixed := by
  unfold State.writeControlPage
  split
  · exact h.writeCtlPage
  · split
    · exact h.modeSet
    · exact h.hset
    · exact h.mapRings
    · exact h.mapRings
    · exact h.mapRings
    · exact h.mapRings
    · exact h

theorem State.constantsFixed.setSumpHost {s : State} (h : s.constantsFixed) {v : Word} :
    (s.setSumpHost v).constantsFixed := by
  unfold State.setSumpHost
  exact h.keep (by rfl)

theorem State.constantsFixed.mapDie {s : State} (h : s.constantsFixed) {d : Nat} {f : Die → Die} :
    (s.mapDie d f).constantsFixed := by
  unfold State.mapDie
  exact h.setDie

theorem State.constantsFixed.writeDieReg {s : State} (h : s.constantsFixed) {d r : Nat} {v : Word} :
    (s.writeDieReg d r v).constantsFixed := by
  unfold State.writeDieReg
  split
  · exact h.mapDie
  · exact h.mapDie
  · exact h.mapDie
  · exact h.mapDie
  · exact h.freePush
  · exact h.frameSet
  · exact h.mapDie
  · exact h.quarantineWrite
  · exact h.mapDie
  · exact h.mapDie
  · exact h

theorem State.constantsFixed.mapGallery {s : State} (h : s.constantsFixed) {f : Gallery → Gallery} :
    (s.mapGallery f).constantsFixed := by
  unfold State.mapGallery
  exact h.keep (by rfl)

theorem State.constantsFixed.writePackage {s : State} (h : s.constantsFixed) {off : Nat} {v : Word} :
    (s.writePackage off v).constantsFixed := by
  unfold State.writePackage
  split
  · exact h.writeDieReg
  · split
    · exact h.hsumpDone
    · split
      · exact h.resetCmd
      · exact h.mapGallery
      · exact h.mapGallery
      · exact h.mapGallery
      · exact h.mapGallery
      · exact h.groupCfg
      · exact h.setSumpHost
      · exact h

theorem State.constantsFixed.windowWrite {s : State} (h : s.constantsFixed) {w : Window} {off : Nat} {v : Word} :
    (s.windowWrite w off v).constantsFixed := by
  unfold State.windowWrite
  split
  · exact h
  · split
    · exact .ite h.writePackage h
    · exact .ite h (.ite h.writeSchedPage h.writeControlPage)

theorem execWindowRegisterWrite_constantsFixed {s : State} (h : s.constantsFixed) {w : Window} {off : BitVec 17} {v : Word} :
    OutcomeFixed (execWindowRegisterWrite w off v s) := by
  unfold execWindowRegisterWrite
  exact .next h.windowWrite

theorem execWallTimeDiscipline_constantsFixed {s : State} (h : s.constantsFixed) {m : TimingMessage} :
    OutcomeFixed (execWallTimeDiscipline m s) := by
  unfold execWallTimeDiscipline
  dsimp only
  refine .next ?_
  split
  · exact h
  · split
    · exact h.mapGallery
    · exact h.mapGallery

theorem execUalinkPortState_constantsFixed {s : State} (h : s.constantsFixed) {k : Fin 16} {up : Bool} {peer : BitVec 5} :
    OutcomeFixed (execUalinkPortState k up peer s) := by
  unfold execUalinkPortState
  exact .next (.ite h h.mapGallery)

/-! ## Boot -/

theorem State.constantsFixed.powered {s : State} : s.powered.constantsFixed := by
  intro t
  unfold State.tile State.powered
  rw [vget_vmk _ _ _ t.isLt]
  exact Tile.constantsFixed.powered

theorem Tile.constantsFixed.bootTile {t : Tile} (h : t.constantsFixed) {b : Boot} {dieOk : Bool} {tn : TileNo} :
    (b.bootTile dieOk tn t).1.constantsFixed := by
  unfold Boot.bootTile
  dsimp only
  split
  · exact h.keep (by rfl)
  · exact h.keep (by rfl)

theorem State.constantsFixed.bootOn {s : State} (h : s.constantsFixed) : s.bootOn.constantsFixed := by
  intro t
  unfold State.tile State.bootOn
  dsimp only
  rw [vget_vmk _ _ _ t.isLt, List.getD_eq_getElem?_getD]
  simp only [List.getElem?_map, List.getElem?_range t.isLt, Option.map_some, Option.getD_some]
  exact (h.tile t).bootTile

theorem State.constantsFixed.powerOn {s : State} : s.powerOn.constantsFixed := by
  unfold State.powerOn
  have h := State.constantsFixed.powered (s := s)
  exact .ite h.bootOn.marchBegins h

theorem execPowerOn_constantsFixed {s : State} : OutcomeFixed (execPowerOn s) := by
  unfold execPowerOn
  exact .next .powerOn

theorem execAttestationRequest_constantsFixed {s : State} (h : s.constantsFixed) {nonce : BitVec 256} :
    OutcomeFixed (execAttestationRequest nonce s) := by
  unfold execAttestationRequest
  exact .next (.ite (h.keep (by rfl)) h)

theorem State.constantsFixed.service {s : State} (h : s.constantsFixed) {a : ServiceAction} :
    (s.service a).constantsFixed := by
  unfold State.service
  dsimp only
  split
  · exact h.keep (by rfl)
  · exact h.setTile (.keep (by rfl) (h.tile _))

theorem execServiceCommand_constantsFixed {s : State} (h : s.constantsFixed) {c : ServiceCommand} :
    OutcomeFixed (execServiceCommand c s) := by
  unfold execServiceCommand
  exact .next (.ite (h.keep (by rfl)).service h)

/-! ## Dispatch -/

/-- Every instruction keeps the constants: an operation of a slot as its meaning does, an event by its own lemma. -/
theorem exec_constantsFixed {s : State} (h : s.constantsFixed) (i : Instr) : OutcomeFixed (exec i s) := by
  have hi := slotSem_keeps i
  cases i
  all_goals dsimp only [exec, slotSem] at hi ⊢
  case mov | add | sub | addo | addc | subo | subc | mul | mulhS64 | mulhZ64 | divS64 | divZ64 | remS64 | remZ64 | minS64
      | minZ64 | maxS64 | maxZ64 | andOp | orOp | xorOp | andn | shl | shrZ64 | shrS64 | rotl | rotr | clz | ctz | popc
      | brev | bswap | bfextS64 | bfextZ64 | bfins | clmul | clmulh | cmpS64 | cmpZ64 | gdand | gdor | gdxor | sel | lea
      | tagof | dflt | rdctl | sxt | zxt | prepOffset | prepRegister | br | call | ret | loop | lbrk | semwImmediate
      | semwRegister | waitw | stepMark | brk | trap | sys | endItem | chkctl | dblctl | ctrap | commit | wrctl | setctl
      | clrctl | xlinv | ctxsave | ctxload | ldS8 | ldZ8 | ldS16 | ldZ16 | ldS32 | ldZ32 | ldZ64 | stZ8 | stZ16 | stZ32
      | stZ64 | vld | vst | vlds | vsts | vldx | vstx | vldr | hbind | hunbind | ladd | lminS64 | lminZ64 | lmaxS64 | lmaxZ64
      | lxch | lcas | vmov | vsel | vchk | vcvt | vand | vor | vxor | vshl | vshrZ32 | vshrS32 | vperm | vbcast | vaddS32
      | vsubS32 | vmulS32 | vaddsS32 | vminS32 | vminZ32 | vmaxS32 | vmaxZ32 | vcmpS32 | vcmpZ32 | vext | vins | vrcpF32
      | vrsqF32 | vitpF32 | vitpBf16 | vaddF | vsubF | vmulF | vfma | vfnma | vminF | vmaxF | vcmpF | vssum | vsmin | vsmax
      | vsscan | vsmean | vsvar | vssmx | xnest | xbase | xfmt | xsrc | xbmp | xsdiag | xzero | xgo | xdrain | xwait | xstat
      | sbind | sunbind | gpush | copy | send | rsend | ssig | ssigR | sinit | sread | aadd | aminS64 | aminZ64 | amaxS64
      | amaxZ64 | aand | aor | axor | axch | acas | afaddF32 | afaddBf16 | fence | launch | pref | ectlBayout | ectlBayin
      | ectlSpout | ectlSpin | ectlAccout | ectlAccin | ectlKill | nop =>
    exact issueAlone_constantsFixed h hi
  case streamElementFill => exact execStreamElementFill_constantsFixed h
  case streamElementDrain => exact execStreamElementDrain_constantsFixed h
  case globalRequestPerform => exact execGlobalRequestPerform_constantsFixed h
  case transferCompletion => exact execTransferCompletion_constantsFixed h
  case semaphoreSignalArrival => exact execSemaphoreSignalArrival_constantsFixed h
  case globalAtomicPerform => exact execGlobalAtomicPerform_constantsFixed h
  case translationMiss => exact execTranslationMiss_constantsFixed h
  case translationWalkComplete => exact execTranslationWalkComplete_constantsFixed h
  case walkFill => exact execWalkFill_constantsFixed h
  case engineFault => exact execEngineFault_constantsFixed h
  case efResume => exact execEfResume_constantsFixed h
  case xlShoot => exact execXlShoot_constantsFixed h
  case xlShootDone => exact execXlShootDone_constantsFixed h
  case homeDieRequest => exact execHomeDieRequest_constantsFixed h
  case migCmd => exact execMigCmd_constantsFixed h
  case migDecayHalving => exact execMigDecayHalving_constantsFixed h
  case frameSet => exact execFrameSet_constantsFixed h
  case freePush => exact execFreePush_constantsFixed h
  case resumeWrite => exact execResumeWrite_constantsFixed h
  case qtail => exact execQtail_constantsFixed h
  case launchCompletion => exact execLaunchCompletion_constantsFixed h
  case gateSig => exact execGateSig_constantsFixed h
  case gateInit => exact execGateInit_constantsFixed h
  case preempt => exact execPreempt_constantsFixed h
  case kill => exact execKill_constantsFixed h
  case modeSet => exact execModeSet_constantsFixed h
  case hset => exact execHset_constantsFixed h
  case quarantine => exact execQuarantine_constantsFixed h
  case governorThresholds => exact execGovernorThresholds_constantsFixed h
  case resetCmd => exact execResetCmd_constantsFixed h
  case linkFailure => exact execLinkFailure_constantsFixed h
  case rsendContribution => exact execRsendContribution_constantsFixed h
  case groupCfg => exact execGroupCfg_constantsFixed h
  case hsumpDone => exact execHsumpDone_constantsFixed h
  case hostMemWrite => exact execHostMemWrite_constantsFixed h
  case hostMemRead => exact execHostMemRead_constantsFixed h
  case windowRegisterWrite => exact execWindowRegisterWrite_constantsFixed h
  case ringTail => exact execRingTail_constantsFixed h
  case errTail => exact execErrTail_constantsFixed h
  case dbgStopTile => exact execDbgStopTile_constantsFixed h
  case dbgReleaseTile => exact execDbgReleaseTile_constantsFixed h
  case dbgSingleIssue => exact execDbgSingleIssue_constantsFixed h
  case dbgHaltDie => exact execDbgHaltDie_constantsFixed h
  case dbgReleaseDie => exact execDbgReleaseDie_constantsFixed h
  case dbgDump => exact execDbgDump_constantsFixed h
  case dbgPatch => exact execDbgPatch_constantsFixed h
  case divergenceHash => exact execDivergenceHash_constantsFixed h
  case divergedClear => exact execDivergedClear_constantsFixed h
  case serviceCommand => exact execServiceCommand_constantsFixed h
  case attestationRequest => exact execAttestationRequest_constantsFixed h
  case powerCap => exact execPowerCap_constantsFixed h
  case rft => exact execRft_constantsFixed h
  case engineHardError => exact execEngineHardError_constantsFixed h
  case partitionCreate => exact execPartitionCreate_constantsFixed h
  case junctionThrottle => exact execJunctionThrottle_constantsFixed h
  case wallTimeDiscipline => exact execWallTimeDiscipline_constantsFixed h
  case ualinkPortState => exact execUalinkPortState_constantsFixed h
  case bundleIssue => exact execBundleIssue_constantsFixed h
  case waitCycle => exact execWaitCycle_constantsFixed h
  case bubbleCycle => exact execBubbleCycle_constantsFixed h
  case waitwDeadline => exact execWaitwDeadline_constantsFixed h
  case resultArrival => exact execResultArrival_constantsFixed h
  case engineCommandPresentation => exact execEngineCommandPresentation_constantsFixed h
  case denseMatrixCycle => exact execDenseMatrixCycle_constantsFixed h
  case matrixBlockZero => exact execMatrixBlockZero_constantsFixed h
  case drainRowWrite => exact execDrainRowWrite_constantsFixed h
  case sparseMatrixStart => exact execSparseMatrixStart_constantsFixed h
  case sparseMatrixComplete => exact execSparseMatrixComplete_constantsFixed h
  case segmentEntry => exact execSegmentEntry_constantsFixed h
  case segmentRewind => exact execSegmentRewind_constantsFixed h
  case deciderVerdict => exact execDeciderVerdict_constantsFixed h
  case trapTaken => exact execTrapTaken_constantsFixed h
  case semaphoreWaitWatchdog => exact execSemaphoreWaitWatchdog_constantsFixed h
  case debugStop => exact execDebugStop_constantsFixed h
  case walkData => exact execWalkData_constantsFixed h
  case migrationComplete => exact execMigrationComplete_constantsFixed h
  case refuseLog => exact execRefuseLog_constantsFixed h
  case signalLog => exact execSignalLog_constantsFixed h
  case launchAccept => exact execLaunchAccept_constantsFixed h
  case sumpAdmit => exact execSumpAdmit_constantsFixed h
  case launchEligible => exact execLaunchEligible_constantsFixed h
  case gangPlacement => exact execGangPlacement_constantsFixed h
  case runResident => exact execRunResident_constantsFixed h
  case gangStart => exact execGangStart_constantsFixed h
  case workItemComplete => exact execWorkItemComplete_constantsFixed h
  case sliceExpiry => exact execSliceExpiry_constantsFixed h
  case gangPreemption => exact execGangPreemption_constantsFixed h
  case contextSaveDone => exact execContextSaveDone_constantsFixed h
  case ectlTransferComplete => exact execEctlTransferComplete_constantsFixed h
  case gangRestore => exact execGangRestore_constantsFixed h
  case marginMeasurement => exact execMarginMeasurement_constantsFixed h
  case resetDone => exact execResetDone_constantsFixed h
  case dieFailure => exact execDieFailure_constantsFixed h
  case galleryDieLoss => exact execGalleryDieLoss_constantsFixed h
  case thermalTrip => exact execThermalTrip_constantsFixed h
  case surveyReportWrite => exact execSurveyReportWrite_constantsFixed h
  case powerOn => exact execPowerOn_constantsFixed

/-! ## Step -/

theorem stepOn_constantsFixed {s : State} (h : s.constantsFixed) : OutcomeFixed (stepOn s) := by
  unfold stepOn
  split
  · exact exec_constantsFixed (h.keep (by rfl)) _
  · trivial
  · exact exec_constantsFixed (h.keep (by rfl)) _
  · split
    · exact exec_constantsFixed (h.keep (by rfl)) _
    · exact .next (h.keep (by rfl))

theorem step_constantsFixed {s : State} (h : s.constantsFixed) : OutcomeFixed (step s) := stepOn_constantsFixed h.physical

/-- Settles O60: every function of the model that makes a state keeps the constants (R61, R63), so every instruction does, and with it
every step. -/
theorem stepKeepsConstants : Obligations.StepKeepsConstants := by
  unfold Obligations.StepKeepsConstants
  intro s t hs he
  have ho := step_constantsFixed hs
  rw [he] at ho
  exact ho

end Sys2Proof.Machine
end

section
/-! SUPPORT and PROOF of O1: the scalar operations with a result of two words (R177, R180, R181, R184, R185).

Each such operation is the frame of R177 over a function of the model (`binarySem`), so its issue gives a word after its latency
(`alone_givesWord`); what is left is one fact of arithmetic for each operation of Table 8.1 (`run_of_wordResult`). -/
namespace Sys2Proof.Machine

/-! ## Words as numbers -/

theorem word_sub_eq (a b : Word) : a - b = BitVec.ofInt 64 ((a.toNat : Int) - b.toNat) := by
  apply BitVec.eq_of_toNat_eq
  have ha := a.isLt
  have hb := b.isLt
  simp only [BitVec.toNat_sub, BitVec.toNat_ofInt]
  omega

theorem word_shiftLeft_eq (a : Word) (n : Nat) : a <<< n = BitVec.ofNat 64 (a.toNat * 2 ^ n) := by
  apply BitVec.eq_of_toNat_eq
  rw [BitVec.toNat_shiftLeft, BitVec.toNat_ofNat, Nat.shiftLeft_eq]

theorem word_add_shiftLeft_eq (a b : Word) (n : Nat) : a + b <<< n = BitVec.ofNat 64 (a.toNat + b.toNat * 2 ^ n) := by
  rw [word_shiftLeft_eq, BitVec.ofNat_add, BitVec.ofNat_toNat, BitVec.setWidth_eq]

theorem word_setWidth_eq (a : Word) (w : Nat) : (a.setWidth w).setWidth 64 = word (a.toNat % 2 ^ w) := by
  apply BitVec.eq_of_toNat_eq
  rw [BitVec.toNat_setWidth, BitVec.toNat_setWidth]
  rfl

theorem word_ushiftRight_eq (a : Word) (n : Nat) : a >>> n = BitVec.ofNat 64 (a.toNat / 2 ^ n) := by
  apply BitVec.eq_of_toNat_eq
  rw [BitVec.toNat_ushiftRight, BitVec.toNat_ofNat, Nat.shiftRight_eq_div_pow,
    Nat.mod_eq_of_lt (Nat.lt_of_le_of_lt (Nat.div_le_self ..) a.isLt)]

theorem word_sshiftRight_eq (a : Word) (n : Nat) : a.sshiftRight n = BitVec.ofInt 64 (a.toInt / 2 ^ n) := by
  have h : a.toInt >>> n = a.toInt / 2 ^ n :=
    (Int.shiftRight_eq_div_pow ..).trans (congrArg (a.toInt / ·) (Int.natCast_pow 2 n))
  exact congrArg (BitVec.ofInt 64) h

/-- The two parts of a rotation by n share no bit: what goes out at bit 63 comes in below bit n. -/
theorem rotation_parts (x n : Nat) (hx : x < 2 ^ 64) (hn : n ≤ 64) :
    x * 2 ^ n % 2 ^ 64 ||| x / 2 ^ (64 - n) = x * 2 ^ n % 2 ^ 64 + x / 2 ^ (64 - n) := by
  have hp : 2 ^ 64 = 2 ^ (64 - n) * 2 ^ n := by rw [← Nat.pow_add, Nat.sub_add_cancel hn]
  have hq : x / 2 ^ (64 - n) < 2 ^ n := Nat.div_lt_of_lt_mul (hp ▸ hx)
  rw [hp, Nat.mul_mod_mul_right, Nat.mul_comm _ (2 ^ n), Nat.two_pow_add_eq_or_of_lt hq]

/-- A word whose value is that of the two parts of a rotation is their sum. -/
theorem word_of_rotation (r : Word) (x n : Nat) (hx : x < 2 ^ 64) (hn : n ≤ 64)
    (hr : r.toNat = x * 2 ^ n % 2 ^ 64 ||| x / 2 ^ (64 - n)) : r = BitVec.ofNat 64 (x * 2 ^ n + x / 2 ^ (64 - n)) := by
  rw [rotation_parts x n hx hn] at hr
  apply BitVec.eq_of_toNat_eq
  rw [BitVec.toNat_ofNat, ← Nat.mod_add_mod, ← hr, Nat.mod_eq_of_lt r.isLt]

theorem word_rotateLeft_eq (a : Word) (n : Nat) (hn : n < 64) :
    a.rotateLeft n = BitVec.ofNat 64 (a.toNat * 2 ^ n + a.toNat / 2 ^ (64 - n)) := by
  refine word_of_rotation _ _ _ a.isLt (Nat.le_of_lt hn) ?_
  rw [BitVec.toNat_rotateLeft, Nat.mod_eq_of_lt hn, Nat.shiftLeft_eq, Nat.shiftRight_eq_div_pow]

theorem word_rotateRight_eq (a : Word) (n : Nat) (hn : n < 64) :
    a.rotateRight n = BitVec.ofNat 64 (a.toNat / 2 ^ n + a.toNat * 2 ^ (64 - n)) := by
  have hs : 64 - (64 - n) = n := Nat.sub_sub_self (Nat.le_of_lt hn)
  have h := word_of_rotation (a.rotateRight n) a.toNat (64 - n) a.isLt (Nat.sub_le ..) (by
    rw [BitVec.toNat_rotateRight, Nat.mod_eq_of_lt hn, Nat.shiftLeft_eq, Nat.shiftRight_eq_div_pow, hs, Nat.or_comm])
  rw [h, hs, Nat.add_comm]

/-- `sextN` is the signed value of the low bits. -/
theorem sextN_eq_toInt (m w : Nat) (hw : 0 < w) : sextN m w = (BitVec.ofNat w m).toInt := by
  obtain ⟨k, rfl⟩ := Nat.exists_eq_add_of_lt hw
  unfold sextN
  simp only [BitVec.toInt_eq_toNat_cond, BitVec.toNat_ofNat, Nat.zero_add, Nat.add_sub_cancel]
  congr 1
  rw [Nat.pow_succ]
  exact propext ⟨by omega, by omega⟩

theorem sextN_toNat (a : Word) (w : Nat) (hw : 0 < w) : sextN a.toNat w = (a.setWidth w).toInt := by
  rw [sextN_eq_toInt _ _ hw, BitVec.ofNat_toNat]

theorem sextN_shiftRight (m n w : Nat) (hw : 0 < w) : sextN (m >>> n) w = (BitVec.ofNat w (m / 2 ^ n)).toInt := by
  rw [sextN_eq_toInt _ _ hw, Nat.shiftRight_eq_div_pow]

/-- A choice by the complement of a condition. -/
theorem ite_of_iff_not {α : Type} {p q : Prop} {_ : Decidable p} {_ : Decidable q} (h : q ↔ ¬ p) (a b : α) :
    (if p then a else b) = if q then b else a := by
  by_cases hp : p
  · rw [if_pos hp, if_neg fun hq => h.mp hq hp]
  · rw [if_neg hp, if_pos (h.mpr hp)]

theorem ofInt_divS_quotient (a b : Word) :
    BitVec.ofInt 64 (divS a.toInt b.toInt).1 = if b.toInt = 0 then BitVec.allOnes 64 else BitVec.ofInt 64 (a.toInt.tdiv b.toInt) := by
  unfold divS
  split
  · rfl
  · rfl

theorem ofInt_divS_remainder (a b : Word) :
    BitVec.ofInt 64 (divS a.toInt b.toInt).2 = if b.toInt = 0 then a else BitVec.ofInt 64 (a.toInt.tmod b.toInt) := by
  unfold divS
  split
  · exact BitVec.ofInt_toInt
  · rw [Int.tmod_def, Int.mul_comm]

theorem ofNat_divZ_quotient (a b : Word) :
    BitVec.ofNat 64 (divZ a.toNat b.toNat).1 = if b.toNat = 0 then BitVec.allOnes 64 else BitVec.ofNat 64 (a.toNat / b.toNat) := by
  unfold divZ
  split
  · rfl
  · rfl

theorem ofNat_divZ_remainder (a b : Word) :
    BitVec.ofNat 64 (divZ a.toNat b.toNat).2 = if b.toNat = 0 then a else BitVec.ofNat 64 (a.toNat % b.toNat) := by
  unfold divZ
  split
  · exact BitVec.ofNat_toNat ..
  · rfl

/-! ## Table 8.1 -/

/-- The push of a word by an operation over the frame of R177: the join of the operands' tags where one is not VALID. -/
def Env.pushWord (e : Env) (s : State) (lat : Nat) (w : Word) : State :=
  e.pushScalar lat (if e.tags = .valid then validWord w else { v := 0, tag := e.tags }) s

theorem Env.pushWord_congr {e : Env} {s : State} {lat : Nat} {w r r' : Word} (h : some r = some r') (hw : w = r) :
    e.pushWord s lat w = e.pushWord s lat r' := by
  rw [hw, Option.some.inj h]

/-- An operation with a result of two words pushes that of 08 Table 8.1, R181, R184 and R185. -/
theorem run_of_wordResult {i : Instr} {e : Env} {r : Word} (h : wordResult i e.a.v e.b.v = some r) (s : State) :
    (slotSem i).run e s = e.pushWord s (wordLatency i) r := by
  have hn : e.b.v.toNat % 64 < 64 := Nat.mod_lt _ (by decide)
  cases i
  case mov | add | mul | mulhZ64 | andOp | orOp | xorOp | andn => exact Env.pushWord_congr h rfl
  case sub => exact Env.pushWord_congr h (word_sub_eq ..)
  case mulhS64 => exact Env.pushWord_congr h (congrArg (BitVec.ofInt 64) (Int.fdiv_eq_ediv_of_nonneg _ (by decide)))
  case minS64 | maxS64 => exact Env.pushWord_congr h (ite_of_iff_not Int.not_le.symm ..)
  case minZ64 | maxZ64 => exact Env.pushWord_congr h (ite_of_iff_not Nat.not_le.symm ..)
  case shl => exact Env.pushWord_congr h (word_shiftLeft_eq ..)
  case shrZ64 => exact Env.pushWord_congr h (word_ushiftRight_eq ..)
  case shrS64 => exact Env.pushWord_congr h (word_sshiftRight_eq ..)
  case rotl => exact Env.pushWord_congr h (word_rotateLeft_eq _ _ hn)
  case rotr => exact Env.pushWord_congr h (word_rotateRight_eq _ _ hn)
  case lea => exact Env.pushWord_congr h (word_add_shiftLeft_eq ..)
  case sxt => exact Env.pushWord_congr h (congrArg (BitVec.ofInt 64) (sextN_toNat _ _ (Nat.mul_pos (by decide : 0 < 8) (Nat.two_pow_pos _))))
  case zxt => exact Env.pushWord_congr h (word_setWidth_eq ..).symm
  case bfextZ64 => exact Env.pushWord_congr h (congrArg (fun x => word (x % _)) (Nat.shiftRight_eq_div_pow ..))
  case bfextS64 =>
    have hw : 0 < (bitField e.b.v).2 := Nat.lt_min.mpr ⟨Nat.succ_pos _, Nat.sub_pos_of_lt hn⟩
    exact Env.pushWord_congr h (congrArg (BitVec.ofInt 64) (sextN_shiftRight _ _ _ hw))
  case divZ64 => exact Env.pushWord_congr h (ofNat_divZ_quotient ..)
  case remZ64 => exact Env.pushWord_congr h (ofNat_divZ_remainder ..)
  case divS64 => exact Env.pushWord_congr h (ofInt_divS_quotient ..)
  case remS64 => exact Env.pushWord_congr h (ofInt_divS_remainder ..)
  all_goals nomatch h

theorem exec_of_wordResult {i : Instr} {a b r : Word} (h : wordResult i a b = some r) (s : State) :
    exec i s = .next (s.alone i (slotSem i)) := by
  unfold wordResult at h
  dsimp only at h
  split at h
  case h_29 => cases h
  all_goals rfl

theorem wordLatency_pos (i : Instr) : 1 ≤ wordLatency i := by
  unfold wordLatency
  split <;> decide

/-- The join of the operands' tags, or the result where they are VALID, in its canonical form (R177). -/
theorem norm_result (g : Tag) (r : Word) :
    Scalar.norm (if g = .valid then validWord r else { v := 0, tag := g }) = if g = .valid then validWord r else { v := 0, tag := g } := by
  cases g <;> rfl

/-- An operation that pushes a word gives it after its latency, or the join of the tags. -/
theorem alone_givesWord (s : State) (i : Instr) (hu : s.unhindered i) (hs : s.steady) (hon : s.on i) (lat : Nat) (hlat : 1 ≤ lat)
    (r : Word) (hrun : ∀ u, (slotSem i).run (s.env i) u = (s.env i).pushWord u lat r) :
    s.gives (s.alone i (slotSem i)) i lat (if (s.env i).tags = .valid then validWord r else { v := 0, tag := (s.env i).tags }) := by
  rw [← norm_result]
  exact alone_gives s i hu hs hon lat hlat _ (hrun _)

/-! ## Major opcodes -/

/-- A field that ends below bit 25 leaves the major opcode. -/
theorem place_lt {n : Nat} (v : BitVec n) (lo : Nat) (h : n + lo ≤ 25) : (place v lo).toNat < 2 ^ 25 := by
  have hv : v.toNat * 2 ^ lo < 2 ^ 25 := calc
    v.toNat * 2 ^ lo < 2 ^ n * 2 ^ lo := Nat.mul_lt_mul_of_pos_right v.isLt (Nat.two_pow_pos lo)
    _ = 2 ^ (n + lo) := (Nat.pow_add ..).symm
    _ ≤ 2 ^ 25 := Nat.pow_le_pow_right (by decide) h
  unfold place
  rw [BitVec.toNat_shiftLeft, BitVec.toNat_setWidth, Nat.shiftLeft_eq]
  refine Nat.lt_of_le_of_lt (Nat.mod_le ..) (Nat.lt_of_le_of_lt ?_ hv)
  exact Nat.mul_le_mul_right _ (Nat.mod_le ..)

theorem placeB_lt (v : Bool) (lo : Nat) (h : lo ≤ 24) : (placeB v lo).toNat < 2 ^ 25 := place_lt (BitVec.ofBool v) lo (by omega)

theorem or_lt_major {x y : Insn} (hx : x.toNat < 2 ^ 25) (hy : y.toNat < 2 ^ 25) : (x ||| y).toNat < 2 ^ 25 := by
  rw [BitVec.toNat_or]
  exact Nat.or_lt_two_pow hx hy

theorem formSA_bits_lt (f : FormSA) : f.bits.toNat < 2 ^ 25 :=
  or_lt_major (or_lt_major (or_lt_major (or_lt_major (place_lt _ _ (by decide)) (placeB_lt _ _ (by decide))) (place_lt _ _ (by decide)))
    (place_lt _ _ (by decide))) (place_lt _ _ (by decide))

theorem formSL_bits_lt (f : FormSL) : f.bits.toNat < 2 ^ 25 :=
  or_lt_major (or_lt_major (or_lt_major (place_lt _ _ (by decide)) (place_lt _ _ (by decide))) (place_lt _ _ (by decide)))
    (place_lt _ _ (by decide))

/-- The major opcode of a word whose fields end below it. -/
theorem majorOf_of_fields {i : Instr} {c x : Insn} {n : Nat} (hi : encode i = c ||| x) (hx : x.toNat < 2 ^ 25)
    (hc : c.toNat / 2 ^ 25 = n) : majorOf i = n := by
  unfold majorOf
  rw [hi, BitVec.toNat_or, ← Nat.shiftRight_eq_div_pow, Nat.shiftRight_or_distrib,
    Nat.shiftRight_eq_div_pow x.toNat, Nat.div_eq_of_lt hx, Nat.or_zero, Nat.shiftRight_eq_div_pow, hc]

/-- Settles O1: each operation is the frame of R177 over the function that Table 8.1, R181, R184 and R185 give it. -/
theorem scalarResults : Obligations.ScalarResults := by
  unfold Obligations.ScalarResults
  refine ⟨fun s i r hu hs hon hr => ?_, fun f => ?_⟩
  · exact ⟨_, exec_of_wordResult hr s, alone_givesWord s i hu hs hon _ (wordLatency_pos i) r (run_of_wordResult hr)⟩
  · have hf := formSA_bits_lt f
    exact ⟨majorOf_of_fields rfl hf rfl, majorOf_of_fields rfl hf rfl, majorOf_of_fields rfl hf rfl, majorOf_of_fields rfl hf rfl,
      majorOf_of_fields rfl hf rfl, majorOf_of_fields rfl hf rfl, majorOf_of_fields rfl hf rfl, majorOf_of_fields rfl hf rfl,
      majorOf_of_fields rfl hf rfl⟩

end Sys2Proof.Machine
end

section
/-! SUPPORT and PROOF of O4: guard pairs written by compares and guard operations (R62, R186, R187).

These operations put nothing in flight but a guard pair, which arrives at the end of the issue's own cycle (`alone_pairArrived`). -/
namespace Sys2Proof.Machine

/-! ## A guard pair that an issue writes -/

/-- A write of a named guard, seen at each guard; g0 discards it (R61). -/
theorem Ctx.vget_setGuard (c : Ctx) (j k : Nat) (x : Guard) (hk : k < 16) :
    vget (c.setGuard j x).g k = if k = j ∧ k ≠ 0 then x else vget c.g k := by
  unfold Ctx.setGuard
  split
  · rw [if_neg (by omega)]
  · rw [vget_vset]
    by_cases hkj : k = j
    · rw [if_pos ⟨hkj.symm, by omega⟩, if_pos ⟨hkj, by omega⟩]
    · rw [if_neg fun h => hkj h.1.symm, if_neg fun h => hkj h.1]

theorem Ctx.setGuard_sq (c : Ctx) (j : Nat) (x : Guard) : (c.setGuard j x).sq = c.sq := by
  unfold Ctx.setGuard
  split <;> rfl

/-- The guards of a context at which a guard pair has arrived (R62). -/
theorem Ctx.vget_arrive_guards (c : Ctx) (j k : Nat) (x y : Guard) (hk : k < 16) :
    vget (c.arrive (.guards j x y)).g k = if k = 2 * j ∧ k ≠ 0 then x else if k = 2 * j + 1 then y else vget c.g k := by
  show vget ((c.setGuard (2 * j) x).setGuard (2 * j + 1) y).g k = _
  rw [Ctx.vget_setGuard _ _ _ _ hk, Ctx.vget_setGuard _ _ _ _ hk]
  by_cases ho : k = 2 * j + 1
  · rw [if_pos ⟨ho, by omega⟩, if_neg (by omega), if_pos ho]
  · rw [if_neg (fun h => ho h.1), if_neg ho]

theorem Ctx.arrive_guards_sq (c : Ctx) (j : Nat) (x y : Guard) : (c.arrive (.guards j x y)).sq = c.sq :=
  (Ctx.setGuard_sq ..).trans (Ctx.setGuard_sq ..)

theorem Tile.setCtx_setCtx (t : Tile) (c d : Ctx) : (t.setCtx c).setCtx d = t.setCtx d := by
  unfold Tile.setCtx
  by_cases ha : t.priv.active = true
  · simp only [ha, if_true]
  · simp only [ha, Bool.false_eq_true, if_false]

theorem mkEnv_slot (b : Batch) (n : Nat) (on : Bool) (i : Issue) (vals : List (Role × Val)) : (mkEnv b n on i vals).iss.slot = i.slot := by
  unfold mkEnv
  dsimp only
  split <;> rfl

theorem mkEnv_cycle (b : Batch) (n : Nat) (on : Bool) (i : Issue) (vals : List (Role × Val)) : (mkEnv b n on i vals).cycle = n := by
  unfold mkEnv
  dsimp only
  split <;> rfl

/-- Two contexts have the same guards and scalar queue; the rest may differ. -/
def Ctx.sameFlags (c d : Ctx) : Prop := c.g = d.g ∧ c.sq = d.sq

/-- A guard pair in flight: it arrives at the end of the cycle of its issue, and reserves nothing (R62). -/
def State.pairEntry (s : State) (j : Nat) (p : Guard × Guard) : InFlight :=
  { slot := s.curSlot, issued := s.me.ctx.cycle, last := s.me.ctx.cycle, res := .guards j p.1 p.2, place := none }

/-- The tile that an issue's run leaves that puts nothing but a guard pair in flight. -/
def State.withPair (s : State) (j : Nat) (p : Guard × Guard) (ss : Streams) (st : Vector Sticky 9) : Tile :=
  Tile.setCtx { s.me with streams := ss } { s.me.ctx with infl := s.me.ctx.infl ++ [s.pairEntry j p], sticky := st }

/-- The guard pair has arrived at the context that issues, and the streams are those after the issue's pops. -/
def State.pairArrived (s t : State) (j : Nat) (p : Guard × Guard) (ss : Streams) : Prop :=
  ∃ c : Ctx, c.sameFlags s.me.ctx ∧ t.me.ctx.sameFlags (c.arrive (.guards j p.1 p.2)) ∧ t.me.streams = ss

theorem State.pairArrived.guardsAre {s t : State} {j : Nat} {p : Guard × Guard} {ss : Streams} (h : s.pairArrived t j p ss) :
    s.guardsAre t j p.1 p.2 := by
  obtain ⟨c, ⟨hcg, -⟩, ⟨htg, -⟩, -⟩ := h
  intro k hk
  rw [htg, Ctx.vget_arrive_guards c _ _ _ _ hk, hcg]

/-- Where the issue popped no stream, scalar queue and streams are what they were. -/
theorem State.pairArrived.quiet {s t : State} {j : Nat} {p : Guard × Guard} (h : s.pairArrived t j p s.me.streams) :
    t.me.ctx.sq = s.me.ctx.sq ∧ ∀ k, k < 8 → vget t.me.streams.regs k = vget s.me.streams.regs k := by
  obtain ⟨c, ⟨-, hcs⟩, ⟨-, hts⟩, hst⟩ := h
  exact ⟨by rw [hts, Ctx.arrive_guards_sq, hcs], fun k _ => by rw [hst]⟩

section
variable {s : State} {i : Instr} {j : Nat} {p : Guard × Guard} {ss : Streams} {st : Vector Sticky 9}

theorem pairArrived_of_handler (hu : s.unhindered i) (hs : s.steady) (ha : s.me.priv.active = true)
    (hrun : (runOp (aloneBatch i (slotSem i) s) s (s.sole i, slotSem i)).me = s.withPair j p ss st) :
    s.pairArrived (s.alone i (slotSem i)) j p ss := by
  have hctx : s.me.ctx = s.me.priv.shadow := by unfold Tile.ctx; rw [if_pos ha]
  unfold State.withPair Tile.setCtx at hrun
  simp only [ha, if_true] at hrun
  have hs' := hs
  obtain ⟨-, -, -, -, -, -, hcopy, -, hdfr, -, hflight, -⟩ := hs'
  have h := alone_handler s i hu hs _ hrun ha rfl (by show s.me.dfr.popSig = false; rw [hdfr]; rfl) hcopy
  obtain ⟨-, -, hst, -, -, -, hp, -⟩ := Tile.core_fields h
  have hact : (s.alone i (slotSem i)).me.priv.active = true := by rw [hp]
  rw [Tile.shadowArrivals_one _ s.me.ctx.infl (s.pairEntry j p) (by exact hcopy) (by rfl)
    (by intro e he; show s.me.ctx.cycle + 1 ≤ _; rw [hctx] at he ⊢; exact hflight e he)
    (by exact Nat.lt_succ_self s.me.ctx.cycle)] at hp
  unfold State.pairArrived
  rw [show (s.alone i (slotSem i)).me.ctx = _ from if_pos hact, hp]
  refine ⟨_, ?_, ⟨rfl, rfl⟩, hst⟩
  exact ⟨rfl, rfl⟩

theorem pairArrived_of_kernel (hu : s.unhindered i) (hs : s.steady) (ha : s.me.priv.active = false)
    (hrun : (runOp (aloneBatch i (slotSem i) s) s (s.sole i, slotSem i)).me = s.withPair j p ss st) :
    s.pairArrived (s.alone i (slotSem i)) j p ss := by
  have hctx : s.me.ctx = s.me.k := by unfold Tile.ctx; rw [ha]; rfl
  unfold State.withPair Tile.setCtx at hrun
  simp only [ha, Bool.false_eq_true, if_false] at hrun
  have hs' := hs
  obtain ⟨-, -, -, -, -, hcopy, -, -, hdfr, hflight, -, hlag, -⟩ := hs'
  have h := alone_kernel s i hu hs _ hrun ha (by show s.me.dfr.ended = false; rw [hdfr]; rfl)
    (by intro c hc; show s.me.ctx.cycle < _; rw [hctx]; exact (hlag c hc).1)
  obtain ⟨hk, -, hst, -, -, -, hp, -⟩ := Tile.core_fields h
  have hact : ¬ (s.alone i (slotSem i)).me.priv.active = true := by rw [hp]; exact Bool.eq_false_iff.mp ha
  unfold Tile.ended at hk hst
  rw [Tile.arrivals_one _ s.me.ctx.infl (s.pairEntry j p) (by exact hcopy) (by rfl)
    (by intro e he; show s.me.ctx.cycle + 1 ≤ _; rw [hctx] at he ⊢; exact hflight e he)
    (by exact Nat.lt_succ_self s.me.ctx.cycle) rfl (fun _ hx => hx)] at hk hst
  unfold State.pairArrived
  rw [show (s.alone i (slotSem i)).me.ctx = _ from if_neg hact, hk]
  refine ⟨_, ?_, ⟨rfl, rfl⟩, hst⟩
  exact ⟨rfl, rfl⟩

/-- A guard pair that an issue puts in flight has arrived when its clock period ends, in a kernel and in a handler. -/
theorem alone_pairArrived (hu : s.unhindered i) (hs : s.steady)
    (hrun : (runOp (aloneBatch i (slotSem i) s) s (s.sole i, slotSem i)).me = s.withPair j p ss st) :
    s.pairArrived (s.alone i (slotSem i)) j p ss := by
  cases ha : s.me.priv.active with
  | true => exact pairArrived_of_handler hu hs ha hrun
  | false => exact pairArrived_of_kernel hu hs ha hrun

/-- An operation that is on and does nothing but write a guard pair. -/
theorem alone_putGuards (hu : s.unhindered i) (hs : s.steady) (hon : s.on i)
    (hrun : ∀ u : State, u.me.ctx = s.me.ctx → (slotSem i).run (s.env i) u = (s.env i).putGuards j p u) :
    s.pairArrived (s.alone i (slotSem i)) j p (s.popped i).streams := by
  obtain ⟨ss, hss⟩ := s.popped_eq i
  refine alone_pairArrived hu hs (st := s.stickies i) ?_
  exact delivered s i hon 1 63 (.guards j p.1 p.2) (hrun _ (by rw [State.me_setMe, hss]; rfl))

/-- An operation that is off and does nothing but write a guard pair. -/
theorem alone_putGuards_off (hu : s.unhindered i) (hs : s.steady) (hoff : ¬ s.on i)
    (hrun : ∀ e : Env, (slotSem i).off e s = e.putGuards j p s) : s.pairArrived (s.alone i (slotSem i)) j p s.me.streams := by
  refine alone_pairArrived hu hs (st := vset s.me.ctx.sticky s.curSlot.idx
    (stickyAfter (mkEnv (aloneBatch i (slotSem i) s) s.me.ctx.cycle false (s.sole i) []).iss)) ?_
  rw [runOp_off s i hoff, hrun, State.me_mapMe]
  unfold Env.putGuards
  rw [deliver_me, reserve_none, mkEnv_slot, mkEnv_cycle, Tile.ctx_setCtx, Tile.setCtx_setCtx]
  rfl

/-! ## Compares and guard operations -/

/-- A compare writes its outcome, or VOID where it is off or an operand is VOID (R62, R186). -/
theorem alone_compare {n : BitVec 3} {f : Word → Word → Bool} {c : Bool} (hu : s.unhindered i) (hs : s.steady)
    (hsem : slotSem i = compareSem n f) (hc : f (s.env i).a.v (s.env i).b.v = c) :
    (s.on i → (s.env i).tags = .valid →
      s.guardsAre (s.alone i (slotSem i)) n.toNat (guardPair c).1 (guardPair c).2) ∧
    (¬ s.on i ∨ (s.env i).tags = .void →
      s.guardsAre (s.alone i (slotSem i)) n.toNat { val := false, void := true } { val := false, void := true }) := by
  refine ⟨fun hon hv => ?_, fun h => ?_⟩
  · refine (alone_putGuards hu hs hon fun u _ => ?_).guardsAre
    rw [hsem, ← hc]
    dsimp only [compareSem]
    rw [hv]
    rfl
  · by_cases hon : s.on i
    · have hv : (s.env i).tags = .void := h.resolve_left (not_not_intro hon)
      refine (alone_putGuards (p := guardPairVoid) hu hs hon fun u _ => ?_).guardsAre
      rw [hsem]
      dsimp only [compareSem]
      rw [hv]
      rfl
    · exact (alone_putGuards_off (p := guardPairVoid) hu hs hon fun e => by rw [hsem]; rfl).guardsAre

/-- A guard operation, which reads no operand, writes its outcome, or VOID where it is off or one of its guards is VOID (R187). -/
theorem alone_guardOp {f : FormSL} {op : Bool → Bool → Bool} (hu : s.unhindered i) (hs : s.steady) (hsem : slotSem i = guardSem f op)
    (hpop : s.popped i = s.me) :
    let x := vget s.me.ctx.g (f.ga.toNat % 16)
    let y := vget s.me.ctx.g (f.gb.toNat % 16)
    (s.on i → x.void = false → y.void = false → s.pairArrived (s.alone i (slotSem i)) f.pair.toNat
      (guardPair (op (x.val != f.ga.getLsbD 4) (y.val != f.gb.getLsbD 4))) s.me.streams) ∧
    (¬ s.on i ∨ x.void = true ∨ y.void = true →
      s.pairArrived (s.alone i (slotSem i)) f.pair.toNat guardPairVoid s.me.streams) := by
  intro x y
  have hpopped : (s.popped i).streams = s.me.streams := by rw [hpop]
  refine ⟨fun hon hx hy => ?_, fun h => ?_⟩
  · rw [← hpopped]
    refine alone_putGuards hu hs hon fun u hctx => ?_
    rw [hsem]
    dsimp only [guardSem]
    rw [hctx]
    exact if_neg (not_or.mpr ⟨Bool.eq_false_iff.mp hx, Bool.eq_false_iff.mp hy⟩)
  · by_cases hon : s.on i
    · have hv : x.void = true ∨ y.void = true := h.resolve_left (not_not_intro hon)
      rw [← hpopped]
      refine alone_putGuards hu hs hon fun u hctx => ?_
      rw [hsem]
      dsimp only [guardSem]
      rw [hctx]
      exact if_pos hv
    · exact alone_putGuards_off hu hs hon fun e => by rw [hsem]; rfl

end

/-- The six conditions of R135 on integers. -/
theorem cmpInt_eq (n : Nat) (x y : Int) :
    cmpInt n x y = match n with
      | 0 => decide (x = y) | 1 => decide (x ≠ y) | 2 => decide (x < y) | 3 => decide (x ≤ y) | 4 => decide (y < x) | _ => decide (y ≤ x) :=
  match n with
  | 0 => decide_eq_decide.mpr Int.compare_eq_eq
  | 1 => decide_eq_decide.mpr (not_congr Int.compare_eq_eq)
  | 2 => decide_eq_decide.mpr Int.compare_eq_lt
  | 3 => decide_eq_decide.mpr ((not_congr Int.compare_eq_gt).trans Int.not_lt)
  | 4 => decide_eq_decide.mpr Int.compare_eq_gt
  | _ + 5 => decide_eq_decide.mpr ((not_congr Int.compare_eq_lt).trans Int.not_lt)

theorem compare_natCast (a b : Nat) : compare (a : Int) (b : Int) = compare a b := by
  show compareOfLessAndEq (a : Int) b = compareOfLessAndEq a b
  unfold compareOfLessAndEq
  simp only [Int.ofNat_lt, Int.ofNat_inj]

theorem cmpNat_eq_cmpInt (n a b : Nat) : cmpNat n a b = cmpInt n a b := congrArg (condHolds n) (compare_natCast a b).symm

/-- The three guard operations share one meaning, read no operand, and issue alone (R187). -/
theorem slotSem_of_guardOp {i : Instr} {f : FormSL} {op : Bool → Bool → Bool} (s : State)
    (h : (i = .gdand f ∧ op = fun x y => x && y) ∨ (i = .gdor f ∧ op = fun x y => x || y) ∨ (i = .gdxor f ∧ op = fun x y => x != y)) :
    slotSem i = guardSem f op ∧ s.popped i = s.me ∧ exec i s = .next (s.alone i (slotSem i)) := by
  obtain ⟨rfl, rfl⟩ | ⟨rfl, rfl⟩ | ⟨rfl, rfl⟩ := h
  · exact ⟨rfl, rfl, rfl⟩
  · exact ⟨rfl, rfl, rfl⟩
  · exact ⟨rfl, rfl, rfl⟩

/-- Settles O4: a compare and a guard operation put nothing but their guard pair in flight, which arrives at the end of the issue's cycle. -/
theorem guardResults : Obligations.GuardResults := by
  unfold Obligations.GuardResults
  refine ⟨fun s i f signed hi hu hs => ?_, fun s i f op hop hu hs => ?_, fun f => ?_⟩
  · cases signed with
    | true =>
      obtain rfl : i = .cmpS64 f := hi
      obtain ⟨hvalid, hvoid⟩ := alone_compare (f := fun a b => cmpInt f.cond.toNat a.toInt b.toInt) hu hs rfl (cmpInt_eq ..)
      exact ⟨fun hon hv => ⟨_, rfl, hvalid hon hv⟩, fun h => ⟨_, rfl, hvoid h⟩⟩
    | false =>
      obtain rfl : i = .cmpZ64 f := hi
      obtain ⟨hvalid, hvoid⟩ := alone_compare (f := fun a b => cmpNat f.cond.toNat a.toNat b.toNat) hu hs rfl
        ((cmpNat_eq_cmpInt ..).trans (cmpInt_eq ..))
      exact ⟨fun hon hv => ⟨_, rfl, hvalid hon hv⟩, fun h => ⟨_, rfl, hvoid h⟩⟩
  · obtain ⟨hsem, hpop, hexec⟩ := slotSem_of_guardOp s hop
    obtain ⟨hout, hvoid⟩ := alone_guardOp hu hs hsem hpop
    exact ⟨fun hon hx hy => ⟨_, hexec, (hout hon hx hy).quiet, (hout hon hx hy).guardsAre⟩,
      fun h => ⟨_, hexec, (hvoid h).quiet, (hvoid h).guardsAre⟩⟩
  · have hf := formSL_bits_lt f
    exact ⟨majorOf_of_fields rfl hf rfl, majorOf_of_fields rfl hf rfl, majorOf_of_fields rfl hf rfl⟩

end Sys2Proof.Machine
end

section
/-! SUPPORT and PROOF of O20: the operations that move lanes and bytes, and the doubles compare of vectors (R227 to R229, R234).

A move is a vector or a scalar that its issue puts in flight (`alone_givesVector`, `alone_gives`), so what is left is what stands in a lane.
vchk puts nothing in flight: it leaves a segment record, which the end of the clock period keeps where no matrix command is queued
(`alone_setSeg`). -/
namespace Sys2Proof.Machine

/-! ## The segment record through the end of a clock period -/

theorem Tile.mxReads_idle {t : Tile} (hq : t.mx.queue = []) : t.mxReads = t := by
  have hx : ({ t.mx with queue := [] } : Matrix) = t.mx := by rw [← hq]
  unfold Tile.mxReads
  simp only [hq, List.filter_nil, List.foldl_nil, List.map_nil, hx]

theorem Tile.shadowRows_idle {t : Tile} (hq : t.mx.queue = []) (u : Bool) : t.shadowRows u = t := by
  unfold Tile.shadowRows
  rw [hq]
  rfl

theorem Tile.mxWrites_idle {t : Tile} (hq : t.mx.queue = []) (p : BitVec 16) :
    t.mxWrites p = { t with mx := { t.mx with cyc := t.mx.cyc + 1 } } := by
  unfold Tile.mxWrites
  simp only [hq, List.filter_nil, List.foldl_nil]

theorem Tile.checkCopies_off {t : Tile} (h : t.dfr.compare = false) (a c : Nat) : t.checkCopies a c = t := by
  unfold Tile.checkCopies
  rw [h]
  rfl

theorem Tile.seg_arrivals (t : Tile) : t.arrivals.seg = t.seg := by
  refine Tile.arrivals_keeps Tile.seg (fun t e => ?_) (fun _ _ => rfl) (fun _ _ => rfl) t
  unfold Tile.arriveOne
  dsimp only
  cases e.res <;> cases e.place <;> rfl

theorem Tile.dfr_arrivals (t : Tile) : t.arrivals.dfr = t.dfr := by
  refine Tile.arrivals_keeps Tile.dfr (fun t e => ?_) (fun _ _ => rfl) (fun _ _ => rfl) t
  unfold Tile.arriveOne
  dsimp only
  cases e.res <;> cases e.place <;> rfl

/-- A cycle of the kernel with no matrix command queued, nothing put off and no command due ends without a change of the segment record. -/
theorem Tile.seg_endCycle {t : Tile} (hq : t.mx.queue = []) (hd : t.dfr = Deferred.none) (hl : ∀ c ∈ t.eng.lag, t.k.cycle < c.cycle + 4)
    (p : BitVec 16) (a : Nat) : (t.endCycle p a).seg = t.seg := by
  unfold Tile.endCycle
  dsimp only
  rw [Tile.mxReads_idle (t := { t with mx := { t.mx with cyc := t.k.cycle } }) hq]
  simp only [hd, Deferred.none, List.foldl_nil]
  rw [Tile.shadowRows_idle (by exact hq), Tile.mxWrites_idle (by exact hq)]
  generalize hu : Tile.arrivals _ = u
  have hseg : u.seg = t.seg := by rw [← hu, Tile.seg_arrivals]
  have hdfr : u.dfr.compare = false := by rw [← hu, Tile.dfr_arrivals]
  have hlag : u.eng.lag = t.eng.lag := by rw [← hu]; exact congrArg Prod.fst (Tile.arrivals_lagOf _)
  have hcyc : u.mx.cyc = t.k.cycle + 1 := by rw [← hu, Tile.arrivals_mx]
  rw [Tile.checkCopies_off hdfr]
  unfold Tile.present
  rw [presentLoop_none p _ u fun c hc => by rw [hcyc]; have := hl c (hlag ▸ hc); omega]
  exact hseg

/-- An issue that a pending decision compares is noted in the segment record, beside its events. -/
theorem Tile.noteReached_eq (t : Tile) (a c : Nat) :
    ∃ g : Segment, t.noteReached a c = { t with seg := g } ∧ g.pendEvents = t.seg.pendEvents := by
  unfold Tile.noteReached
  split
  · split
    · exact ⟨_, rfl, rfl⟩
    · exact ⟨t.seg, rfl, rfl⟩
  · exact ⟨t.seg, rfl, rfl⟩

theorem Tile.pendEvents_atBoundary (t : Tile) : t.atBoundary.seg.pendEvents = t.seg.pendEvents := by
  unfold Tile.atBoundary
  dsimp only
  split <;> rfl

/-- The events that stand after an issue of the kernel which puts nothing off. -/
theorem finishIssue_pendEvents {s : State} {b : Batch} (hq : s.me.mx.queue = []) (hd : s.me.dfr = Deferred.none)
    (hl : ∀ c ∈ s.me.eng.lag, s.me.k.cycle < c.cycle + 4) : (s.finishIssue b).me.seg.pendEvents = s.me.seg.pendEvents := by
  obtain ⟨g, hg, hev⟩ := Tile.noteReached_eq { s.me with counters := s.me.counters.countIssue (min s.me.k.depth 6) b.ops } b.addr s.me.k.cycle
  have hend : ((s.issued b).endCycle (s.place s.cur) b.addr).seg.pendEvents = s.me.seg.pendEvents := by
    unfold State.issued
    rw [hg, Tile.seg_endCycle (by exact hq) (by exact hd) (by exact hl)]
    exact hev
  obtain ⟨d, m, h⟩ := finishIssue_eq s b (congrArg Deferred.ended hd)
  rw [h]
  generalize (s.issued b).endCycle (s.place s.cur) b.addr = u at hend ⊢
  generalize nextPosition _ _ _ _ _ = q
  exact (Tile.pendEvents_atBoundary { u with k := { u.k with pos := q } }).trans hend

theorem Tile.seg_chargeTrap (t : Tile) : t.chargeTrap.seg = t.seg := by
  unfold Tile.chargeTrap
  split
  · rfl
  · split <;> rfl

theorem Tile.seg_endHandlerCycle {t : Tile} (hd : t.dfr = Deferred.none) : t.endHandlerCycle.seg = t.seg := by
  unfold Tile.endHandlerCycle
  simp only [hd, Deferred.none, List.foldl_nil, Bool.false_eq_true, if_false]
  rfl

/-- The events that stand after an issue of a handler which puts nothing off. -/
theorem finishHandlerIssue_pendEvents {s : State} {b : Batch} (hd : s.me.dfr = Deferred.none) :
    (s.finishHandlerIssue b).me.seg.pendEvents = s.me.seg.pendEvents := by
  unfold State.finishHandlerIssue
  dsimp only
  rw [State.tickMe_me, State.me_mapMe, State.me_setMe]
  refine (congrArg Segment.pendEvents (Tile.seg_chargeTrap _)).trans ?_
  exact congrArg Segment.pendEvents (Tile.seg_endHandlerCycle hd)

section
variable {s : State} {i : Instr} {g : Segment}

/-- The tile that an operation leaves, before its cycle ends, which does nothing but leave a segment record. -/
theorem runOp_setSeg (hon : s.on i)
    (hrun : (slotSem i).run (s.env i) (s.setMe (s.popped i)) = s.setMe { s.popped i with seg := g }) :
    ∃ ss, (runOp (aloneBatch i (slotSem i) s) s (s.sole i, slotSem i)).me =
      Tile.setCtx { s.me with streams := ss, seg := g } { s.me.ctx with sticky := s.stickies i } := by
  obtain ⟨ss, hss⟩ := s.popped_eq i
  refine ⟨ss, ?_⟩
  rw [runOp_on s i hon, hrun, State.me_mapMe, State.me_setMe, hss]
  rfl

theorem alone_setSeg_handler (hu : s.unhindered i) (hs : s.steady) (hon : s.on i) (ha : s.me.priv.active = true)
    (hrun : (slotSem i).run (s.env i) (s.setMe (s.popped i)) = s.setMe { s.popped i with seg := g }) :
    (s.alone i (slotSem i)).me.seg.pendEvents = g.pendEvents ∧ (s.alone i (slotSem i)).me.ctx.cycle = s.me.ctx.cycle + 1 := by
  obtain ⟨ss, hr⟩ := runOp_setSeg hon hrun
  have hctx : s.me.ctx = s.me.priv.shadow := if_pos ha
  obtain ⟨-, -, -, -, -, -, hcopy, -, hdfr, -, hflight, -⟩ := id hs
  unfold Tile.setCtx at hr
  rw [if_pos ha] at hr
  constructor
  · have h := alone_runs s i hu hs
    dsimp only at h
    rw [h, if_pos ha, hr, if_neg fun h => h.2 h.1, finishHandlerIssue_pendEvents (by rw [hr]; exact hdfr), hr]
  · have h := alone_handler s i hu hs _ hr ha rfl (by exact congrArg Deferred.popSig hdfr) hcopy
    obtain ⟨-, -, -, -, -, -, hp, -⟩ := Tile.core_fields h
    have hact : (s.alone i (slotSem i)).me.priv.active = true := by rw [hp]; exact ha
    rw [show (s.alone i (slotSem i)).me.ctx = _ from if_pos hact, hp, Tile.shadowArrivals_none _ (by exact hcopy)]
    intro e he
    show s.me.ctx.cycle + 1 ≤ e.last
    rw [hctx] at he ⊢
    exact hflight e he

theorem alone_setSeg_kernel (hu : s.unhindered i) (hs : s.calm) (hon : s.on i) (ha : s.me.priv.active = false)
    (hrun : (slotSem i).run (s.env i) (s.setMe (s.popped i)) = s.setMe { s.popped i with seg := g }) :
    (s.alone i (slotSem i)).me.seg.pendEvents = g.pendEvents ∧ (s.alone i (slotSem i)).me.ctx.cycle = s.me.ctx.cycle + 1 := by
  obtain ⟨ss, hr⟩ := runOp_setSeg hon hrun
  have hna : ¬ s.me.priv.active = true := Bool.eq_false_iff.mp ha
  have hctx : s.me.ctx = s.me.k := if_neg hna
  obtain ⟨hst, hq⟩ := hs
  obtain ⟨-, -, -, -, -, hcopy, -, -, hdfr, hflight, -, hlag, -⟩ := id hst
  unfold Tile.setCtx at hr
  rw [if_neg hna] at hr
  have hl : ∀ c ∈ s.me.eng.lag, s.me.ctx.cycle < c.cycle + 4 := fun c hc => by rw [hctx]; exact (hlag c hc).1
  constructor
  · have h := alone_runs s i hu hst
    dsimp only at h
    rw [h, if_neg hna, finishIssue_pendEvents, State.me_mapMe, hr]
    · rfl
    · rw [State.me_mapMe, hr]; exact hq
    · rw [State.me_mapMe, hr]; exact hdfr
    · rw [State.me_mapMe, hr]; exact hl
  · have h := alone_kernel s i hu hst _ hr ha (congrArg Deferred.ended hdfr) hl
    obtain ⟨hk, -, -, -, -, -, hp, -⟩ := Tile.core_fields h
    have hact : ¬ (s.alone i (slotSem i)).me.priv.active = true := by rw [hp]; exact hna
    unfold Tile.ended at hk
    rw [show (s.alone i (slotSem i)).me.ctx = _ from if_neg hact, hk, Tile.arrivals_none _ (by exact hcopy)]
    intro e he
    show s.me.ctx.cycle + 1 ≤ e.last
    rw [hctx] at he ⊢
    exact hflight e he

/-- An operation that does nothing but leave a segment record leaves its events, and the next cycle follows. -/
theorem alone_setSeg (hu : s.unhindered i) (hs : s.calm) (hon : s.on i)
    (hrun : (slotSem i).run (s.env i) (s.setMe (s.popped i)) = s.setMe { s.popped i with seg := g }) :
    (s.alone i (slotSem i)).me.seg.pendEvents = g.pendEvents ∧ (s.alone i (slotSem i)).me.ctx.cycle = s.me.ctx.cycle + 1 := by
  cases ha : s.me.priv.active with
  | true => exact alone_setSeg_handler hu hs.1 hon ha hrun
  | false => exact alone_setSeg_kernel hu hs hon ha hrun

end

/-! ## The doubles compare of lanes -/

theorem Tag.code_lt (x : Tag) : x.code < 4 := by
  cases x <;> simp [Tag.code]

theorem Tag.code_eq_zero {x : Tag} : x.code = 0 ↔ x = .valid := by
  cases x <;> simp [Tag.code]

/-- The words of a doubles compare differ where the tags do, or the values of two VALID operands (R210). -/
theorem doubleWords_ne {x y : Tag × Nat} :
    (doubleWords x y).1 ≠ (doubleWords x y).2 ↔ x.1.code ≠ y.1.code ∨ (x.1 = .valid ∧ y.1 = .valid ∧ x.2 ≠ y.2) := by
  unfold doubleWords
  by_cases hc : x.1.code = y.1.code
  · by_cases hv : x.1 = .valid
    · have hy : y.1 = .valid := Tag.code_eq_zero.mp (hc ▸ Tag.code_eq_zero.mpr hv)
      have hwords : 4 * x.2 + x.1.code ≠ 4 * y.2 + y.1.code ↔ x.2 ≠ y.2 := by omega
      rw [if_neg fun h => h.2 hv]
      exact hwords.trans ⟨fun h => .inr ⟨hv, hy, h⟩, fun h => (h.resolve_left (not_not_intro hc)).2.2⟩
    · rw [if_pos ⟨hc, hv⟩]
      exact ⟨fun h => absurd rfl h, fun h => absurd (h.resolve_left (not_not_intro hc)).1 hv⟩
  · have hx := x.1.code_lt
    have hy := y.1.code_lt
    rw [if_neg fun h => hc h.1]
    exact ⟨fun _ => .inl hc, fun _ => by dsimp only; omega⟩

/-- The places at which two lists of words of one length differ. -/
def placesDiffering (a b : List Nat) : List Nat := (List.range a.length).filter fun k => a.getD k 0 ≠ b.getD k 0

/-- The event of a doubles mismatch, in the doubles region in force (R209, R424). -/
def Tile.doublesEvent (t : Tile) (takenAfter addr cycle slot : Nat) (a b : List Nat) : Event :=
  { check := .doubles, takenAfter := takenAfter, addr := addr, cycle := cycle, slot := slot, locs := placesDiffering a b,
    copyA := pick a (placesDiffering a b), copyB := pick b (placesDiffering a b), unit := 0, detail := 0, doubles := t.seg.doubles }

/-- What a doubles compare leaves of the segment record where no decision is pending (R424). -/
def Tile.doublesSeg (t : Tile) (takenAfter addr cycle slot : Nat) (a b : List Nat) : Segment :=
  if placesDiffering a b = [] then t.seg
  else { t.seg with pendEvents := t.seg.pendEvents ++ [t.doublesEvent takenAfter addr cycle slot a b] }

theorem Tile.compared_doubles {t : Tile} (hm : t.seg.mode ≠ .decide) (takenAfter addr cycle slot : Nat) (a b : List Nat) :
    t.compared .doubles takenAfter addr cycle slot a b = { t with seg := t.doublesSeg takenAfter addr cycle slot a b } := by
  unfold Tile.compared Tile.doublesSeg
  dsimp only
  split
  · exact absurd ‹_› hm
  · by_cases hp : placesDiffering a b = []
    · rw [if_pos hp]
      exact if_pos (List.isEmpty_iff.mpr hp)
    · rw [if_neg hp]
      exact if_neg fun h => hp (List.isEmpty_iff.mp h)

/-- The words that a vchk compares of a lane under a mask: nothing of a lane that is off (R234). -/
def Env.checkWords (e : Env) (k : Mask) (l : Nat) : Nat × Nat :=
  if k.on l then doubleWords ((e.lane .A l).tag, (e.lane .A l).v.toNat) ((e.lane .B l).tag, (e.lane .B l).v.toNat) else (0, 0)

/-- A lane in which a vchk finds its operands to differ: it is on, and their tags differ, or their VALID values (R210, R234). -/
def Env.laneDiffers (e : Env) (k : Mask) (l : Nat) : Prop :=
  k.vals.getLsbD l = true ∧ k.voids.getLsbD l = false ∧ ((e.lane .A l).tag.code ≠ (e.lane .B l).tag.code ∨
    ((e.lane .A l).tag = .valid ∧ (e.lane .B l).tag = .valid ∧ (e.lane .A l).v ≠ (e.lane .B l).v))

theorem Mask.on_iff {m : Mask} {l : Nat} : m.on l = true ↔ m.vals.getLsbD l = true ∧ m.voids.getLsbD l = false := by
  unfold Mask.on
  rw [Bool.and_eq_true, Bool.not_eq_true']

theorem Env.checkWords_ne {e : Env} {k : Mask} {l : Nat} : (e.checkWords k l).1 ≠ (e.checkWords k l).2 ↔ e.laneDiffers k l := by
  unfold Env.checkWords Env.laneDiffers
  by_cases hon : k.on l = true
  · rw [if_pos hon, doubleWords_ne]
    obtain ⟨hval, hvoid⟩ := Mask.on_iff.mp hon
    simp only [hval, hvoid, true_and, ne_eq, BitVec.toNat_inj]
  · rw [if_neg hon]
    exact ⟨fun h => absurd rfl h, fun ⟨hval, hvoid, _⟩ => absurd (Mask.on_iff.mpr ⟨hval, hvoid⟩) hon⟩

/-- The two lists of words that a vchk compares. -/
def Env.checkLists (e : Env) (k : Mask) : List Nat × List Nat :=
  (((List.range 32).map (e.checkWords k)).map Prod.fst, ((List.range 32).map (e.checkWords k)).map Prod.snd)

theorem Env.mem_places {e : Env} {k : Mask} {l : Nat} :
    l ∈ placesDiffering (e.checkLists k).1 (e.checkLists k).2 ↔ l < 32 ∧ e.laneDiffers k l := by
  unfold placesDiffering Env.checkLists
  rw [List.mem_filter, ← Env.checkWords_ne]
  simp only [List.length_map, List.length_range, List.mem_range, decide_eq_true_eq]
  refine and_congr_right fun hl => ?_
  simp [List.getD, hl]

/-- The run of a vchk leaves the comparison of its lanes in the segment record, taken after the next cycle (R234). -/
theorem slotSem_vchk_run {s : State} {f : FormVK} (hm : s.me.seg.mode ≠ .decide) :
    let e := s.env (.vchk f)
    let w := e.checkLists (vget s.me.vec.m f.m.toNat)
    (slotSem (.vchk f)).run e (s.setMe (s.popped (.vchk f))) = s.setMe { s.popped (.vchk f) with
      seg := s.me.doublesSeg (s.me.ctx.cycle + 1) s.me.ctx.pos.addr s.me.ctx.cycle s.curSlot.idx w.1 w.2 } := by
  obtain ⟨ss, hss⟩ := s.popped_eq (.vchk f)
  intro e w
  rw [show slotSem (.vchk f) = semVchk f from rfl]
  unfold semVchk OpSem.plain State.mapMe
  dsimp only
  rw [State.setMe_setMe, State.me_setMe, hss]
  refine (congrArg s.setMe (Tile.compared_doubles (t := { s.me with streams := ss }) hm _ _ _ _ _ _)).trans ?_
  rw [State.env_cycle, State.env_addr, State.env_slot]
  rfl

/-! ## Bytes of lanes -/

theorem laneByte_eq (x : LaneBits) (j : Nat) : laneByte x j = x.toNat / 2 ^ (8 * j) % 256 := by
  unfold laneByte
  rw [Nat.pow_mul]

theorem laneByte_lt (x : LaneBits) (j : Nat) : laneByte x j < 256 := Nat.mod_lt _ (by decide)

theorem leNat_lt (bs : List Byte) : leNat bs < 256 ^ bs.length := by
  induction bs with
  | nil => decide
  | cons b bs ih =>
    have hb := b.isLt
    rw [leNat, List.length_cons, Nat.pow_succ]
    omega

/-- Byte `j` of the number that bytes hold. -/
theorem leNat_byte (bs : List Byte) (j : Nat) : leNat bs / 256 ^ j % 256 = (bs.getD j 0).toNat := by
  induction bs generalizing j with
  | nil => simp [leNat]
  | cons b bs ih =>
    have hb := b.isLt
    cases j with
    | zero =>
      rw [leNat, Nat.pow_zero, Nat.div_one, List.getD_cons_zero]
      omega
    | succ j =>
      have hdiv : (b.toNat + 256 * leNat bs) / 256 = leNat bs := by omega
      rw [leNat, Nat.pow_succ', ← Nat.div_div_eq_div_mul, hdiv, ih, List.getD_cons_succ]

/-- The byte that a selector byte names among the bytes of A (R228). -/
def Env.selected (e : Env) (n : Nat) : Nat := if n < 128 then laneByte (e.lane .A (n / 4)).v (n % 4) else 0

theorem Env.selected_lt (e : Env) (n : Nat) : e.selected n < 256 := by
  unfold Env.selected
  split
  · exact laneByte_lt ..
  · decide

/-- The bytes of a lane that holds four. -/
theorem laneByte_leNat {bs : List Byte} (h : bs.length = 4) (j : Nat) : laneByte (BitVec.ofNat 32 (leNat bs)) j = (bs.getD j 0).toNat := by
  have hlt : leNat bs < 2 ^ 32 := Nat.lt_of_lt_of_eq (leNat_lt bs) (congrArg (256 ^ ·) h)
  unfold laneByte
  rw [BitVec.toNat_ofNat, Nat.mod_eq_of_lt hlt, leNat_byte]

theorem laneByte_permLane (e : Env) (l : Nat) {j : Nat} (hj : j < 4) :
    laneByte (permLane e l).2 j = e.selected (laneByte (e.lane .B l).v j) := by
  have hbyte := e.selected_lt (laneByte (e.lane .B l).v j)
  unfold permLane
  dsimp only
  rw [laneByte_leNat (by simp)]
  simp only [List.getD, List.getElem?_map, List.getElem?_range hj, Option.map_some, Option.getD_some, BitVec.toNat_ofNat]
  exact Nat.mod_eq_of_lt hbyte

theorem tagJoin_valid {l : List Tag} (h : ∀ x ∈ l, x = .valid) : tagJoin l = .valid := by
  induction l with
  | nil => rfl
  | cons x l ih =>
    obtain rfl := h x List.mem_cons_self
    exact ih fun y hy => h y (List.mem_cons_of_mem _ hy)

/-- A lane of vperm is VALID where its B lane and every A lane are (R228). -/
theorem permLane_valid {e : Env} {l : Nat} (hb : (e.lane .B l).tag = .valid) (ha : ∀ k, k < 32 → (e.lane .A k).tag = .valid) :
    (permLane e l).1 = .valid := by
  refine tagJoin_valid fun x hx => ?_
  obtain rfl | hx := List.mem_cons.mp hx
  · exact hb
  · obtain ⟨n, hn, rfl⟩ := List.mem_map.mp hx
    have hlt : n < 128 := of_decide_eq_true (List.mem_filter.mp hn).2
    exact ha _ (by omega)

/-! ## Operations that push a vector -/

theorem vget_laneFrame_off {m : Mask} {tag : Nat → Tag} {val : Nat → LaneBits} {l : Nat} (h : l < 32) (hoff : ¬ m.on l = true) :
    vget (laneFrame m tag val) l = { v := 0, tag := .void } := by
  unfold laneFrame
  rw [vget_vmk _ _ _ h, Bool.eq_false_iff.mpr hoff]
  rfl

theorem vget_laneFrame_valid {m : Mask} {tag : Nat → Tag} {val : Nat → LaneBits} {l : Nat} (h : l < 32) (hon : m.on l = true)
    (ht : tag l = .valid) : vget (laneFrame m tag val) l = { v := val l, tag := .valid } := by
  unfold laneFrame
  rw [vget_vmk _ _ _ h, hon, ht]
  rfl

/-- The pops of an operation's operands leave the masks. -/
theorem State.mask_popped (s : State) (i : Instr) (m : BitVec 3) : (s.setMe (s.popped i)).mask m = vget s.me.vec.m m.toNat := by
  obtain ⟨ss, hss⟩ := s.popped_eq i
  unfold State.mask
  rw [State.me_setMe, hss]

/-- An operation of the frame of R224 gives the lanes of that frame. -/
theorem alone_givesLanes {s : State} {i : Instr} {lat : Nat} {m : BitVec 3} {tag : Env → Nat → Tag} {val : Env → Nat → LaneBits}
    (hsem : slotSem i = laneSem lat m tag val) (hlat : 2 ≤ lat) (hu : s.unhindered i) (hs : s.steady) (hon : s.on i) :
    s.givesVector (s.alone i (slotSem i)) i lat (laneFrame (vget s.me.vec.m m.toNat) (tag (s.env i)) (val (s.env i))) := by
  refine alone_givesVector s i hu hs hon lat hlat _ ?_
  rw [← s.mask_popped i m, hsem]
  rfl

theorem formVA_bits_lt (f : FormVA) : f.bits.toNat < 2 ^ 25 :=
  or_lt_major (or_lt_major (or_lt_major (or_lt_major (place_lt _ _ (by decide)) (place_lt _ _ (by decide))) (place_lt _ _ (by decide)))
    (place_lt _ _ (by decide))) (place_lt _ _ (by decide))

/-- Settles O20: a move gives the lanes of its rule, and a vchk leaves the event of the lanes that differ, or none. -/
theorem laneMoves : Obligations.LaneMoves := by
  unfold Obligations.LaneMoves
  refine ⟨fun s f hu hs hon => ?vsel, fun s f hu hs hon => ?vperm, fun s f hu hs hon => ?vbcast, fun s f hu hs hon => ?vext,
    fun s f hu hs hon => ?vins, fun s f hu hs hon hm => ?vchk, fun f => majorOf_of_fields rfl (formVA_bits_lt f) rfl⟩
  case vsel =>
    refine ⟨_, _, rfl, alone_givesVector s _ hu hs hon 2 (by decide) _ rfl, fun l hl => ?_⟩
    intro y
    rw [vget_vmk _ _ _ hl, State.mask_popped]
    by_cases hv : (vget s.me.vec.m f.m.toNat).voids.getLsbD l = true
    · rw [if_pos hv, if_pos (.inl hv)]
    · simp only [hv, Bool.false_eq_true, if_false, false_or]
      rfl
  case vperm =>
    intro e k hvalid
    refine ⟨_, _, rfl, alone_givesLanes rfl (by decide) hu hs hon, fun l j hl hj => ?_⟩
    obtain ⟨-, hb, hval, hvoid⟩ := hvalid l hl
    rw [vget_laneFrame_valid hl (Mask.on_iff.mpr ⟨hval, hvoid⟩) (permLane_valid hb fun n hn => (hvalid n hn).1)]
    refine ⟨rfl, ?_⟩
    simp only [← laneByte_eq]
    exact laneByte_permLane e l hj
  case vbcast =>
    intro e k n ha hb
    refine ⟨_, _, rfl, alone_givesLanes rfl (by decide) hu hs hon, fun l hl => ?_⟩
    by_cases hl' : k.on l = true
    · rw [if_pos (Mask.on_iff.mp hl'), vget_laneFrame_valid hl hl' (by rw [ha, hb]; rfl), ← ha]
    · rw [if_neg (mt Mask.on_iff.mpr hl'), vget_laneFrame_off hl hl']
  case vext =>
    intro e k n ha hb
    refine ⟨_, rfl, ?_⟩
    have h := alone_gives s (.vext f) hu hs hon 3 (by decide) _ rfl
    rw [State.mask_popped] at h
    by_cases hn : k.on n = true
    · rw [if_pos hn, ha, hb] at h
      rw [if_pos (Mask.on_iff.mp hn)]
      exact h
    · rw [if_neg hn] at h
      rw [if_neg (mt Mask.on_iff.mpr hn)]
      exact h
  case vins =>
    intro e k ha hb
    refine ⟨_, _, rfl, alone_givesLanes rfl (by decide) hu hs hon, fun l hl hval hvoid => ?_⟩
    have hl' : k.on l = true := Mask.on_iff.mpr ⟨hval, hvoid⟩
    refine ⟨fun h => ?_, fun h hd => ?_⟩
    · rw [vget_laneFrame_valid hl hl' (by rw [if_pos h, ha, hb]; rfl), if_pos h]
    · rw [vget_laneFrame_valid hl hl' (by rw [if_neg h, hd, hb]; rfl), if_neg h, ← hd]
  case vchk =>
    intro e k differs
    obtain ⟨hev, hcyc⟩ := alone_setSeg hu hs hon (slotSem_vchk_run hm)
    have hmem : ∀ l, l ∈ placesDiffering (e.checkLists k).1 (e.checkLists k).2 ↔ l < 32 ∧ differs l := fun l => Env.mem_places
    refine ⟨fun hnone => ⟨_, rfl, hev.trans ?_, hcyc⟩, fun ⟨l, hl, hd⟩ ha => ?_⟩
    · have hp : placesDiffering (e.checkLists k).1 (e.checkLists k).2 = [] :=
        List.eq_nil_iff_forall_not_mem.mpr fun l h => hnone l ((hmem l).mp h).1 ((hmem l).mp h).2
      exact congrArg Segment.pendEvents (if_pos hp)
    · have hctx : s.me.ctx = s.me.k := if_neg (Bool.eq_false_iff.mp ha)
      have hp : placesDiffering (e.checkLists k).1 (e.checkLists k).2 ≠ [] := List.ne_nil_of_mem ((hmem l).mpr ⟨hl, hd⟩)
      rw [hctx] at hev
      exact ⟨_, _, rfl, hev.trans (congrArg Segment.pendEvents (if_neg hp)), rfl, rfl, rfl, rfl, rfl, rfl, hmem⟩

end Sys2Proof.Machine
end
